-- ==== Sys2Proof/Word.lean ====
section
/-!
DEFINITION. The word types of the panel: a 64-bit register (R392), a byte, a vector register of 32 lanes of 32 bits (R148).
-/
namespace Sys2Proof

/-- A 64-bit register or descriptor word. -/
abbrev Word := BitVec 64

/-- One byte of storage. -/
abbrev Byte := BitVec 8

/-- One vector register: 32 lanes of 32 bits (R148). -/
abbrev VReg := BitVec 1024

end Sys2Proof
end

