-- ==== Sys2Proof/Config.lean ====
section
/-!
DEFINITION. The values the spec leaves open, as constants with no body (log entry 2). Each is applied to a
draw number (State.freeCount) or to the operands it depends on, so that no proof can see which value it is.
-/
namespace Sys2Proof.Config

/-- FREE VALUE (log entry 2). A byte of a range whose contents the spec calls undefined (R6, R195, R316, R518):
the draw that made the range undefined, and the byte's key. -/
opaque freeByte : Nat → Nat → Byte

/-- FREE VALUE (log entry 2). A 64-bit result the spec leaves open; argument: the draw. -/
opaque freeWord : Nat → Word

/-- FREE VALUE (log entries 2, 118). Result bits that the spec leaves open of an operation that R106 makes reproducible: a function of the opcode and
of the operands alone. -/
opaque openResult : Nat → List Nat → Word

/-- FREE VALUE (log entry 2). The event codes of STATE entries: R501 names the events and gives no numbers. -/
opaque stateEvent : Nat → BitVec 8

/-- FREE VALUE (log entry 2). Which of the in-use wires of a bridge direction, counted over the groups in service, carries bit `i` of
flit-lane `l`; arguments: how many wires are in use, the lane, the bit. The spec says the bits are striped over them and not how (R49). -/
opaque wireOfBit : Nat → Nat → Nat → Nat

/-- FREE VALUE (log entry 2). The value a CRC register of the fabric starts from, and what is XORed onto its result, by polynomial: R49 and R53
give the polynomials and no more. -/
opaque crcStart : Nat → Nat
opaque crcFinish : Nat → Nat

/-- FREE VALUE (log entry 2). The 16 bits that a flit carries for the reverse direction, credit return and acknowledgement (R49), by time: the
model follows credits and acknowledgements by what stands in the buffers (log entry 112). -/
opaque reverseBits : Nat → BitVec 16

/-- FREE VALUE (log entry 2). The hash that spreads link packets over a peer's bundles (R332). -/
opaque bundleHash : Nat → Nat → Nat → Nat

/-- FREE VALUE (log entry 2). The flow label of a session of an Ethernet bundle (R344). -/
opaque flowLabel : Nat → Nat

/-- FREE VALUE (log entry 2). The digest of a cascade's member list that a JOIN carries (R354). -/
opaque listDigest : List Byte → Word

/-- FREE VALUE (log entry 2). The CRC of a RAIL frame (R553) where its conventions are not given. -/
opaque railCrc : Nat → Nat

/-- FREE VALUE (log entry 2). The incarnation number drawn at bring-up from a random source (R367); argument: the draw. -/
opaque incarnation : Nat → Word

/-- FREE VALUE (log entry 2). What the placement of a DMA-visible counter reads (cycle counts of R530, SRD): the
timing of the part is left out, so a cycle count is open; argument: the draw. -/
opaque cycleCount : Nat → Word

/-- FREE VALUE (log entry 99). Whether an offset of an HBM_ page lies in its HBM_TEST window: R324 names the window and gives no offset. -/
opaque testWindow : Nat → Bool

/-- UNIT_ID.MINOR: the register layout's minor version, per revision (R396). -/
opaque layoutMinor : BitVec 4

/-- FREE VALUE (log entry 2). The WS unit at which a weight tile resident in the weight stage lies (SOURCE 2 of MXE_GEMM, R279), by output tile and
record along k: the spec names no base. -/
opaque residentUnit : Nat → Nat → Nat

end Sys2Proof.Config
end

