-- ==== Sys2Proof/Machine/Sparse.lean ====
section
/-!
DEFINITION. Sparse data by number: a list of (key, value) pairs with strictly rising keys. A key that is not listed
reads as the default its owner names.
-/
namespace Sys2Proof.Machine

/-- Values by number, keys strictly rising. -/
abbrev Sparse (α : Type) := List (Nat × α)

/-- The value under `k`, if one is listed. -/
def Sparse.find? {α : Type} : Sparse α → Nat → Option α
  | [], _ => none
  | (j, v) :: rest, k => if k = j then some v else Sparse.find? rest k

/-- The value under `k`, `d` where none is listed. -/
def Sparse.get {α : Type} (d : α) (m : Sparse α) (k : Nat) : α := (Sparse.find? m k).getD d

/-- List `v` under `k`, in place of what was listed there. -/
def Sparse.set {α : Type} : Sparse α → Nat → α → Sparse α
  | [], k, v => [(k, v)]
  | (j, w) :: rest, k, v =>
    if k < j then (k, v) :: (j, w) :: rest
    else if k = j then (k, v) :: rest
    else (j, w) :: Sparse.set rest k v

/-- Unlist `k`. -/
def Sparse.del {α : Type} : Sparse α → Nat → Sparse α
  | [], _ => []
  | (j, w) :: rest, k => if k = j then rest else (j, w) :: Sparse.del rest k

/-- Apply `f` to the value under `k` (`d` where none is listed). -/
def Sparse.upd {α : Type} (d : α) (m : Sparse α) (k : Nat) (f : α → α) : Sparse α :=
  Sparse.set m k (f (Sparse.get d m k))

/-- Unlist every key in [lo, hi). -/
def Sparse.delRange {α : Type} (m : Sparse α) (lo hi : Nat) : Sparse α :=
  m.filter fun e => e.1 < lo || hi ≤ e.1

/-- The keys of `m` are at least `lo` and strictly rising. -/
def Sparse.sortedFrom {α : Type} : Nat → Sparse α → Bool
  | _, [] => true
  | lo, (j, _) :: rest => decide (lo ≤ j) && Sparse.sortedFrom (j + 1) rest

/-- The keys of `m` are strictly rising. -/
def Sparse.sorted {α : Type} (m : Sparse α) : Bool := Sparse.sortedFrom 0 m

/-- Put the listed values in place of whatever is listed in [lo, hi). -/
def Sparse.splice {α : Type} (lo hi : Nat) (new m : Sparse α) : Sparse α :=
  m.filter (fun e => e.1 < lo) ++ new.filter (fun e => decide (lo ≤ e.1) && decide (e.1 < hi)) ++ m.filter (fun e => hi ≤ e.1)

end Sys2Proof.Machine
end

