-- ==== Sys2Proof/Machine/Bits.lean ====
section
/-!
DEFINITION. Bit fields, byte order and the cyclic redundancy checks the spec fixes. Multi-byte values are little-endian (R9).
-/
namespace Sys2Proof.Machine

/-- Bits [lo+n-1:lo] of `v`. -/
def bits (v lo n : Nat) : Nat := v / 2 ^ lo % 2 ^ n

/-- Bit `i` of `v`. -/
def bit (v i : Nat) : Bool := v / 2 ^ i % 2 == 1

/-- 1 for true. -/
def b2n (b : Bool) : Nat := if b then 1 else 0

/-- `v` with bits [lo+n-1:lo] replaced by the low n bits of `x`. -/
def putBits (v lo n x : Nat) : Nat :=
  v - bits v lo n * 2 ^ lo + x % 2 ^ n * 2 ^ lo

/-- Put several fields (first bit, width, value) into a record of zeros. -/
def packFields (fs : List (Nat × Nat × Nat)) : Nat := fs.foldl (fun w f => putBits w f.1 f.2.1 f.2.2) 0

/-- The two's-complement value of the low n bits of `v`. -/
def sext (n v : Nat) : Int :=
  let u := v % 2 ^ n
  if u < 2 ^ (n - 1) then (u : Int) else (u : Int) - (2 ^ n : Nat)

/-- The low n bits of an integer. -/
def wrapInt (n : Nat) (i : Int) : Nat := (i % ((2 ^ n : Nat) : Int)).toNat

/-- A field of a 64-bit register. -/
def wordField (w : Word) (lo n : Nat) : Nat := bits w.toNat lo n

/-- A 64-bit register with one field replaced. -/
def wordPut (w : Word) (lo n x : Nat) : Word := BitVec.ofNat 64 (putBits w.toNat lo n x)

/-- The little-endian number a list of bytes spells. -/
def leNat : List Byte → Nat
  | [] => 0
  | b :: rest => b.toNat + 256 * leNat rest

/-- The `n` little-endian bytes of a number. -/
def leBytes : Nat → Nat → List Byte
  | 0, _ => []
  | n + 1, v => BitVec.ofNat 8 v :: leBytes n (v / 256)

/-- Cut a list into `n` pieces of `k`. -/
def chunks {α : Type} (k : Nat) : Nat → List α → List (List α)
  | 0, _ => []
  | n + 1, l => l.take k :: chunks k n (l.drop k)

/-- One bit shifted into a CRC register of `w` bits, most significant bit first, no reflection. -/
def crcBit (w poly crc : Nat) (b : Bool) : Nat :=
  let top := bit crc (w - 1)
  let sh := crc * 2 % 2 ^ w
  if top != b then Nat.xor sh poly else sh

/-- Eight bits of a byte, most significant first. -/
def crcByte (w poly crc : Nat) (v : Byte) : Nat :=
  [7, 6, 5, 4, 3, 2, 1, 0].foldl (fun c i => crcBit w poly c (bit v.toNat i)) crc

/-- A CRC over bytes in order (R74, R240). -/
def crcMsb (w poly init : Nat) (bs : List Byte) : Nat := bs.foldl (crcByte w poly) init

/-- The lowest index below `n` at which `p` holds. -/
def firstBelow (n : Nat) (p : Nat → Bool) : Option Nat := (List.range n).find? p

/-- The numbers below `n` at which `p` holds, ascending. -/
def allBelow (n : Nat) (p : Nat → Bool) : List Nat := (List.range n).filter p

/-- The set bits of `v` below `n`, ascending. -/
def setBits (n v : Nat) : List Nat := allBelow n (bit v)

/-- The number with exactly the listed bits set. -/
def ofBits (l : List Nat) : Nat := l.foldl (fun a i => if bit a i then a else a + 2 ^ i) 0

/-- Saturating increment by `k` of an n-bit counter. -/
def satAdd (n v k : Nat) : Nat := min (2 ^ n - 1) (v + k)

/-- Replace the element at `i`, if there is one. -/
def setAt {α : Type} : List α → Nat → α → List α
  | [], _, _ => []
  | _ :: t, 0, v => v :: t
  | h :: t, i + 1, v => h :: setAt t i v

end Sys2Proof.Machine
end

