-- ==== Sys2Proof/Machine/Registers.lean ====
section
/-!
DEFINITION. Every register the spec lays out (R42-R43, R68-R75, R116, R139-R145, R172-R175, R213-R216, R272-R275,
R305-R308, R326-R329, R360-R369, R384, R390-R391, R396-R409, R420-R426, R438-R440, R469-R477, R493, R508-R511,
R527-R528, R533-R542): its page, its offset, its fields with type, writers and reset value. The table form of R10.
-/
namespace Sys2Proof.Machine

/-- Field types of R10. -/
inductive FieldType where
  | ro | rw | rw1c | wo | rwl
  deriving DecidableEq, Repr

/-- Origin classes (R8). -/
inductive Origin where
  | H | F | M | P | G | C | D
  deriving DecidableEq, Repr

/-- The 3-bit code of an origin class (R8). -/
def Origin.code : Origin → Nat
  | .H => 0 | .F => 1 | .M => 2 | .P => 3 | .G => 4 | .C => 5 | .D => 6

/-- The kinds of register page of R393; `header` stands for the common header of R395, `pwrHub` for the hub PWR_ page of R477. -/
inductive PageKind where
  | header | rgn | rtr | pwr | pwrHub | clk | tim | dbg | blk | mxc | vxc | gtu | edg | drv | hbm | lnk | lnkTable
  | hubMain | hubHost | hubFence | mailbox | taskWindow | fallback | hubMgmt | log
  deriving DecidableEq, Repr

/-- The registers, each under its own name. -/
inductive Reg where
  | hubGeometry
  | rgnSite
  | rtrTimeout
  | rtrEpoch
  | rtrFlipAt
  | rtrArb
  | blkNumstat
  | mxcRoundsCtrl
  | mxcRoundsStat
  | mxcSlotMap
  | mxcRetired
  | mxcResidue
  | mxcClassify
  | mxcCbStat
  | vxcCtrl
  | vxcStat
  | vxcFault
  | vxcCheck
  | blkPenCfg
  | blkPenStat
  | blkPenCount
  | blkSramErr
  | drvCfg
  | drvStat
  | drvPace
  | rtrFold
  | gtuStat
  | drvExpCfg
  | drvTally
  | drvSched
  | hubMemcfg
  | hbmStat
  | hbmErr
  | hbmScrub
  | lnkCtrl
  | lnkStat
  | lnkPeer
  | lnkEth
  | lnkTable0
  | lnkTable1
  | lnkTable2
  | lnkTable3
  | hubAperture
  | hubPanel
  | hubIncarnation
  | rtrPeerTo
  | hubCascade
  | hubCascadeB
  | hubSqcfg
  | hubSqtag
  | hubSqstat
  | hubCqcfg
  | hubCqstat
  | hubFwin
  | hubFlim
  | hubFcfg
  | hubFstat
  | unitId
  | unitCap
  | unitCtrl
  | unitStat
  | errStat
  | errMask
  | errFirst
  | errInject
  | dutyMode
  | logCtrl
  | lock
  | accessErr
  | hubAssistCfg
  | hubAssistStat
  | hubAssistReply
  | hubHostcfg
  | hubBar2Win
  | hubFbentry
  | hubFbctrl
  | hubMgmt
  | clkStat
  | clkDroop
  | timNow
  | timSync
  | timRate
  | timPps
  | timPpsCapt
  | pwrCtrl
  | pwrLimit
  | pwrStat
  | pwrDeficit
  | pwrContact
  | pwrTemp
  | pwrOptable
  | hubBudget
  | hubForecast
  | hubFcHost
  | hubPstate
  | hubWake
  | hubWakeTime
  | hubWakeTimer
  | pwrUnattr
  | pwrEnergy
  | logNodestate
  | logStat
  | logSpill
  | logFlashcfg
  | logHring
  | logHringHead
  | logHringTail
  | logLatch0
  | logLatch1
  | hubBoot
  | hubBootctl
  | rgnFw
  | hubTally
  | tallyCtrl
  | ringCtrl
  | dbgRingSel
  | dbgRingStat
  | dbgFreeze
  | dbgBp
  | dbgBrk
  | dbgMode
  | dbgAcc
  | dbgAccData
  | rtrRoute0
  | rtrMap0
  | rtrStackMap0
  | rtrPeerMap0
  | rtrRoute1
  | rtrMap1
  | rtrStackMap1
  | rtrPeerMap1
  | blkCounter
  | blkClear
  | drvCounter
  | drvClear
  | mailbox
  | edgRing
  | dbgRingData
  deriving DecidableEq, Repr

/-- One field of a register table: its register, lowest bit, width, type, the origin classes of its Writers column as a
mask over `Origin.code`, its reset value, and whether it survives compute reset. -/
structure Field where
  reg : Reg
  lo : Nat
  width : Nat
  type : FieldType
  writers : Nat
  reset : Nat
  keep : Bool
  deriving DecidableEq, Repr

/-- HUB_GEOMETRY.ROWS (R42). -/
def F.hubGeometry_rows : Field := ⟨.hubGeometry, 0, 4, .ro, 0, 12, true⟩
/-- HUB_GEOMETRY.LCOLS (R42). -/
def F.hubGeometry_lcols : Field := ⟨.hubGeometry, 4, 4, .ro, 0, 0, true⟩
/-- HUB_GEOMETRY.REGIONS (R42). -/
def F.hubGeometry_regions : Field := ⟨.hubGeometry, 8, 8, .ro, 0, 0, true⟩
/-- HUB_GEOMETRY.SPARE_MASK (R42). -/
def F.hubGeometry_spareMask : Field := ⟨.hubGeometry, 16, 12, .ro, 0, 0, true⟩
/-- HUB_GEOMETRY.REDUCED (R42). -/
def F.hubGeometry_reduced : Field := ⟨.hubGeometry, 28, 1, .ro, 0, 0, true⟩
/-- HUB_GEOMETRY.NO_COMPUTE (R42). -/
def F.hubGeometry_noCompute : Field := ⟨.hubGeometry, 29, 1, .ro, 0, 0, true⟩
/-- HUB_GEOMETRY.MAP_BANK (R42). -/
def F.hubGeometry_mapBank : Field := ⟨.hubGeometry, 30, 1, .ro, 0, 0, true⟩
/-- HUB_GEOMETRY.MAP_VERSION (R42). -/
def F.hubGeometry_mapVersion : Field := ⟨.hubGeometry, 32, 8, .ro, 0, 0, true⟩
/-- HUB_GEOMETRY.MASTER (R42). -/
def F.hubGeometry_master : Field := ⟨.hubGeometry, 40, 1, .ro, 0, 0, true⟩
/-- HUB_GEOMETRY.GUEST_PRESENT (R42). -/
def F.hubGeometry_guestPresent : Field := ⟨.hubGeometry, 41, 1, .ro, 0, 0, true⟩
/-- RGN_SITE.PROW (R43). -/
def F.rgnSite_prow : Field := ⟨.rgnSite, 0, 4, .ro, 0, 0, true⟩
/-- RGN_SITE.PCOL (R43). -/
def F.rgnSite_pcol : Field := ⟨.rgnSite, 4, 4, .ro, 0, 0, true⟩
/-- RGN_SITE.LNUM (R43). -/
def F.rgnSite_lnum : Field := ⟨.rgnSite, 8, 8, .ro, 0, 0, true⟩
/-- RGN_SITE.ROLE (R43). -/
def F.rgnSite_role : Field := ⟨.rgnSite, 16, 3, .ro, 0, 0, true⟩
/-- RGN_SITE.FUSED_BAD (R43). -/
def F.rgnSite_fusedBad : Field := ⟨.rgnSite, 19, 1, .ro, 0, 0, true⟩
/-- RGN_SITE.GRADE (R43). -/
def F.rgnSite_grade : Field := ⟨.rgnSite, 20, 4, .ro, 0, 0, true⟩
/-- RTR_TIMEOUT.REQ_TIMEOUT (R70). -/
def F.rtrTimeout_reqTimeout : Field := ⟨.rtrTimeout, 0, 16, .rwl, 66, 8, true⟩
/-- RTR_TIMEOUT.SUSPECT_COUNT (R70). -/
def F.rtrTimeout_suspectCount : Field := ⟨.rtrTimeout, 16, 4, .rwl, 66, 3, true⟩
/-- RTR_TIMEOUT.SUSPECT_WINDOW (R70). -/
def F.rtrTimeout_suspectWindow : Field := ⟨.rtrTimeout, 20, 8, .rwl, 66, 10, true⟩
/-- RTR_EPOCH.INJ_EPOCH (R74). -/
def F.rtrEpoch_injEpoch : Field := ⟨.rtrEpoch, 0, 1, .ro, 0, 0, true⟩
/-- RTR_EPOCH.BANK0_STATE (R74). -/
def F.rtrEpoch_bank0State : Field := ⟨.rtrEpoch, 1, 2, .ro, 0, 0, true⟩
/-- RTR_EPOCH.BANK1_STATE (R74). -/
def F.rtrEpoch_bank1State : Field := ⟨.rtrEpoch, 3, 2, .ro, 0, 0, true⟩
/-- RTR_EPOCH.SEAL (R74). -/
def F.rtrEpoch_seal : Field := ⟨.rtrEpoch, 5, 1, .wo, 66, 0, false⟩
/-- RTR_EPOCH.LOADED_DIGEST (R74). -/
def F.rtrEpoch_loadedDigest : Field := ⟨.rtrEpoch, 16, 16, .ro, 0, 0, true⟩
/-- RTR_EPOCH.STALE_COUNT (R74). -/
def F.rtrEpoch_staleCount : Field := ⟨.rtrEpoch, 32, 32, .ro, 0, 0, true⟩
/-- RTR_FLIP_AT.FLIP_AT (R74). -/
def F.rtrFlipAt_flipAt : Field := ⟨.rtrFlipAt, 0, 64, .rw, 66, 0, true⟩
/-- RTR_ARB.W_C1 (R75). -/
def F.rtrArb_wC1 : Field := ⟨.rtrArb, 0, 4, .rwl, 66, 4, true⟩
/-- RTR_ARB.W_C2 (R75). -/
def F.rtrArb_wC2 : Field := ⟨.rtrArb, 4, 4, .rwl, 66, 3, true⟩
/-- RTR_ARB.W_C3 (R75). -/
def F.rtrArb_wC3 : Field := ⟨.rtrArb, 8, 4, .rwl, 66, 6, true⟩
/-- RTR_ARB.W_C4 (R75). -/
def F.rtrArb_wC4 : Field := ⟨.rtrArb, 12, 4, .rwl, 66, 2, true⟩
/-- RTR_ARB.W_C5 (R75). -/
def F.rtrArb_wC5 : Field := ⟨.rtrArb, 16, 4, .rwl, 66, 1, true⟩
/-- BLK_NUMSTAT.PS_OVF (R116). -/
def F.blkNumstat_psOvf : Field := ⟨.blkNumstat, 0, 1, .rw1c, 99, 0, false⟩
/-- BLK_NUMSTAT.NAN_OUT (R116). -/
def F.blkNumstat_nanOut : Field := ⟨.blkNumstat, 1, 1, .rw1c, 99, 0, false⟩
/-- BLK_NUMSTAT.T5_BADCODE (R116). -/
def F.blkNumstat_t5Badcode : Field := ⟨.blkNumstat, 2, 1, .rw1c, 99, 0, false⟩
/-- BLK_NUMSTAT.QSAT (R116). -/
def F.blkNumstat_qsat : Field := ⟨.blkNumstat, 3, 1, .rw1c, 99, 0, false⟩
/-- BLK_NUMSTAT.QSCALE_CLAMP (R116). -/
def F.blkNumstat_qscaleClamp : Field := ⟨.blkNumstat, 4, 1, .rw1c, 99, 0, false⟩
/-- BLK_NUMSTAT.QSAT_COUNT (R116). -/
def F.blkNumstat_qsatCount : Field := ⟨.blkNumstat, 16, 32, .ro, 0, 0, false⟩
/-- MXC_ROUNDS_CTRL.ENABLE (R139). -/
def F.mxcRoundsCtrl_enable : Field := ⟨.mxcRoundsCtrl, 0, 1, .rwl, 66, 1, true⟩
/-- MXC_ROUNDS_CTRL.PERIOD (R139). -/
def F.mxcRoundsCtrl_period : Field := ⟨.mxcRoundsCtrl, 16, 16, .ro, 0, 256, true⟩
/-- MXC_ROUNDS_CTRL.WINDOW (R139). -/
def F.mxcRoundsCtrl_window : Field := ⟨.mxcRoundsCtrl, 32, 16, .ro, 0, 192, true⟩
/-- MXC_ROUNDS_STAT.OUT_CELL (R140). -/
def F.mxcRoundsStat_outCell : Field := ⟨.mxcRoundsStat, 0, 6, .ro, 0, 32, false⟩
/-- MXC_ROUNDS_STAT.OUT_STATE (R140). -/
def F.mxcRoundsStat_outState : Field := ⟨.mxcRoundsStat, 6, 3, .ro, 0, 1, false⟩
/-- MXC_ROUNDS_STAT.SLICED (R140). -/
def F.mxcRoundsStat_sliced : Field := ⟨.mxcRoundsStat, 9, 1, .ro, 0, 0, true⟩
/-- MXC_ROUNDS_STAT.RETIRED_COUNT (R140). -/
def F.mxcRoundsStat_retiredCount : Field := ⟨.mxcRoundsStat, 10, 2, .ro, 0, 0, true⟩
/-- MXC_ROUNDS_STAT.TEST_FAILS (R140). -/
def F.mxcRoundsStat_testFails : Field := ⟨.mxcRoundsStat, 16, 32, .ro, 0, 0, true⟩
/-- MXC_SLOT_MAPm.CELL_0 (R141). -/
def F.mxcSlotMap_cell0 : Field := ⟨.mxcSlotMap, 0, 6, .ro, 0, 0, false⟩
/-- MXC_SLOT_MAPm.CELL_1 (R141). -/
def F.mxcSlotMap_cell1 : Field := ⟨.mxcSlotMap, 6, 6, .ro, 0, 0, false⟩
/-- MXC_SLOT_MAPm.CELL_2 (R141). -/
def F.mxcSlotMap_cell2 : Field := ⟨.mxcSlotMap, 12, 6, .ro, 0, 0, false⟩
/-- MXC_SLOT_MAPm.CELL_3 (R141). -/
def F.mxcSlotMap_cell3 : Field := ⟨.mxcSlotMap, 18, 6, .ro, 0, 0, false⟩
/-- MXC_SLOT_MAPm.CELL_4 (R141). -/
def F.mxcSlotMap_cell4 : Field := ⟨.mxcSlotMap, 24, 6, .ro, 0, 0, false⟩
/-- MXC_SLOT_MAPm.CELL_5 (R141). -/
def F.mxcSlotMap_cell5 : Field := ⟨.mxcSlotMap, 30, 6, .ro, 0, 0, false⟩
/-- MXC_SLOT_MAPm.CELL_6 (R141). -/
def F.mxcSlotMap_cell6 : Field := ⟨.mxcSlotMap, 36, 6, .ro, 0, 0, false⟩
/-- MXC_SLOT_MAPm.CELL_7 (R141). -/
def F.mxcSlotMap_cell7 : Field := ⟨.mxcSlotMap, 42, 6, .ro, 0, 0, false⟩
/-- MXC_RETIRED.MASK (R142). -/
def F.mxcRetired_mask : Field := ⟨.mxcRetired, 0, 33, .ro, 0, 0, true⟩
/-- MXC_RESIDUE.MISMATCHES (R143). -/
def F.mxcResidue_mismatches : Field := ⟨.mxcResidue, 0, 32, .rw1c, 66, 0, true⟩
/-- MXC_RESIDUE.LAST_CELL (R143). -/
def F.mxcResidue_lastCell : Field := ⟨.mxcResidue, 32, 6, .ro, 0, 63, true⟩
/-- MXC_RESIDUE.LAST_MASKED (R143). -/
def F.mxcResidue_lastMasked : Field := ⟨.mxcResidue, 38, 1, .ro, 0, 0, true⟩
/-- MXC_RESIDUE.RECOMPUTE_FAILS (R143). -/
def F.mxcResidue_recomputeFails : Field := ⟨.mxcResidue, 48, 16, .ro, 0, 0, true⟩
/-- MXC_CLASSIFY.MISMATCH_LIMIT (R144). -/
def F.mxcClassify_mismatchLimit : Field := ⟨.mxcClassify, 0, 4, .rwl, 66, 2, true⟩
/-- MXC_CLASSIFY.WINDOW (R144). -/
def F.mxcClassify_window : Field := ⟨.mxcClassify, 4, 16, .rwl, 66, 10, true⟩
/-- MXC_CB_STAT.LOADED (R145). -/
def F.mxcCbStat_loaded : Field := ⟨.mxcCbStat, 0, 8, .ro, 0, 0, false⟩
/-- VXC_CTRL.ROUNDS_ENABLE (R172). -/
def F.vxcCtrl_roundsEnable : Field := ⟨.vxcCtrl, 0, 1, .rwl, 66, 1, true⟩
/-- VXC_CTRL.CHECK_SKEW (R172). -/
def F.vxcCtrl_checkSkew : Field := ⟨.vxcCtrl, 16, 16, .rwl, 66, 4096, true⟩
/-- VXC_STAT.BUSY (R173). -/
def F.vxcStat_busy : Field := ⟨.vxcStat, 0, 14, .ro, 0, 0, false⟩
/-- VXC_STAT.SX_BUSY (R173). -/
def F.vxcStat_sxBusy : Field := ⟨.vxcStat, 14, 1, .ro, 0, 0, false⟩
/-- VXC_STAT.RETIRED (R173). -/
def F.vxcStat_retired : Field := ⟨.vxcStat, 16, 14, .ro, 0, 0, true⟩
/-- VXC_STAT.TEST_CELL (R173). -/
def F.vxcStat_testCell : Field := ⟨.vxcStat, 32, 4, .ro, 0, 15, false⟩
/-- VXC_STAT.FREE_GRANULES (R173). -/
def F.vxcStat_freeGranules : Field := ⟨.vxcStat, 36, 12, .ro, 0, 3584, false⟩
/-- VXC_STAT.TEST_FAILS (R173). -/
def F.vxcStat_testFails : Field := ⟨.vxcStat, 48, 16, .ro, 0, 0, true⟩
/-- VXC_FAULT.VALID (R174). -/
def F.vxcFault_valid : Field := ⟨.vxcFault, 0, 1, .rw1c, 99, 0, true⟩
/-- VXC_FAULT.CELL (R174). -/
def F.vxcFault_cell : Field := ⟨.vxcFault, 1, 4, .ro, 0, 0, true⟩
/-- VXC_FAULT.THREAD (R174). -/
def F.vxcFault_thread : Field := ⟨.vxcFault, 5, 8, .ro, 0, 0, true⟩
/-- VXC_FAULT.CAUSE (R174). -/
def F.vxcFault_cause : Field := ⟨.vxcFault, 13, 4, .ro, 0, 0, true⟩
/-- VXC_FAULT.STATUS (R174). -/
def F.vxcFault_status : Field := ⟨.vxcFault, 17, 4, .ro, 0, 0, true⟩
/-- VXC_FAULT.JOB_TAG (R174). -/
def F.vxcFault_jobTag : Field := ⟨.vxcFault, 21, 6, .ro, 0, 0, true⟩
/-- VXC_FAULT.PC (R174). -/
def F.vxcFault_pc : Field := ⟨.vxcFault, 27, 16, .ro, 0, 0, true⟩
/-- VXC_CHECK.MISMATCHES (R175). -/
def F.vxcCheck_mismatches : Field := ⟨.vxcCheck, 0, 32, .rw1c, 66, 0, true⟩
/-- VXC_CHECK.LAST_PAIR (R175). -/
def F.vxcCheck_lastPair : Field := ⟨.vxcCheck, 32, 3, .ro, 0, 7, true⟩
/-- VXC_CHECK.LAST_SKEW (R175). -/
def F.vxcCheck_lastSkew : Field := ⟨.vxcCheck, 35, 1, .ro, 0, 0, true⟩
/-- BLK_PEN_CFG.POOL_UNITS (R213). -/
def F.blkPenCfg_poolUnits : Field := ⟨.blkPenCfg, 0, 9, .rw, 67, 0, true⟩
/-- BLK_PEN_CFG.WAIT_NS (R213). -/
def F.blkPenCfg_waitNs : Field := ⟨.blkPenCfg, 16, 16, .rw, 67, 2000, true⟩
/-- BLK_PEN_CFG.REQ_CAP (R213). -/
def F.blkPenCfg_reqCap : Field := ⟨.blkPenCfg, 32, 9, .rw, 67, 96, true⟩
/-- BLK_PEN_STAT.GRANTED_UNITS (R214). -/
def F.blkPenStat_grantedUnits : Field := ⟨.blkPenStat, 0, 9, .ro, 0, 0, false⟩
/-- BLK_PEN_STAT.PENDING (R214). -/
def F.blkPenStat_pending : Field := ⟨.blkPenStat, 16, 8, .ro, 0, 0, false⟩
/-- BLK_PEN_STAT.HELD (R214). -/
def F.blkPenStat_held : Field := ⟨.blkPenStat, 24, 7, .ro, 0, 0, false⟩
/-- BLK_PEN_STAT.DRAINING (R214). -/
def F.blkPenStat_draining : Field := ⟨.blkPenStat, 31, 1, .ro, 0, 0, false⟩
/-- BLK_PEN_COUNT.LATE (R215). -/
def F.blkPenCount_late : Field := ⟨.blkPenCount, 0, 16, .ro, 0, 0, true⟩
/-- BLK_PEN_COUNT.EXPIRED (R215). -/
def F.blkPenCount_expired : Field := ⟨.blkPenCount, 16, 12, .ro, 0, 0, true⟩
/-- BLK_PEN_COUNT.TABLE_FULL (R215). -/
def F.blkPenCount_tableFull : Field := ⟨.blkPenCount, 28, 8, .ro, 0, 0, true⟩
/-- BLK_PEN_COUNT.REVOKED (R215). -/
def F.blkPenCount_revoked : Field := ⟨.blkPenCount, 36, 8, .ro, 0, 0, true⟩
/-- BLK_PEN_COUNT.REVOKED_RELEASES (R215). -/
def F.blkPenCount_revokedReleases : Field := ⟨.blkPenCount, 44, 4, .ro, 0, 0, true⟩
/-- BLK_PEN_COUNT.HOLDER_WAITS (R215). -/
def F.blkPenCount_holderWaits : Field := ⟨.blkPenCount, 48, 12, .ro, 0, 0, true⟩
/-- BLK_PEN_COUNT.CLEAR (R215). -/
def F.blkPenCount_clear : Field := ⟨.blkPenCount, 63, 1, .wo, 67, 0, false⟩
/-- BLK_SRAM_ERR.CE_COUNT (R216). -/
def F.blkSramErr_ceCount : Field := ⟨.blkSramErr, 0, 16, .rw1c, 66, 0, true⟩
/-- BLK_SRAM_ERR.DE_COUNT (R216). -/
def F.blkSramErr_deCount : Field := ⟨.blkSramErr, 16, 12, .rw1c, 66, 0, true⟩
/-- BLK_SRAM_ERR.LAST_STORE (R216). -/
def F.blkSramErr_lastStore : Field := ⟨.blkSramErr, 28, 2, .ro, 0, 3, true⟩
/-- BLK_SRAM_ERR.LAST_BANK (R216). -/
def F.blkSramErr_lastBank : Field := ⟨.blkSramErr, 30, 6, .ro, 0, 0, true⟩
/-- BLK_SRAM_ERR.LAST_ROW (R216). -/
def F.blkSramErr_lastRow : Field := ⟨.blkSramErr, 36, 11, .ro, 0, 0, true⟩
/-- BLK_SRAM_ERR.SPARES_USED (R216). -/
def F.blkSramErr_sparesUsed : Field := ⟨.blkSramErr, 47, 8, .ro, 0, 0, true⟩
/-- BLK_SRAM_ERR.SPARE_EXHAUSTED (R216). -/
def F.blkSramErr_spareExhausted : Field := ⟨.blkSramErr, 55, 1, .ro, 0, 0, true⟩
/-- BLK_SRAM_ERR.SCRUB_PASSES (R216). -/
def F.blkSramErr_scrubPasses : Field := ⟨.blkSramErr, 56, 8, .ro, 0, 0, false⟩
/-- DRV_CFG.STALL_LIMIT (R272). -/
def F.drvCfg_stallLimit : Field := ⟨.drvCfg, 0, 16, .rw, 67, 1000, true⟩
/-- DRV_STAT.CUR_SEQ (R273). -/
def F.drvStat_curSeq : Field := ⟨.drvStat, 0, 16, .ro, 0, 0, false⟩
/-- DRV_STAT.ACTIVE (R273). -/
def F.drvStat_active : Field := ⟨.drvStat, 16, 1, .ro, 0, 0, false⟩
/-- DRV_STAT.PROVISIONAL (R273). -/
def F.drvStat_provisional : Field := ⟨.drvStat, 17, 1, .ro, 0, 0, false⟩
/-- DRV_STAT.FEED (R273). -/
def F.drvStat_feed : Field := ⟨.drvStat, 18, 2, .ro, 0, 0, true⟩
/-- DRV_STAT.CANCELLED_KIB (R273). -/
def F.drvStat_cancelledKib : Field := ⟨.drvStat, 32, 32, .ro, 0, 0, true⟩
/-- DRV_PACE.SLOW_NODE (R274). -/
def F.drvPace_slowNode : Field := ⟨.drvPace, 0, 8, .ro, 0, 255, false⟩
/-- DRV_PACE.BUF_WAITS (R274). -/
def F.drvPace_bufWaits : Field := ⟨.drvPace, 8, 32, .ro, 0, 0, true⟩
/-- RTR_FOLD.ACTIVE (R275). -/
def F.rtrFold_active : Field := ⟨.rtrFold, 0, 5, .ro, 0, 0, true⟩
/-- RTR_FOLD.FP_OVF (R275). -/
def F.rtrFold_fpOvf : Field := ⟨.rtrFold, 5, 1, .rw1c, 66, 0, true⟩
/-- RTR_FOLD.INT_SAT (R275). -/
def F.rtrFold_intSat : Field := ⟨.rtrFold, 6, 1, .rw1c, 66, 0, true⟩
/-- RTR_FOLD.MISMATCH (R275). -/
def F.rtrFold_mismatch : Field := ⟨.rtrFold, 7, 1, .rw1c, 66, 0, true⟩
/-- RTR_FOLD.POISON_FWD (R275). -/
def F.rtrFold_poisonFwd : Field := ⟨.rtrFold, 8, 32, .ro, 0, 0, true⟩
/-- GTU_STAT.SEL_TOKENS (R305). -/
def F.gtuStat_selTokens : Field := ⟨.gtuStat, 0, 13, .ro, 0, 0, false⟩
/-- GTU_STAT.SEL_K (R305). -/
def F.gtuStat_selK : Field := ⟨.gtuStat, 13, 4, .ro, 0, 0, false⟩
/-- GTU_STAT.SEL_EXPERTS (R305). -/
def F.gtuStat_selExperts : Field := ⟨.gtuStat, 17, 11, .ro, 0, 0, false⟩
/-- GTU_STAT.LISTS_HELD (R305). -/
def F.gtuStat_listsHeld : Field := ⟨.gtuStat, 28, 1, .ro, 0, 0, false⟩
/-- GTU_STAT.DROPPED_TOKENS (R305). -/
def F.gtuStat_droppedTokens : Field := ⟨.gtuStat, 32, 16, .ro, 0, 0, false⟩
/-- GTU_STAT.COUNT_ERRORS (R305). -/
def F.gtuStat_countErrors : Field := ⟨.gtuStat, 48, 16, .rw1c, 66, 0, true⟩
/-- DRV_EXP_CFG.RUNAHEAD (R306). -/
def F.drvExpCfg_runahead : Field := ⟨.drvExpCfg, 0, 4, .rw, 67, 4, true⟩
/-- DRV_TALLY.TABLES_USED (R307). -/
def F.drvTally_tablesUsed : Field := ⟨.drvTally, 0, 3, .ro, 0, 0, false⟩
/-- DRV_TALLY.REFUSED (R307). -/
def F.drvTally_refused : Field := ⟨.drvTally, 16, 16, .ro, 0, 0, true⟩
/-- DRV_SCHED entry.SEQ (R308). -/
def F.drvSched_seq : Field := ⟨.drvSched, 0, 16, .ro, 0, 0, false⟩
/-- DRV_SCHED entry.EXPERT (R308). -/
def F.drvSched_expert : Field := ⟨.drvSched, 16, 10, .ro, 0, 1023, false⟩
/-- DRV_SCHED entry.STATE (R308). -/
def F.drvSched_state : Field := ⟨.drvSched, 26, 3, .ro, 0, 0, false⟩
/-- DRV_SCHED entry.COUNT (R308). -/
def F.drvSched_count : Field := ⟨.drvSched, 32, 32, .ro, 0, 0, false⟩
/-- HUB_MEMCFG.PLACEMENT (R326). -/
def F.hubMemcfg_placement : Field := ⟨.hubMemcfg, 0, 1, .rw, 7, 0, true⟩
/-- HUB_MEMCFG.SCRUB_HOURS (R326). -/
def F.hubMemcfg_scrubHours : Field := ⟨.hubMemcfg, 8, 8, .rw, 7, 24, true⟩
/-- HBM_STAT.STATE (R327). -/
def F.hbmStat_state : Field := ⟨.hbmStat, 0, 3, .ro, 0, 0, true⟩
/-- HBM_STAT.RATE_6G4 (R327). -/
def F.hbmStat_rate6g4 : Field := ⟨.hbmStat, 3, 1, .ro, 0, 0, true⟩
/-- HBM_STAT.MIRROR (R327). -/
def F.hbmStat_mirror : Field := ⟨.hbmStat, 4, 2, .ro, 0, 0, true⟩
/-- HBM_STAT.PARTNER (R327). -/
def F.hbmStat_partner : Field := ⟨.hbmStat, 8, 5, .ro, 0, 0, true⟩
/-- HBM_STAT.TEMP (R327). -/
def F.hbmStat_temp : Field := ⟨.hbmStat, 16, 8, .ro, 0, 0, true⟩
/-- HBM_STAT.THERM (R327). -/
def F.hbmStat_therm : Field := ⟨.hbmStat, 24, 2, .ro, 0, 0, true⟩
/-- HBM_ERR.CE_COUNT (R328). -/
def F.hbmErr_ceCount : Field := ⟨.hbmErr, 0, 16, .rw1c, 66, 0, true⟩
/-- HBM_ERR.DE_COUNT (R328). -/
def F.hbmErr_deCount : Field := ⟨.hbmErr, 16, 16, .rw1c, 66, 0, true⟩
/-- HBM_ERR.LAST_SECTOR (R328). -/
def F.hbmErr_lastSector : Field := ⟨.hbmErr, 32, 30, .ro, 0, 0, true⟩
/-- HBM_ERR.LAST_KIND (R328). -/
def F.hbmErr_lastKind : Field := ⟨.hbmErr, 62, 2, .ro, 0, 0, true⟩
/-- HBM_SCRUB.PROGRESS (R329). -/
def F.hbmScrub_progress : Field := ⟨.hbmScrub, 0, 30, .ro, 0, 0, true⟩
/-- HBM_SCRUB.FORCED (R329). -/
def F.hbmScrub_forced : Field := ⟨.hbmScrub, 30, 1, .ro, 0, 0, true⟩
/-- HBM_SCRUB.PASSES (R329). -/
def F.hbmScrub_passes : Field := ⟨.hbmScrub, 32, 16, .ro, 0, 0, true⟩
/-- HBM_SCRUB.ODECC_COUNT (R329). -/
def F.hbmScrub_odeccCount : Field := ⟨.hbmScrub, 48, 16, .ro, 0, 0, true⟩
/-- LNK_CTRLb.ENABLE (R360). -/
def F.lnkCtrl_enable : Field := ⟨.lnkCtrl, 0, 1, .rw, 71, 1, true⟩
/-- LNK_CTRLb.MODE (R360). -/
def F.lnkCtrl_mode : Field := ⟨.lnkCtrl, 1, 1, .rw, 71, 0, true⟩
/-- LNK_CTRLb.LINGER_MS (R360). -/
def F.lnkCtrl_lingerMs : Field := ⟨.lnkCtrl, 2, 6, .rw, 71, 2, true⟩
/-- LNK_CTRLb.WAKE_LIMIT (R360). -/
def F.lnkCtrl_wakeLimit : Field := ⟨.lnkCtrl, 8, 8, .rw, 71, 10, true⟩
/-- LNK_CTRLb.ACK_TIMEOUT (R360). -/
def F.lnkCtrl_ackTimeout : Field := ⟨.lnkCtrl, 16, 8, .rw, 71, 2, true⟩
/-- LNK_CTRLb.REENABLE (R360). -/
def F.lnkCtrl_reenable : Field := ⟨.lnkCtrl, 24, 1, .wo, 71, 0, false⟩
/-- LNK_CTRLb.FULL_TRAIN (R360). -/
def F.lnkCtrl_fullTrain : Field := ⟨.lnkCtrl, 25, 1, .wo, 66, 0, false⟩
/-- LNK_STATb.STATE (R361). -/
def F.lnkStat_state : Field := ⟨.lnkStat, 0, 3, .ro, 0, 1, true⟩
/-- LNK_STATb.HALF (R361). -/
def F.lnkStat_half : Field := ⟨.lnkStat, 3, 1, .ro, 0, 0, true⟩
/-- LNK_STATb.LANES_RETIRED (R361). -/
def F.lnkStat_lanesRetired : Field := ⟨.lnkStat, 4, 8, .ro, 0, 0, true⟩
/-- LNK_STATb.PEER_ID (R361). -/
def F.lnkStat_peerId : Field := ⟨.lnkStat, 12, 12, .ro, 0, 4095, true⟩
/-- LNK_STATb.FLAPS (R361). -/
def F.lnkStat_flaps : Field := ⟨.lnkStat, 24, 3, .ro, 0, 0, true⟩
/-- LNK_STATb.SESSION (R361). -/
def F.lnkStat_session : Field := ⟨.lnkStat, 32, 16, .ro, 0, 0, true⟩
/-- LNK_STATb.RESENDS (R361). -/
def F.lnkStat_resends : Field := ⟨.lnkStat, 48, 16, .ro, 0, 0, true⟩
/-- LNK_PEERb.INCARNATION (R362). -/
def F.lnkPeer_incarnation : Field := ⟨.lnkPeer, 0, 64, .ro, 0, 0, true⟩
/-- LNK_ETHb.NEXT_HOP_MAC (R363). -/
def F.lnkEth_nextHopMac : Field := ⟨.lnkEth, 0, 48, .rw, 71, 0, true⟩
/-- LNK_ETHb.VLAN_ID (R363). -/
def F.lnkEth_vlanId : Field := ⟨.lnkEth, 48, 12, .rw, 71, 0, true⟩
/-- LNK_ETHb.VLAN_EN (R363). -/
def F.lnkEth_vlanEn : Field := ⟨.lnkEth, 60, 1, .rw, 71, 0, true⟩
/-- LNK_ETHb.PCP (R363). -/
def F.lnkEth_pcp : Field := ⟨.lnkEth, 61, 3, .rw, 71, 0, true⟩
/-- peer-table entry, word 0.PRIMARY (R365). -/
def F.lnkTable0_primary : Field := ⟨.lnkTable0, 0, 5, .rw, 66, 0, true⟩
/-- peer-table entry, word 0.ALT (R365). -/
def F.lnkTable0_alt : Field := ⟨.lnkTable0, 5, 5, .rw, 66, 0, true⟩
/-- peer-table entry, word 0.VALID (R365). -/
def F.lnkTable0_valid : Field := ⟨.lnkTable0, 10, 1, .rw, 66, 0, true⟩
/-- peer-table entry, word 0.ETH (R365). -/
def F.lnkTable0_eth : Field := ⟨.lnkTable0, 11, 1, .rw, 66, 0, true⟩
/-- peer-table entry, word 0.REDIRECT (R365). -/
def F.lnkTable0_redirect : Field := ⟨.lnkTable0, 12, 5, .rw, 66, 0, true⟩
/-- peer-table entry, word 0.REDIRECT_EN (R365). -/
def F.lnkTable0_redirectEn : Field := ⟨.lnkTable0, 17, 1, .rw, 66, 0, true⟩
/-- peer-table entry, word 0.UDP_PORT (R365). -/
def F.lnkTable0_udpPort : Field := ⟨.lnkTable0, 32, 16, .rw, 66, 0, true⟩
/-- peer-table entry, word 2.IPV6_LO (R365). -/
def F.lnkTable2_ipv6Lo : Field := ⟨.lnkTable2, 0, 64, .rw, 66, 0, true⟩
/-- peer-table entry, word 3.IPV6_HI (R365). -/
def F.lnkTable3_ipv6Hi : Field := ⟨.lnkTable3, 0, 64, .rw, 66, 0, true⟩
/-- HUB_APERTUREi.BASE (R366). -/
def F.hubAperture_base : Field := ⟨.hubAperture, 0, 18, .rw, 7, 0, true⟩
/-- HUB_APERTUREi.READ (R366). -/
def F.hubAperture_read : Field := ⟨.hubAperture, 18, 1, .rw, 7, 0, true⟩
/-- HUB_APERTUREi.WRITE (R366). -/
def F.hubAperture_write : Field := ⟨.hubAperture, 19, 1, .rw, 7, 0, true⟩
/-- HUB_APERTUREi.ATOMIC (R366). -/
def F.hubAperture_atomic : Field := ⟨.hubAperture, 20, 1, .rw, 7, 0, true⟩
/-- HUB_APERTUREi.JOB_TAG (R366). -/
def F.hubAperture_jobTag : Field := ⟨.hubAperture, 21, 6, .rw, 7, 0, true⟩
/-- HUB_APERTUREi.VALID (R366). -/
def F.hubAperture_valid : Field := ⟨.hubAperture, 27, 1, .rw, 7, 0, true⟩
/-- HUB_PANEL.PANEL_ID (R367). -/
def F.hubPanel_panelId : Field := ⟨.hubPanel, 0, 12, .rwl, 7, 4095, true⟩
/-- HUB_PANEL.TIME_SOURCE (R367). -/
def F.hubPanel_timeSource : Field := ⟨.hubPanel, 12, 1, .rw, 7, 0, true⟩
/-- HUB_INCARNATION.INCARNATION (R367). -/
def F.hubIncarnation_incarnation : Field := ⟨.hubIncarnation, 0, 64, .ro, 0, 0, true⟩
/-- RTR_PEER_TO.PEER_TIMEOUT (R368). -/
def F.rtrPeerTo_peerTimeout : Field := ⟨.rtrPeerTo, 0, 16, .rwl, 66, 2000, true⟩
/-- HUB_CASCADE, word 0.MEMBERS (R369). -/
def F.hubCascade_members : Field := ⟨.hubCascade, 0, 48, .rw, 3, 0, true⟩
/-- HUB_CASCADE, word 0.COUNT (R369). -/
def F.hubCascade_count : Field := ⟨.hubCascade, 48, 13, .rw, 3, 0, true⟩
/-- HUB_CASCADE, word 1.BELLWETHER (R369). -/
def F.hubCascadeB_bellwether : Field := ⟨.hubCascadeB, 0, 12, .rw, 3, 4095, true⟩
/-- HUB_CASCADE, word 1.VALID (R369). -/
def F.hubCascadeB_valid : Field := ⟨.hubCascadeB, 12, 1, .rw, 3, 0, true⟩
/-- HUB_SQCFGn.BASE (R384). -/
def F.hubSqcfg_base : Field := ⟨.hubSqcfg, 0, 48, .rw, 3, 0, true⟩
/-- HUB_SQCFGn.LOG2 (R384). -/
def F.hubSqcfg_log2 : Field := ⟨.hubSqcfg, 48, 4, .rw, 3, 4, true⟩
/-- HUB_SQCFGn.CQ (R384). -/
def F.hubSqcfg_cq : Field := ⟨.hubSqcfg, 52, 4, .rw, 3, 0, true⟩
/-- HUB_SQCFGn.ENABLE (R384). -/
def F.hubSqcfg_enable : Field := ⟨.hubSqcfg, 56, 1, .rw, 3, 0, true⟩
/-- HUB_SQTAGn.TAG_MASK (R384). -/
def F.hubSqtag_tagMask : Field := ⟨.hubSqtag, 0, 64, .rw, 3, 0, true⟩
/-- HUB_SQSTATn.HEAD (R384). -/
def F.hubSqstat_head : Field := ⟨.hubSqstat, 0, 12, .ro, 0, 0, true⟩
/-- HUB_SQSTATn.TAIL (R384). -/
def F.hubSqstat_tail : Field := ⟨.hubSqstat, 16, 12, .ro, 0, 0, true⟩
/-- HUB_SQSTATn.OVERRUN (R384). -/
def F.hubSqstat_overrun : Field := ⟨.hubSqstat, 32, 1, .rw1c, 3, 0, true⟩
/-- HUB_SQSTATn.STALLED_CQ (R384). -/
def F.hubSqstat_stalledCq : Field := ⟨.hubSqstat, 33, 16, .ro, 0, 0, true⟩
/-- HUB_CQCFGn.BASE (R384). -/
def F.hubCqcfg_base : Field := ⟨.hubCqcfg, 0, 48, .rw, 3, 0, true⟩
/-- HUB_CQCFGn.LOG2 (R384). -/
def F.hubCqcfg_log2 : Field := ⟨.hubCqcfg, 48, 4, .rw, 3, 4, true⟩
/-- HUB_CQCFGn.VECTOR (R384). -/
def F.hubCqcfg_vector : Field := ⟨.hubCqcfg, 52, 6, .rw, 3, 0, true⟩
/-- HUB_CQCFGn.ENABLE (R384). -/
def F.hubCqcfg_enable : Field := ⟨.hubCqcfg, 58, 1, .rw, 3, 0, true⟩
/-- HUB_CQSTATn.HEAD (R384). -/
def F.hubCqstat_head : Field := ⟨.hubCqstat, 0, 12, .ro, 0, 0, true⟩
/-- HUB_CQSTATn.TAIL (R384). -/
def F.hubCqstat_tail : Field := ⟨.hubCqstat, 16, 12, .ro, 0, 0, true⟩
/-- HUB_CQSTATn.PHASE (R384). -/
def F.hubCqstat_phase : Field := ⟨.hubCqstat, 32, 1, .ro, 0, 1, true⟩
/-- HUB_CQSTATn.FULL (R384). -/
def F.hubCqstat_full : Field := ⟨.hubCqstat, 33, 1, .ro, 0, 0, true⟩
/-- HUB_CQSTATn.OVERRUN (R384). -/
def F.hubCqstat_overrun : Field := ⟨.hubCqstat, 34, 1, .rw1c, 3, 0, true⟩
/-- HUB_FWINi.VALID (R390). -/
def F.hubFwin_valid : Field := ⟨.hubFwin, 0, 1, .rw, 66, 0, true⟩
/-- HUB_FWINi.READ (R390). -/
def F.hubFwin_read : Field := ⟨.hubFwin, 1, 1, .rw, 66, 0, true⟩
/-- HUB_FWINi.WRITE (R390). -/
def F.hubFwin_write : Field := ⟨.hubFwin, 2, 1, .rw, 66, 0, true⟩
/-- HUB_FWINi.ATOMIC (R390). -/
def F.hubFwin_atomic : Field := ⟨.hubFwin, 3, 1, .rw, 66, 0, true⟩
/-- HUB_FWINi.PEN (R390). -/
def F.hubFwin_pen : Field := ⟨.hubFwin, 4, 1, .rw, 66, 0, true⟩
/-- HUB_FWINi.JOB_TAG (R390). -/
def F.hubFwin_jobTag : Field := ⟨.hubFwin, 5, 6, .rw, 66, 0, true⟩
/-- HUB_FWINi.BASE (R390). -/
def F.hubFwin_base : Field := ⟨.hubFwin, 12, 36, .rw, 66, 0, true⟩
/-- HUB_FLIMi.LIMIT (R390). -/
def F.hubFlim_limit : Field := ⟨.hubFlim, 12, 36, .rw, 66, 0, true⟩
/-- HUB_FCFG.CLASS_MASK (R390). -/
def F.hubFcfg_classMask : Field := ⟨.hubFcfg, 0, 6, .rw, 66, 0, true⟩
/-- HUB_FCFG.RATE (R390). -/
def F.hubFcfg_rate : Field := ⟨.hubFcfg, 6, 8, .rw, 66, 128, true⟩
/-- HUB_FCFG.BURST (R390). -/
def F.hubFcfg_burst : Field := ⟨.hubFcfg, 14, 8, .rw, 66, 16, true⟩
/-- HUB_FCFG.PEN_MAX (R390). -/
def F.hubFcfg_penMax : Field := ⟨.hubFcfg, 22, 6, .rw, 66, 32, true⟩
/-- HUB_FSTAT.DENIED (R390). -/
def F.hubFstat_denied : Field := ⟨.hubFstat, 0, 24, .rw1c, 66, 0, true⟩
/-- HUB_FSTAT.LAST_CHECK (R390). -/
def F.hubFstat_lastCheck : Field := ⟨.hubFstat, 24, 2, .ro, 0, 0, true⟩
/-- HUB_FSTAT.RATE_STALLS (R390). -/
def F.hubFstat_rateStalls : Field := ⟨.hubFstat, 26, 22, .ro, 0, 0, true⟩
/-- UNIT_ID.TYPE (R396). -/
def F.unitId_type : Field := ⟨.unitId, 0, 8, .ro, 0, 0, true⟩
/-- UNIT_ID.NODE (R396). -/
def F.unitId_node : Field := ⟨.unitId, 8, 8, .ro, 0, 0, true⟩
/-- UNIT_ID.PAGE (R396). -/
def F.unitId_page : Field := ⟨.unitId, 16, 6, .ro, 0, 0, true⟩
/-- UNIT_ID.INSTANCE (R396). -/
def F.unitId_instance : Field := ⟨.unitId, 24, 8, .ro, 0, 0, true⟩
/-- UNIT_ID.MINOR (R396). -/
def F.unitId_minor : Field := ⟨.unitId, 32, 4, .ro, 0, 0, true⟩
/-- UNIT_ID.MAJOR (R396). -/
def F.unitId_major : Field := ⟨.unitId, 36, 4, .ro, 0, 1, true⟩
/-- UNIT_CAP.DUTY_FUNCS (R397). -/
def F.unitCap_dutyFuncs : Field := ⟨.unitCap, 0, 12, .ro, 0, 0, true⟩
/-- UNIT_CAP.INJECT (R397). -/
def F.unitCap_inject : Field := ⟨.unitCap, 12, 1, .ro, 0, 0, true⟩
/-- UNIT_CAP.TALLY (R397). -/
def F.unitCap_tally : Field := ⟨.unitCap, 13, 1, .ro, 0, 0, true⟩
/-- UNIT_CAP.RING (R397). -/
def F.unitCap_ring : Field := ⟨.unitCap, 14, 1, .ro, 0, 0, true⟩
/-- UNIT_CAP.RESET (R397). -/
def F.unitCap_reset : Field := ⟨.unitCap, 15, 1, .ro, 0, 0, true⟩
/-- UNIT_CAP.ERR_BITS (R397). -/
def F.unitCap_errBits : Field := ⟨.unitCap, 16, 6, .ro, 0, 0, true⟩
/-- UNIT_CTRL.ENABLE (R398). -/
def F.unitCtrl_enable : Field := ⟨.unitCtrl, 0, 1, .rw, 66, 1, true⟩
/-- UNIT_CTRL.RESET_REQ (R398). -/
def F.unitCtrl_resetReq : Field := ⟨.unitCtrl, 1, 1, .wo, 71, 0, false⟩
/-- UNIT_CTRL.QUIESCE (R398). -/
def F.unitCtrl_quiesce : Field := ⟨.unitCtrl, 2, 1, .rw, 71, 0, false⟩
/-- UNIT_STAT.STATE (R399). -/
def F.unitStat_state : Field := ⟨.unitStat, 0, 3, .ro, 0, 0, false⟩
/-- UNIT_STAT.ERR_PENDING (R399). -/
def F.unitStat_errPending : Field := ⟨.unitStat, 3, 1, .ro, 0, 0, false⟩
/-- UNIT_STAT.LOCKED (R399). -/
def F.unitStat_locked : Field := ⟨.unitStat, 4, 1, .ro, 0, 0, true⟩
/-- ERR_STAT.ERR (R401). -/
def F.errStat_err : Field := ⟨.errStat, 0, 32, .rw1c, 71, 0, true⟩
/-- ERR_STAT.SUPPRESSED (R401). -/
def F.errStat_suppressed : Field := ⟨.errStat, 32, 16, .rw1c, 71, 0, true⟩
/-- ERR_STAT.ACCESS (R401). -/
def F.errStat_access : Field := ⟨.errStat, 48, 1, .rw1c, 71, 0, true⟩
/-- ERR_MASK.MASK (R402). -/
def F.errMask_mask : Field := ⟨.errMask, 0, 32, .rwl, 71, 0, true⟩
/-- ERR_FIRST.BIT (R403). -/
def F.errFirst_bit : Field := ⟨.errFirst, 0, 5, .ro, 0, 0, true⟩
/-- ERR_FIRST.VALID (R403). -/
def F.errFirst_valid : Field := ⟨.errFirst, 5, 1, .rw1c, 71, 0, true⟩
/-- ERR_FIRST.SEVERITY (R403). -/
def F.errFirst_severity : Field := ⟨.errFirst, 6, 2, .ro, 0, 0, true⟩
/-- ERR_FIRST.TIME (R403). -/
def F.errFirst_time : Field := ⟨.errFirst, 8, 56, .ro, 0, 0, true⟩
/-- ERR_INJECT.BIT (R404). -/
def F.errInject_bit : Field := ⟨.errInject, 0, 5, .rw, 64, 0, true⟩
/-- ERR_INJECT.GO (R404). -/
def F.errInject_go : Field := ⟨.errInject, 5, 1, .wo, 64, 0, false⟩
/-- DUTY_MODE.HOST (R405). -/
def F.dutyMode_host : Field := ⟨.dutyMode, 0, 12, .rwl, 71, 0, true⟩
/-- DUTY_MODE.REVERTED (R405). -/
def F.dutyMode_reverted : Field := ⟨.dutyMode, 16, 12, .rw1c, 71, 0, true⟩
/-- LOG_CTRL.LEVEL (R406). -/
def F.logCtrl_level : Field := ⟨.logCtrl, 0, 2, .rwl, 71, 0, true⟩
/-- LOG_CTRL.CE_LIMIT (R406). -/
def F.logCtrl_ceLimit : Field := ⟨.logCtrl, 16, 16, .rwl, 71, 64, true⟩
/-- LOCK.LOCKED (R408). -/
def F.lock_locked : Field := ⟨.lock, 0, 1, .rw, 70, 0, true⟩
/-- ACCESS_ERR.ADDR (R409). -/
def F.accessErr_addr : Field := ⟨.accessErr, 0, 48, .ro, 0, 0, true⟩
/-- ACCESS_ERR.ORIGIN (R409). -/
def F.accessErr_origin : Field := ⟨.accessErr, 48, 3, .ro, 0, 0, true⟩
/-- ACCESS_ERR.KIND (R409). -/
def F.accessErr_kind : Field := ⟨.accessErr, 51, 4, .ro, 0, 0, true⟩
/-- ACCESS_ERR.COUNT (R409). -/
def F.accessErr_count : Field := ⟨.accessErr, 56, 7, .ro, 0, 0, true⟩
/-- ACCESS_ERR.VALID (R409). -/
def F.accessErr_valid : Field := ⟨.accessErr, 63, 1, .rw1c, 71, 0, true⟩
/-- HUB_ASSIST_CFG.BASE (R420). -/
def F.hubAssistCfg_base : Field := ⟨.hubAssistCfg, 0, 48, .rw, 3, 0, true⟩
/-- HUB_ASSIST_CFG.LOG2 (R420). -/
def F.hubAssistCfg_log2 : Field := ⟨.hubAssistCfg, 48, 4, .rw, 3, 4, true⟩
/-- HUB_ASSIST_CFG.CQ (R420). -/
def F.hubAssistCfg_cq : Field := ⟨.hubAssistCfg, 52, 4, .rw, 3, 0, true⟩
/-- HUB_ASSIST_CFG.ENABLE (R420). -/
def F.hubAssistCfg_enable : Field := ⟨.hubAssistCfg, 56, 1, .rw, 3, 0, true⟩
/-- HUB_ASSIST_STAT.NEXT_ID (R420). -/
def F.hubAssistStat_nextId : Field := ⟨.hubAssistStat, 0, 16, .ro, 0, 0, true⟩
/-- HUB_ASSIST_STAT.PENDING (R420). -/
def F.hubAssistStat_pending : Field := ⟨.hubAssistStat, 16, 11, .ro, 0, 0, true⟩
/-- HUB_ASSIST_STAT.FULL_MISSES (R420). -/
def F.hubAssistStat_fullMisses : Field := ⟨.hubAssistStat, 32, 16, .ro, 0, 0, true⟩
/-- HUB_ASSIST_REPLY.ID (R420). -/
def F.hubAssistReply_id : Field := ⟨.hubAssistReply, 0, 16, .wo, 5, 0, false⟩
/-- HUB_ASSIST_REPLY.VERDICT (R420). -/
def F.hubAssistReply_verdict : Field := ⟨.hubAssistReply, 16, 2, .wo, 5, 0, false⟩
/-- HUB_ASSIST_REPLY.DATA (R420). -/
def F.hubAssistReply_data : Field := ⟨.hubAssistReply, 18, 46, .wo, 5, 0, false⟩
/-- HUB_HOSTCFG.DUAL (R424). -/
def F.hubHostcfg_dual : Field := ⟨.hubHostcfg, 0, 1, .rw, 3, 0, true⟩
/-- HUB_BAR2_WIN.BASE (R424). -/
def F.hubBar2Win_base : Field := ⟨.hubBar2Win, 0, 12, .rw, 3, 0, true⟩
/-- HUB_BAR2_WIN.TAG_EN (R424). -/
def F.hubBar2Win_tagEn : Field := ⟨.hubBar2Win, 12, 1, .rw, 3, 0, true⟩
/-- HUB_BAR2_WIN.JOB_TAG (R424). -/
def F.hubBar2Win_jobTag : Field := ⟨.hubBar2Win, 13, 6, .rw, 3, 0, true⟩
/-- HUB_FBENTRYn.ENTRY (R425). -/
def F.hubFbentry_entry : Field := ⟨.hubFbentry, 0, 48, .rw, 3, 0, true⟩
/-- HUB_FBCTRLn.RUN (R425). -/
def F.hubFbctrl_run : Field := ⟨.hubFbctrl, 0, 1, .rw, 3, 0, false⟩
/-- HUB_FBCTRLn.JOB_TAG (R425). -/
def F.hubFbctrl_jobTag : Field := ⟨.hubFbctrl, 1, 6, .rw, 3, 0, true⟩
/-- HUB_FBCTRLn.STATE (R425). -/
def F.hubFbctrl_state : Field := ⟨.hubFbctrl, 7, 3, .ro, 0, 0, false⟩
/-- HUB_MGMT.STATIC_ADDR (R426). -/
def F.hubMgmt_staticAddr : Field := ⟨.hubMgmt, 0, 7, .rwl, 66, 58, true⟩
/-- HUB_MGMT.DYN_ADDR (R426). -/
def F.hubMgmt_dynAddr : Field := ⟨.hubMgmt, 8, 7, .ro, 0, 0, true⟩
/-- HUB_MGMT.DYN_VALID (R426). -/
def F.hubMgmt_dynValid : Field := ⟨.hubMgmt, 15, 1, .ro, 0, 0, true⟩
/-- HUB_MGMT.EID (R426). -/
def F.hubMgmt_eid : Field := ⟨.hubMgmt, 16, 8, .ro, 0, 0, true⟩
/-- CLK_STAT.FREQ (R438). -/
def F.clkStat_freq : Field := ⟨.clkStat, 0, 6, .ro, 0, 0, true⟩
/-- CLK_STAT.TARGET (R438). -/
def F.clkStat_target : Field := ⟨.clkStat, 6, 6, .ro, 0, 0, true⟩
/-- CLK_STAT.CHANGING (R438). -/
def F.clkStat_changing : Field := ⟨.clkStat, 12, 1, .ro, 0, 0, true⟩
/-- CLK_STAT.STRETCHED (R438). -/
def F.clkStat_stretched : Field := ⟨.clkStat, 13, 1, .ro, 0, 0, true⟩
/-- CLK_STAT.REF_SEL (R438). -/
def F.clkStat_refSel : Field := ⟨.clkStat, 14, 1, .ro, 0, 0, true⟩
/-- CLK_STAT.CHANGES (R438). -/
def F.clkStat_changes : Field := ⟨.clkStat, 16, 24, .ro, 0, 0, true⟩
/-- CLK_STAT.STRETCHES (R438). -/
def F.clkStat_stretches : Field := ⟨.clkStat, 40, 24, .ro, 0, 0, true⟩
/-- CLK_DROOP.THRESHOLD (R438). -/
def F.clkDroop_threshold : Field := ⟨.clkDroop, 0, 8, .rwl, 66, 0, true⟩
/-- CLK_DROOP.HOLD (R438). -/
def F.clkDroop_hold : Field := ⟨.clkDroop, 8, 16, .rwl, 66, 64, true⟩
/-- TIM_NOW.NOW (R439). -/
def F.timNow_now : Field := ⟨.timNow, 0, 64, .ro, 0, 0, false⟩
/-- TIM_SYNC.LAST_ERR (R439). -/
def F.timSync_lastErr : Field := ⟨.timSync, 0, 16, .ro, 0, 0, true⟩
/-- TIM_SYNC.OUT_OF_BOUND (R439). -/
def F.timSync_outOfBound : Field := ⟨.timSync, 16, 1, .rw1c, 66, 0, true⟩
/-- TIM_SYNC.BEACONS (R439). -/
def F.timSync_beacons : Field := ⟨.timSync, 32, 32, .ro, 0, 0, true⟩
/-- TIM_RATE.RATE (R440). -/
def F.timRate_rate : Field := ⟨.timRate, 0, 32, .wo, 7, 0, false⟩
/-- TIM_PPS.IN_EN (R440). -/
def F.timPps_inEn : Field := ⟨.timPps, 0, 1, .rw, 71, 0, true⟩
/-- TIM_PPS.OUT_EN (R440). -/
def F.timPps_outEn : Field := ⟨.timPps, 1, 1, .rw, 71, 0, true⟩
/-- TIM_PPS_CAPT.CAPT (R440). -/
def F.timPpsCapt_capt : Field := ⟨.timPpsCapt, 0, 64, .ro, 0, 0, true⟩
/-- PWR_CTRL.FLOOR_OP (R469). -/
def F.pwrCtrl_floorOp : Field := ⟨.pwrCtrl, 0, 4, .rwl, 70, 0, true⟩
/-- PWR_CTRL.NAP_EN (R469). -/
def F.pwrCtrl_napEn : Field := ⟨.pwrCtrl, 4, 1, .rw, 71, 0, true⟩
/-- PWR_CTRL.IDLE_DELAY (R469). -/
def F.pwrCtrl_idleDelay : Field := ⟨.pwrCtrl, 8, 8, .rw, 67, 10, true⟩
/-- PWR_CTRL.NAP_DELAY (R469). -/
def F.pwrCtrl_napDelay : Field := ⟨.pwrCtrl, 16, 16, .rw, 67, 10, true⟩
/-- PWR_LIMIT.SHARE (R470). -/
def F.pwrLimit_share : Field := ⟨.pwrLimit, 0, 16, .wo, 7, 0, false⟩
/-- PWR_STAT.STATE (R471). -/
def F.pwrStat_state : Field := ⟨.pwrStat, 0, 3, .ro, 0, 0, true⟩
/-- PWR_STAT.OP (R471). -/
def F.pwrStat_op : Field := ⟨.pwrStat, 3, 4, .ro, 0, 10, true⟩
/-- PWR_STAT.SHARE (R471). -/
def F.pwrStat_share : Field := ⟨.pwrStat, 8, 16, .ro, 0, 0, true⟩
/-- PWR_STAT.I_IN (R471). -/
def F.pwrStat_iIn : Field := ⟨.pwrStat, 24, 12, .ro, 0, 0, true⟩
/-- PWR_STAT.ABORTED (R471). -/
def F.pwrStat_aborted : Field := ⟨.pwrStat, 36, 1, .ro, 0, 0, true⟩
/-- PWR_STAT.ABORT_AT (R471). -/
def F.pwrStat_abortAt : Field := ⟨.pwrStat, 37, 2, .ro, 0, 0, true⟩
/-- PWR_DEFICIT.REASON (R472). -/
def F.pwrDeficit_reason : Field := ⟨.pwrDeficit, 0, 4, .ro, 0, 0, true⟩
/-- PWR_DEFICIT.STEPS (R472). -/
def F.pwrDeficit_steps : Field := ⟨.pwrDeficit, 4, 6, .ro, 0, 0, true⟩
/-- PWR_DEFICIT.ACCUM (R472). -/
def F.pwrDeficit_accum : Field := ⟨.pwrDeficit, 16, 48, .ro, 0, 0, true⟩
/-- PWR_CONTACT.BASELINE (R473). -/
def F.pwrContact_baseline : Field := ⟨.pwrContact, 0, 16, .ro, 0, 0, true⟩
/-- PWR_CONTACT.MEASURED (R473). -/
def F.pwrContact_measured : Field := ⟨.pwrContact, 16, 16, .ro, 0, 0, true⟩
/-- PWR_CONTACT.WARN (R473). -/
def F.pwrContact_warn : Field := ⟨.pwrContact, 32, 1, .ro, 0, 0, true⟩
/-- PWR_CONTACT.HALVED (R473). -/
def F.pwrContact_halved : Field := ⟨.pwrContact, 33, 1, .ro, 0, 0, true⟩
/-- PWR_CONTACT.CRACK_SUSPECT (R473). -/
def F.pwrContact_crackSuspect : Field := ⟨.pwrContact, 34, 1, .ro, 0, 0, true⟩
/-- PWR_CONTACT.REBASE (R473). -/
def F.pwrContact_rebase : Field := ⟨.pwrContact, 35, 1, .wo, 64, 0, false⟩
/-- PWR_TEMP.S0–S3 (R474). -/
def F.pwrTemp_sensors : Field := ⟨.pwrTemp, 0, 32, .ro, 0, 0, true⟩
/-- PWR_TEMP.MAX (R474). -/
def F.pwrTemp_max : Field := ⟨.pwrTemp, 32, 8, .ro, 0, 0, true⟩
/-- PWR_TEMP.THROTTLING (R474). -/
def F.pwrTemp_throttling : Field := ⟨.pwrTemp, 40, 1, .ro, 0, 0, true⟩
/-- PWR_TEMP.STOPS (R474). -/
def F.pwrTemp_stops : Field := ⟨.pwrTemp, 41, 2, .ro, 0, 0, true⟩
/-- PWR_OPTABLEn.FREQ (R475). -/
def F.pwrOptable_freq : Field := ⟨.pwrOptable, 0, 6, .ro, 0, 0, true⟩
/-- PWR_OPTABLEn.VOLT (R475). -/
def F.pwrOptable_volt : Field := ⟨.pwrOptable, 6, 10, .ro, 0, 0, true⟩
/-- HUB_BUDGET.BUDGET (R476). -/
def F.hubBudget_budget : Field := ⟨.hubBudget, 0, 13, .rw, 7, 6600, true⟩
/-- HUB_BUDGET.MEASURED (R476). -/
def F.hubBudget_measured : Field := ⟨.hubBudget, 16, 13, .ro, 0, 0, true⟩
/-- HUB_BUDGET.INFEASIBLE (R476). -/
def F.hubBudget_infeasible : Field := ⟨.hubBudget, 29, 1, .ro, 0, 0, true⟩
/-- HUB_FORECAST.FAN_REQ (R476). -/
def F.hubForecast_fanReq : Field := ⟨.hubForecast, 0, 8, .ro, 0, 255, true⟩
/-- HUB_FORECAST.LEAD_MS (R476). -/
def F.hubForecast_leadMs : Field := ⟨.hubForecast, 8, 16, .rw, 7, 2000, true⟩
/-- HUB_FC_HOST.FAN (R476). -/
def F.hubFcHost_fan : Field := ⟨.hubFcHost, 0, 8, .wo, 5, 0, false⟩
/-- HUB_FC_HOST.TABLE_EN (R476). -/
def F.hubFcHost_tableEn : Field := ⟨.hubFcHost, 8, 1, .wo, 5, 0, false⟩
/-- HUB_FC_HOST.TABLE (R476). -/
def F.hubFcHost_table : Field := ⟨.hubFcHost, 16, 48, .wo, 5, 0, false⟩
/-- HUB_PSTATE.STANDBY_REQ (R476). -/
def F.hubPstate_standbyReq : Field := ⟨.hubPstate, 0, 1, .wo, 7, 0, false⟩
/-- HUB_PSTATE.STATE (R476). -/
def F.hubPstate_state : Field := ⟨.hubPstate, 1, 3, .ro, 0, 0, false⟩
/-- HUB_PSTATE.ABORT_AT (R476). -/
def F.hubPstate_abortAt : Field := ⟨.hubPstate, 4, 3, .ro, 0, 0, false⟩
/-- HUB_PSTATE.STOP_THERMAL (R476). -/
def F.hubPstate_stopThermal : Field := ⟨.hubPstate, 7, 1, .ro, 0, 0, false⟩
/-- HUB_PSTATE.STOP_AIRFLOW (R476). -/
def F.hubPstate_stopAirflow : Field := ⟨.hubPstate, 8, 1, .ro, 0, 0, false⟩
/-- HUB_WAKE.SOURCE (R476). -/
def F.hubWake_source : Field := ⟨.hubWake, 0, 4, .ro, 0, 0, true⟩
/-- HUB_WAKE.DETAIL (R476). -/
def F.hubWake_detail : Field := ⟨.hubWake, 4, 12, .ro, 0, 0, true⟩
/-- HUB_WAKE.SIMULTANEOUS (R476). -/
def F.hubWake_simultaneous : Field := ⟨.hubWake, 16, 4, .ro, 0, 0, true⟩
/-- HUB_WAKE.IGNORED (R476). -/
def F.hubWake_ignored : Field := ⟨.hubWake, 20, 16, .ro, 0, 0, true⟩
/-- HUB_WAKE_TIME.TIME (R476). -/
def F.hubWakeTime_time : Field := ⟨.hubWakeTime, 0, 64, .ro, 0, 0, true⟩
/-- HUB_WAKE_TIMER.AT (R476). -/
def F.hubWakeTimer_atT : Field := ⟨.hubWakeTimer, 0, 64, .rw, 7, 0, true⟩
/-- PWR_UNATTR.ENERGY (R477). -/
def F.pwrUnattr_energy : Field := ⟨.pwrUnattr, 0, 64, .ro, 0, 0, true⟩
/-- PWR_ENERGYt.ENERGY (R477). -/
def F.pwrEnergy_energy : Field := ⟨.pwrEnergy, 0, 64, .ro, 0, 0, true⟩
/-- LOG_NODESTATEn.FABRIC (R493). -/
def F.logNodestate_fabric : Field := ⟨.logNodestate, 0, 2, .ro, 0, 0, true⟩
/-- LOG_NODESTATEn.SIDEBAND (R493). -/
def F.logNodestate_sideband : Field := ⟨.logNodestate, 2, 2, .ro, 0, 0, true⟩
/-- LOG_NODESTATEn.CONFLICT (R493). -/
def F.logNodestate_conflict : Field := ⟨.logNodestate, 4, 1, .ro, 0, 0, true⟩
/-- LOG_NODESTATEn.MGMT_PATH (R493). -/
def F.logNodestate_mgmtPath : Field := ⟨.logNodestate, 5, 1, .ro, 0, 0, true⟩
/-- LOG_NODESTATEn.CLEARS (R493). -/
def F.logNodestate_clears : Field := ⟨.logNodestate, 6, 3, .ro, 0, 0, true⟩
/-- LOG_NODESTATEn.PROBE_TIME (R493). -/
def F.logNodestate_probeTime : Field := ⟨.logNodestate, 16, 48, .ro, 0, 0, true⟩
/-- LOG_STAT.NEXT_SEQ (R508). -/
def F.logStat_nextSeq : Field := ⟨.logStat, 0, 32, .ro, 0, 0, true⟩
/-- LOG_STAT.BANKS_OK (R508). -/
def F.logStat_banksOk : Field := ⟨.logStat, 32, 4, .ro, 0, 15, true⟩
/-- LOG_STAT.MIRROR_LOST (R508). -/
def F.logStat_mirrorLost : Field := ⟨.logStat, 36, 1, .ro, 0, 0, true⟩
/-- LOG_STAT.HOST_RING_ONLY (R508). -/
def F.logStat_hostRingOnly : Field := ⟨.logStat, 37, 1, .ro, 0, 0, true⟩
/-- LOG_STAT.HOLDUP_READY (R508). -/
def F.logStat_holdupReady : Field := ⟨.logStat, 38, 1, .ro, 0, 0, false⟩
/-- LOG_STAT.ALERT (R508). -/
def F.logStat_alert : Field := ⟨.logStat, 39, 1, .rw1c, 71, 0, true⟩
/-- LOG_STAT.DROPPED (R508). -/
def F.logStat_dropped : Field := ⟨.logStat, 40, 16, .ro, 0, 0, true⟩
/-- LOG_SPILL.SPILLED_SEQ (R509). -/
def F.logSpill_spilledSeq : Field := ⟨.logSpill, 0, 32, .ro, 0, 0, true⟩
/-- LOG_SPILL.UNSPILLED (R509). -/
def F.logSpill_unspilled : Field := ⟨.logSpill, 32, 14, .ro, 0, 0, true⟩
/-- LOG_SPILL.FLASH_FAIL (R509). -/
def F.logSpill_flashFail : Field := ⟨.logSpill, 46, 1, .ro, 0, 0, true⟩
/-- LOG_FLASHCFG.BASE (R509). -/
def F.logFlashcfg_base : Field := ⟨.logFlashcfg, 0, 32, .rwl, 66, 0, true⟩
/-- LOG_FLASHCFG.SIZE (R509). -/
def F.logFlashcfg_size : Field := ⟨.logFlashcfg, 32, 16, .rwl, 66, 0, true⟩
/-- LOG_HRING.BASE (R510). -/
def F.logHring_base : Field := ⟨.logHring, 0, 48, .rw, 3, 0, true⟩
/-- LOG_HRING.LOG2 (R510). -/
def F.logHring_log2 : Field := ⟨.logHring, 48, 4, .rw, 3, 8, true⟩
/-- LOG_HRING.ENABLE (R510). -/
def F.logHring_enable : Field := ⟨.logHring, 52, 1, .rw, 3, 0, true⟩
/-- LOG_HRING_HEAD.HEAD (R510). -/
def F.logHringHead_head : Field := ⟨.logHringHead, 0, 16, .wo, 3, 0, false⟩
/-- LOG_HRING_TAIL.TAIL (R510). -/
def F.logHringTail_tail : Field := ⟨.logHringTail, 0, 16, .ro, 0, 0, true⟩
/-- LOG_HRING_TAIL.FULL (R510). -/
def F.logHringTail_full : Field := ⟨.logHringTail, 16, 1, .ro, 0, 0, true⟩
/-- LOG_LATCH0.TIME (R511). -/
def F.logLatch0_time : Field := ⟨.logLatch0, 0, 64, .ro, 0, 0, true⟩
/-- LOG_LATCH1.VALID (R511). -/
def F.logLatch1_valid : Field := ⟨.logLatch1, 0, 1, .rw1c, 71, 0, true⟩
/-- LOG_LATCH1.HUB (R511). -/
def F.logLatch1_hub : Field := ⟨.logLatch1, 1, 1, .ro, 0, 0, true⟩
/-- LOG_LATCH1.BANK (R511). -/
def F.logLatch1_bank : Field := ⟨.logLatch1, 2, 2, .ro, 0, 0, true⟩
/-- LOG_LATCH1.WORD (R511). -/
def F.logLatch1_word : Field := ⟨.logLatch1, 4, 13, .ro, 0, 0, true⟩
/-- LOG_LATCH1.ALL_FAILED (R511). -/
def F.logLatch1_allFailed : Field := ⟨.logLatch1, 17, 1, .ro, 0, 0, true⟩
/-- LOG_LATCH1.COUNT (R511). -/
def F.logLatch1_count : Field := ⟨.logLatch1, 48, 16, .ro, 0, 0, true⟩
/-- HUB_BOOT.STEP (R527). -/
def F.hubBoot_step : Field := ⟨.hubBoot, 0, 4, .ro, 0, 2, true⟩
/-- HUB_BOOT.FULL (R527). -/
def F.hubBoot_full : Field := ⟨.hubBoot, 4, 1, .ro, 0, 0, true⟩
/-- HUB_BOOT.READY (R527). -/
def F.hubBoot_ready : Field := ⟨.hubBoot, 5, 1, .ro, 0, 0, true⟩
/-- HUB_BOOT.FAIL_STEP (R527). -/
def F.hubBoot_failStep : Field := ⟨.hubBoot, 6, 4, .ro, 0, 0, true⟩
/-- HUB_BOOT.IMAGE (R527). -/
def F.hubBoot_image : Field := ⟨.hubBoot, 10, 1, .ro, 0, 0, true⟩
/-- HUB_BOOT.BRIDGE_SAVED (R527). -/
def F.hubBoot_bridgeSaved : Field := ⟨.hubBoot, 11, 1, .ro, 0, 0, true⟩
/-- HUB_BOOT.STACK_SAVED (R527). -/
def F.hubBoot_stackSaved : Field := ⟨.hubBoot, 12, 1, .ro, 0, 0, true⟩
/-- HUB_BOOT.LINK_SAVED (R527). -/
def F.hubBoot_linkSaved : Field := ⟨.hubBoot, 13, 1, .ro, 0, 0, true⟩
/-- HUB_BOOT.SLICE (R527). -/
def F.hubBoot_slice : Field := ⟨.hubBoot, 14, 5, .ro, 0, 0, true⟩
/-- HUB_BOOT.UPD_STATE (R527). -/
def F.hubBoot_updState : Field := ⟨.hubBoot, 19, 3, .ro, 0, 0, true⟩
/-- HUB_BOOT.HOURS (R527). -/
def F.hubBoot_hours : Field := ⟨.hubBoot, 32, 16, .ro, 0, 0, true⟩
/-- HUB_BOOT.BOOTS (R527). -/
def F.hubBoot_boots : Field := ⟨.hubBoot, 48, 16, .ro, 0, 0, true⟩
/-- HUB_BOOTCTL.FORCE_FULL (R527). -/
def F.hubBootctl_forceFull : Field := ⟨.hubBootctl, 0, 1, .rw, 71, 0, true⟩
/-- HUB_BOOTCTL.COMPUTE_RESET (R527). -/
def F.hubBootctl_computeReset : Field := ⟨.hubBootctl, 1, 1, .wo, 71, 0, false⟩
/-- HUB_BOOTCTL.PANEL_RESET (R527). -/
def F.hubBootctl_panelReset : Field := ⟨.hubBootctl, 2, 1, .wo, 70, 0, false⟩
/-- HUB_BOOTCTL.UPDATE (R527). -/
def F.hubBootctl_update : Field := ⟨.hubBootctl, 3, 1, .wo, 7, 0, false⟩
/-- RGN_FW.VERSION (R528). -/
def F.rgnFw_version : Field := ⟨.rgnFw, 0, 32, .ro, 0, 0, true⟩
/-- RGN_FW.UPDATING (R528). -/
def F.rgnFw_updating : Field := ⟨.rgnFw, 32, 1, .ro, 0, 0, true⟩
/-- HUB_TALLY.DROPPED (R533). -/
def F.hubTally_dropped : Field := ⟨.hubTally, 0, 32, .rw1c, 67, 0, true⟩
/-- HUB_TALLY.INTAKE (R533). -/
def F.hubTally_intake : Field := ⟨.hubTally, 32, 13, .ro, 0, 0, false⟩
/-- TALLY_CTRL.TALLY_EN (R534). -/
def F.tallyCtrl_tallyEn : Field := ⟨.tallyCtrl, 0, 1, .rwl, 67, 0, true⟩
/-- TALLY_CTRL.COUNT_EN (R534). -/
def F.tallyCtrl_countEn : Field := ⟨.tallyCtrl, 1, 1, .rwl, 67, 0, true⟩
/-- RING_CTRL.ENABLE (R537). -/
def F.ringCtrl_enable : Field := ⟨.ringCtrl, 0, 1, .rwl, 67, 0, true⟩
/-- RING_CTRL.FREEZE_ON_UE (R537). -/
def F.ringCtrl_freezeOnUe : Field := ⟨.ringCtrl, 1, 1, .rwl, 67, 0, true⟩
/-- RING_CTRL.FREEZE_ON_BREAK (R537). -/
def F.ringCtrl_freezeOnBreak : Field := ⟨.ringCtrl, 2, 1, .rwl, 67, 0, true⟩
/-- RING_CTRL.CLASSES (R537). -/
def F.ringCtrl_classes : Field := ⟨.ringCtrl, 8, 8, .rwl, 67, 255, true⟩
/-- DBG_RING_SEL.PAGE (R539). -/
def F.dbgRingSel_page : Field := ⟨.dbgRingSel, 0, 6, .rw, 71, 0, true⟩
/-- DBG_RING_SEL.ENTRY (R539). -/
def F.dbgRingSel_entry : Field := ⟨.dbgRingSel, 6, 8, .rw, 71, 0, true⟩
/-- DBG_RING_STAT.NEXT (R539). -/
def F.dbgRingStat_next : Field := ⟨.dbgRingStat, 0, 8, .ro, 0, 0, false⟩
/-- DBG_RING_STAT.FROZEN (R539). -/
def F.dbgRingStat_frozen : Field := ⟨.dbgRingStat, 8, 1, .ro, 0, 0, false⟩
/-- DBG_RING_STAT.MISSED (R539). -/
def F.dbgRingStat_missed : Field := ⟨.dbgRingStat, 9, 32, .ro, 0, 0, false⟩
/-- DBG_FREEZE.FREEZE (R539). -/
def F.dbgFreeze_freeze : Field := ⟨.dbgFreeze, 0, 1, .wo, 71, 0, false⟩
/-- DBG_FREEZE.THAW (R539). -/
def F.dbgFreeze_thaw : Field := ⟨.dbgFreeze, 1, 1, .wo, 71, 0, false⟩
/-- DBG_BPb_n.ENABLE (R540). -/
def F.dbgBp_enable : Field := ⟨.dbgBp, 0, 1, .rw, 67, 0, true⟩
/-- DBG_BPb_n.ADDR (R540). -/
def F.dbgBp_addr : Field := ⟨.dbgBp, 6, 42, .rw, 67, 0, true⟩
/-- DBG_BPb_n.JOB_TAG (R540). -/
def F.dbgBp_jobTag : Field := ⟨.dbgBp, 48, 6, .rw, 67, 0, true⟩
/-- DBG_BPb_n.TAG_MATCH (R540). -/
def F.dbgBp_tagMatch : Field := ⟨.dbgBp, 54, 1, .rw, 67, 0, true⟩
/-- DBG_BRKb.STATE (R540). -/
def F.dbgBrk_state : Field := ⟨.dbgBrk, 0, 2, .ro, 0, 0, false⟩
/-- DBG_BRKb.BP (R540). -/
def F.dbgBrk_bp : Field := ⟨.dbgBrk, 2, 2, .ro, 0, 0, false⟩
/-- DBG_BRKb.BY_CTL (R540). -/
def F.dbgBrk_byCtl : Field := ⟨.dbgBrk, 4, 1, .ro, 0, 0, false⟩
/-- DBG_BRKb.CODE (R540). -/
def F.dbgBrk_code : Field := ⟨.dbgBrk, 5, 8, .ro, 0, 0, false⟩
/-- DBG_BRKb.HELD_Q (R540). -/
def F.dbgBrk_heldQ : Field := ⟨.dbgBrk, 13, 5, .ro, 0, 0, false⟩
/-- DBG_BRKb.RESUME (R540). -/
def F.dbgBrk_resume : Field := ⟨.dbgBrk, 18, 1, .wo, 67, 0, false⟩
/-- DBG_BRKb.STEP (R540). -/
def F.dbgBrk_step : Field := ⟨.dbgBrk, 19, 1, .wo, 64, 0, false⟩
/-- DBG_BRKb.STEP_Q (R540). -/
def F.dbgBrk_stepQ : Field := ⟨.dbgBrk, 20, 5, .wo, 64, 0, false⟩
/-- DBG_BRKb.CTLBRK_EN (R540). -/
def F.dbgBrk_ctlbrkEn : Field := ⟨.dbgBrk, 25, 1, .rw, 67, 0, true⟩
/-- DBG_MODE.DEBUG (R542). -/
def F.dbgMode_debug : Field := ⟨.dbgMode, 0, 1, .rw, 70, 0, true⟩
/-- DBG_MODE.HOST_OK (R542). -/
def F.dbgMode_hostOk : Field := ⟨.dbgMode, 1, 1, .rw, 70, 0, true⟩
/-- DBG_ACC.ADDR (R542). -/
def F.dbgAcc_addr : Field := ⟨.dbgAcc, 0, 48, .rw, 71, 0, false⟩
/-- DBG_ACC.WRITE (R542). -/
def F.dbgAcc_write : Field := ⟨.dbgAcc, 48, 1, .rw, 71, 0, false⟩
/-- DBG_ACC.GO (R542). -/
def F.dbgAcc_go : Field := ⟨.dbgAcc, 49, 1, .wo, 71, 0, false⟩
/-- DBG_ACC.BUSY (R542). -/
def F.dbgAcc_busy : Field := ⟨.dbgAcc, 50, 1, .ro, 0, 0, false⟩
/-- DBG_ACC.STATUS (R542). -/
def F.dbgAcc_status : Field := ⟨.dbgAcc, 51, 4, .ro, 0, 0, false⟩
/-- DBG_ACC_DATA.DATA (R542). -/
def F.dbgAccData_data : Field := ⟨.dbgAccData, 0, 64, .rw, 71, 0, false⟩
/-- route bank 0, four entries a word.A_PORT (R68). -/
def F.rtrRoute0_aPort0 : Field := ⟨.rtrRoute0, 0, 3, .rw, 66, 7, true⟩
/-- route bank 0, four entries a word.A_DETOUR (R68). -/
def F.rtrRoute0_aDetour0 : Field := ⟨.rtrRoute0, 3, 1, .rw, 66, 0, true⟩
/-- route bank 0, four entries a word.B_PORT (R68). -/
def F.rtrRoute0_bPort0 : Field := ⟨.rtrRoute0, 4, 3, .rw, 66, 7, true⟩
/-- route bank 0, four entries a word.VALID (R68). -/
def F.rtrRoute0_valid0 : Field := ⟨.rtrRoute0, 7, 1, .rw, 66, 0, true⟩
/-- route bank 0, four entries a word.SUSPECT (R68). -/
def F.rtrRoute0_suspect0 : Field := ⟨.rtrRoute0, 8, 1, .rw, 66, 0, true⟩
/-- route bank 0, four entries a word.RETIRED (R68). -/
def F.rtrRoute0_retired0 : Field := ⟨.rtrRoute0, 9, 1, .rw, 66, 0, true⟩
/-- route bank 0, four entries a word.A_PORT (R68). -/
def F.rtrRoute0_aPort1 : Field := ⟨.rtrRoute0, 16, 3, .rw, 66, 7, true⟩
/-- route bank 0, four entries a word.A_DETOUR (R68). -/
def F.rtrRoute0_aDetour1 : Field := ⟨.rtrRoute0, 19, 1, .rw, 66, 0, true⟩
/-- route bank 0, four entries a word.B_PORT (R68). -/
def F.rtrRoute0_bPort1 : Field := ⟨.rtrRoute0, 20, 3, .rw, 66, 7, true⟩
/-- route bank 0, four entries a word.VALID (R68). -/
def F.rtrRoute0_valid1 : Field := ⟨.rtrRoute0, 23, 1, .rw, 66, 0, true⟩
/-- route bank 0, four entries a word.SUSPECT (R68). -/
def F.rtrRoute0_suspect1 : Field := ⟨.rtrRoute0, 24, 1, .rw, 66, 0, true⟩
/-- route bank 0, four entries a word.RETIRED (R68). -/
def F.rtrRoute0_retired1 : Field := ⟨.rtrRoute0, 25, 1, .rw, 66, 0, true⟩
/-- route bank 0, four entries a word.A_PORT (R68). -/
def F.rtrRoute0_aPort2 : Field := ⟨.rtrRoute0, 32, 3, .rw, 66, 7, true⟩
/-- route bank 0, four entries a word.A_DETOUR (R68). -/
def F.rtrRoute0_aDetour2 : Field := ⟨.rtrRoute0, 35, 1, .rw, 66, 0, true⟩
/-- route bank 0, four entries a word.B_PORT (R68). -/
def F.rtrRoute0_bPort2 : Field := ⟨.rtrRoute0, 36, 3, .rw, 66, 7, true⟩
/-- route bank 0, four entries a word.VALID (R68). -/
def F.rtrRoute0_valid2 : Field := ⟨.rtrRoute0, 39, 1, .rw, 66, 0, true⟩
/-- route bank 0, four entries a word.SUSPECT (R68). -/
def F.rtrRoute0_suspect2 : Field := ⟨.rtrRoute0, 40, 1, .rw, 66, 0, true⟩
/-- route bank 0, four entries a word.RETIRED (R68). -/
def F.rtrRoute0_retired2 : Field := ⟨.rtrRoute0, 41, 1, .rw, 66, 0, true⟩
/-- route bank 0, four entries a word.A_PORT (R68). -/
def F.rtrRoute0_aPort3 : Field := ⟨.rtrRoute0, 48, 3, .rw, 66, 7, true⟩
/-- route bank 0, four entries a word.A_DETOUR (R68). -/
def F.rtrRoute0_aDetour3 : Field := ⟨.rtrRoute0, 51, 1, .rw, 66, 0, true⟩
/-- route bank 0, four entries a word.B_PORT (R68). -/
def F.rtrRoute0_bPort3 : Field := ⟨.rtrRoute0, 52, 3, .rw, 66, 7, true⟩
/-- route bank 0, four entries a word.VALID (R68). -/
def F.rtrRoute0_valid3 : Field := ⟨.rtrRoute0, 55, 1, .rw, 66, 0, true⟩
/-- route bank 0, four entries a word.SUSPECT (R68). -/
def F.rtrRoute0_suspect3 : Field := ⟨.rtrRoute0, 56, 1, .rw, 66, 0, true⟩
/-- route bank 0, four entries a word.RETIRED (R68). -/
def F.rtrRoute0_retired3 : Field := ⟨.rtrRoute0, 57, 1, .rw, 66, 0, true⟩
/-- map bank 0, eight bytes a word.BYTES (R68). -/
def F.rtrMap0_all : Field := ⟨.rtrMap0, 0, 64, .rw, 66, 18446744073709551615, true⟩
/-- stack map 0, eight bytes a word.BYTES (R394). -/
def F.rtrStackMap0_all : Field := ⟨.rtrStackMap0, 0, 64, .rw, 66, 0, true⟩
/-- peer map 0, eight bytes a word.EDGE (R364). -/
def F.rtrPeerMap0_edge0 : Field := ⟨.rtrPeerMap0, 0, 5, .rw, 66, 0, true⟩
/-- peer map 0, eight bytes a word.VALID (R364). -/
def F.rtrPeerMap0_valid0 : Field := ⟨.rtrPeerMap0, 5, 1, .rw, 66, 0, true⟩
/-- peer map 0, eight bytes a word.EDGE (R364). -/
def F.rtrPeerMap0_edge1 : Field := ⟨.rtrPeerMap0, 8, 5, .rw, 66, 0, true⟩
/-- peer map 0, eight bytes a word.VALID (R364). -/
def F.rtrPeerMap0_valid1 : Field := ⟨.rtrPeerMap0, 13, 1, .rw, 66, 0, true⟩
/-- peer map 0, eight bytes a word.EDGE (R364). -/
def F.rtrPeerMap0_edge2 : Field := ⟨.rtrPeerMap0, 16, 5, .rw, 66, 0, true⟩
/-- peer map 0, eight bytes a word.VALID (R364). -/
def F.rtrPeerMap0_valid2 : Field := ⟨.rtrPeerMap0, 21, 1, .rw, 66, 0, true⟩
/-- peer map 0, eight bytes a word.EDGE (R364). -/
def F.rtrPeerMap0_edge3 : Field := ⟨.rtrPeerMap0, 24, 5, .rw, 66, 0, true⟩
/-- peer map 0, eight bytes a word.VALID (R364). -/
def F.rtrPeerMap0_valid3 : Field := ⟨.rtrPeerMap0, 29, 1, .rw, 66, 0, true⟩
/-- peer map 0, eight bytes a word.EDGE (R364). -/
def F.rtrPeerMap0_edge4 : Field := ⟨.rtrPeerMap0, 32, 5, .rw, 66, 0, true⟩
/-- peer map 0, eight bytes a word.VALID (R364). -/
def F.rtrPeerMap0_valid4 : Field := ⟨.rtrPeerMap0, 37, 1, .rw, 66, 0, true⟩
/-- peer map 0, eight bytes a word.EDGE (R364). -/
def F.rtrPeerMap0_edge5 : Field := ⟨.rtrPeerMap0, 40, 5, .rw, 66, 0, true⟩
/-- peer map 0, eight bytes a word.VALID (R364). -/
def F.rtrPeerMap0_valid5 : Field := ⟨.rtrPeerMap0, 45, 1, .rw, 66, 0, true⟩
/-- peer map 0, eight bytes a word.EDGE (R364). -/
def F.rtrPeerMap0_edge6 : Field := ⟨.rtrPeerMap0, 48, 5, .rw, 66, 0, true⟩
/-- peer map 0, eight bytes a word.VALID (R364). -/
def F.rtrPeerMap0_valid6 : Field := ⟨.rtrPeerMap0, 53, 1, .rw, 66, 0, true⟩
/-- peer map 0, eight bytes a word.EDGE (R364). -/
def F.rtrPeerMap0_edge7 : Field := ⟨.rtrPeerMap0, 56, 5, .rw, 66, 0, true⟩
/-- peer map 0, eight bytes a word.VALID (R364). -/
def F.rtrPeerMap0_valid7 : Field := ⟨.rtrPeerMap0, 61, 1, .rw, 66, 0, true⟩
/-- route bank 1, four entries a word.A_PORT (R68). -/
def F.rtrRoute1_aPort0 : Field := ⟨.rtrRoute1, 0, 3, .rw, 66, 7, true⟩
/-- route bank 1, four entries a word.A_DETOUR (R68). -/
def F.rtrRoute1_aDetour0 : Field := ⟨.rtrRoute1, 3, 1, .rw, 66, 0, true⟩
/-- route bank 1, four entries a word.B_PORT (R68). -/
def F.rtrRoute1_bPort0 : Field := ⟨.rtrRoute1, 4, 3, .rw, 66, 7, true⟩
/-- route bank 1, four entries a word.VALID (R68). -/
def F.rtrRoute1_valid0 : Field := ⟨.rtrRoute1, 7, 1, .rw, 66, 0, true⟩
/-- route bank 1, four entries a word.SUSPECT (R68). -/
def F.rtrRoute1_suspect0 : Field := ⟨.rtrRoute1, 8, 1, .rw, 66, 0, true⟩
/-- route bank 1, four entries a word.RETIRED (R68). -/
def F.rtrRoute1_retired0 : Field := ⟨.rtrRoute1, 9, 1, .rw, 66, 0, true⟩
/-- route bank 1, four entries a word.A_PORT (R68). -/
def F.rtrRoute1_aPort1 : Field := ⟨.rtrRoute1, 16, 3, .rw, 66, 7, true⟩
/-- route bank 1, four entries a word.A_DETOUR (R68). -/
def F.rtrRoute1_aDetour1 : Field := ⟨.rtrRoute1, 19, 1, .rw, 66, 0, true⟩
/-- route bank 1, four entries a word.B_PORT (R68). -/
def F.rtrRoute1_bPort1 : Field := ⟨.rtrRoute1, 20, 3, .rw, 66, 7, true⟩
/-- route bank 1, four entries a word.VALID (R68). -/
def F.rtrRoute1_valid1 : Field := ⟨.rtrRoute1, 23, 1, .rw, 66, 0, true⟩
/-- route bank 1, four entries a word.SUSPECT (R68). -/
def F.rtrRoute1_suspect1 : Field := ⟨.rtrRoute1, 24, 1, .rw, 66, 0, true⟩
/-- route bank 1, four entries a word.RETIRED (R68). -/
def F.rtrRoute1_retired1 : Field := ⟨.rtrRoute1, 25, 1, .rw, 66, 0, true⟩
/-- route bank 1, four entries a word.A_PORT (R68). -/
def F.rtrRoute1_aPort2 : Field := ⟨.rtrRoute1, 32, 3, .rw, 66, 7, true⟩
/-- route bank 1, four entries a word.A_DETOUR (R68). -/
def F.rtrRoute1_aDetour2 : Field := ⟨.rtrRoute1, 35, 1, .rw, 66, 0, true⟩
/-- route bank 1, four entries a word.B_PORT (R68). -/
def F.rtrRoute1_bPort2 : Field := ⟨.rtrRoute1, 36, 3, .rw, 66, 7, true⟩
/-- route bank 1, four entries a word.VALID (R68). -/
def F.rtrRoute1_valid2 : Field := ⟨.rtrRoute1, 39, 1, .rw, 66, 0, true⟩
/-- route bank 1, four entries a word.SUSPECT (R68). -/
def F.rtrRoute1_suspect2 : Field := ⟨.rtrRoute1, 40, 1, .rw, 66, 0, true⟩
/-- route bank 1, four entries a word.RETIRED (R68). -/
def F.rtrRoute1_retired2 : Field := ⟨.rtrRoute1, 41, 1, .rw, 66, 0, true⟩
/-- route bank 1, four entries a word.A_PORT (R68). -/
def F.rtrRoute1_aPort3 : Field := ⟨.rtrRoute1, 48, 3, .rw, 66, 7, true⟩
/-- route bank 1, four entries a word.A_DETOUR (R68). -/
def F.rtrRoute1_aDetour3 : Field := ⟨.rtrRoute1, 51, 1, .rw, 66, 0, true⟩
/-- route bank 1, four entries a word.B_PORT (R68). -/
def F.rtrRoute1_bPort3 : Field := ⟨.rtrRoute1, 52, 3, .rw, 66, 7, true⟩
/-- route bank 1, four entries a word.VALID (R68). -/
def F.rtrRoute1_valid3 : Field := ⟨.rtrRoute1, 55, 1, .rw, 66, 0, true⟩
/-- route bank 1, four entries a word.SUSPECT (R68). -/
def F.rtrRoute1_suspect3 : Field := ⟨.rtrRoute1, 56, 1, .rw, 66, 0, true⟩
/-- route bank 1, four entries a word.RETIRED (R68). -/
def F.rtrRoute1_retired3 : Field := ⟨.rtrRoute1, 57, 1, .rw, 66, 0, true⟩
/-- map bank 1, eight bytes a word.BYTES (R68). -/
def F.rtrMap1_all : Field := ⟨.rtrMap1, 0, 64, .rw, 66, 18446744073709551615, true⟩
/-- stack map 1, eight bytes a word.BYTES (R394). -/
def F.rtrStackMap1_all : Field := ⟨.rtrStackMap1, 0, 64, .rw, 66, 0, true⟩
/-- peer map 1, eight bytes a word.EDGE (R364). -/
def F.rtrPeerMap1_edge0 : Field := ⟨.rtrPeerMap1, 0, 5, .rw, 66, 0, true⟩
/-- peer map 1, eight bytes a word.VALID (R364). -/
def F.rtrPeerMap1_valid0 : Field := ⟨.rtrPeerMap1, 5, 1, .rw, 66, 0, true⟩
/-- peer map 1, eight bytes a word.EDGE (R364). -/
def F.rtrPeerMap1_edge1 : Field := ⟨.rtrPeerMap1, 8, 5, .rw, 66, 0, true⟩
/-- peer map 1, eight bytes a word.VALID (R364). -/
def F.rtrPeerMap1_valid1 : Field := ⟨.rtrPeerMap1, 13, 1, .rw, 66, 0, true⟩
/-- peer map 1, eight bytes a word.EDGE (R364). -/
def F.rtrPeerMap1_edge2 : Field := ⟨.rtrPeerMap1, 16, 5, .rw, 66, 0, true⟩
/-- peer map 1, eight bytes a word.VALID (R364). -/
def F.rtrPeerMap1_valid2 : Field := ⟨.rtrPeerMap1, 21, 1, .rw, 66, 0, true⟩
/-- peer map 1, eight bytes a word.EDGE (R364). -/
def F.rtrPeerMap1_edge3 : Field := ⟨.rtrPeerMap1, 24, 5, .rw, 66, 0, true⟩
/-- peer map 1, eight bytes a word.VALID (R364). -/
def F.rtrPeerMap1_valid3 : Field := ⟨.rtrPeerMap1, 29, 1, .rw, 66, 0, true⟩
/-- peer map 1, eight bytes a word.EDGE (R364). -/
def F.rtrPeerMap1_edge4 : Field := ⟨.rtrPeerMap1, 32, 5, .rw, 66, 0, true⟩
/-- peer map 1, eight bytes a word.VALID (R364). -/
def F.rtrPeerMap1_valid4 : Field := ⟨.rtrPeerMap1, 37, 1, .rw, 66, 0, true⟩
/-- peer map 1, eight bytes a word.EDGE (R364). -/
def F.rtrPeerMap1_edge5 : Field := ⟨.rtrPeerMap1, 40, 5, .rw, 66, 0, true⟩
/-- peer map 1, eight bytes a word.VALID (R364). -/
def F.rtrPeerMap1_valid5 : Field := ⟨.rtrPeerMap1, 45, 1, .rw, 66, 0, true⟩
/-- peer map 1, eight bytes a word.EDGE (R364). -/
def F.rtrPeerMap1_edge6 : Field := ⟨.rtrPeerMap1, 48, 5, .rw, 66, 0, true⟩
/-- peer map 1, eight bytes a word.VALID (R364). -/
def F.rtrPeerMap1_valid6 : Field := ⟨.rtrPeerMap1, 53, 1, .rw, 66, 0, true⟩
/-- peer map 1, eight bytes a word.EDGE (R364). -/
def F.rtrPeerMap1_edge7 : Field := ⟨.rtrPeerMap1, 56, 5, .rw, 66, 0, true⟩
/-- peer map 1, eight bytes a word.VALID (R364). -/
def F.rtrPeerMap1_valid7 : Field := ⟨.rtrPeerMap1, 61, 1, .rw, 66, 0, true⟩
/-- BLK_ free-running counters.COUNT (R535). -/
def F.blkCounter_count : Field := ⟨.blkCounter, 0, 64, .ro, 0, 0, false⟩
/-- BLK_ counter CLEAR.CLEAR (R535). -/
def F.blkClear_clear : Field := ⟨.blkClear, 0, 1, .wo, 67, 0, false⟩
/-- DRV_ free-running counters.COUNT (R535). -/
def F.drvCounter_count : Field := ⟨.drvCounter, 0, 64, .ro, 0, 0, false⟩
/-- DRV_ counter CLEAR.CLEAR (R535). -/
def F.drvClear_clear : Field := ⟨.drvClear, 0, 1, .wo, 67, 0, false⟩
/-- guest mailbox words.DATA (R391). -/
def F.mailbox_data : Field := ⟨.mailbox, 0, 64, .rw, 83, 0, true⟩
/-- edge-die completion rings.DATA (R237). -/
def F.edgRing_data : Field := ⟨.edgRing, 0, 64, .ro, 0, 0, false⟩
/-- DBG_RING_DATA.DATA (R539). -/
def F.dbgRingData_data : Field := ⟨.dbgRingData, 0, 64, .ro, 0, 0, false⟩

/-- The fields of each register, lowest bit first. -/
def Reg.fields : Reg → List Field
  | .hubGeometry => [F.hubGeometry_rows, F.hubGeometry_lcols, F.hubGeometry_regions, F.hubGeometry_spareMask, F.hubGeometry_reduced, F.hubGeometry_noCompute, F.hubGeometry_mapBank, F.hubGeometry_mapVersion, F.hubGeometry_master, F.hubGeometry_guestPresent]
  | .rgnSite => [F.rgnSite_prow, F.rgnSite_pcol, F.rgnSite_lnum, F.rgnSite_role, F.rgnSite_fusedBad, F.rgnSite_grade]
  | .rtrTimeout => [F.rtrTimeout_reqTimeout, F.rtrTimeout_suspectCount, F.rtrTimeout_suspectWindow]
  | .rtrEpoch => [F.rtrEpoch_injEpoch, F.rtrEpoch_bank0State, F.rtrEpoch_bank1State, F.rtrEpoch_seal, F.rtrEpoch_loadedDigest, F.rtrEpoch_staleCount]
  | .rtrFlipAt => [F.rtrFlipAt_flipAt]
  | .rtrArb => [F.rtrArb_wC1, F.rtrArb_wC2, F.rtrArb_wC3, F.rtrArb_wC4, F.rtrArb_wC5]
  | .blkNumstat => [F.blkNumstat_psOvf, F.blkNumstat_nanOut, F.blkNumstat_t5Badcode, F.blkNumstat_qsat, F.blkNumstat_qscaleClamp, F.blkNumstat_qsatCount]
  | .mxcRoundsCtrl => [F.mxcRoundsCtrl_enable, F.mxcRoundsCtrl_period, F.mxcRoundsCtrl_window]
  | .mxcRoundsStat => [F.mxcRoundsStat_outCell, F.mxcRoundsStat_outState, F.mxcRoundsStat_sliced, F.mxcRoundsStat_retiredCount, F.mxcRoundsStat_testFails]
  | .mxcSlotMap => [F.mxcSlotMap_cell0, F.mxcSlotMap_cell1, F.mxcSlotMap_cell2, F.mxcSlotMap_cell3, F.mxcSlotMap_cell4, F.mxcSlotMap_cell5, F.mxcSlotMap_cell6, F.mxcSlotMap_cell7]
  | .mxcRetired => [F.mxcRetired_mask]
  | .mxcResidue => [F.mxcResidue_mismatches, F.mxcResidue_lastCell, F.mxcResidue_lastMasked, F.mxcResidue_recomputeFails]
  | .mxcClassify => [F.mxcClassify_mismatchLimit, F.mxcClassify_window]
  | .mxcCbStat => [F.mxcCbStat_loaded]
  | .vxcCtrl => [F.vxcCtrl_roundsEnable, F.vxcCtrl_checkSkew]
  | .vxcStat => [F.vxcStat_busy, F.vxcStat_sxBusy, F.vxcStat_retired, F.vxcStat_testCell, F.vxcStat_freeGranules, F.vxcStat_testFails]
  | .vxcFault => [F.vxcFault_valid, F.vxcFault_cell, F.vxcFault_thread, F.vxcFault_cause, F.vxcFault_status, F.vxcFault_jobTag, F.vxcFault_pc]
  | .vxcCheck => [F.vxcCheck_mismatches, F.vxcCheck_lastPair, F.vxcCheck_lastSkew]
  | .blkPenCfg => [F.blkPenCfg_poolUnits, F.blkPenCfg_waitNs, F.blkPenCfg_reqCap]
  | .blkPenStat => [F.blkPenStat_grantedUnits, F.blkPenStat_pending, F.blkPenStat_held, F.blkPenStat_draining]
  | .blkPenCount => [F.blkPenCount_late, F.blkPenCount_expired, F.blkPenCount_tableFull, F.blkPenCount_revoked, F.blkPenCount_revokedReleases, F.blkPenCount_holderWaits, F.blkPenCount_clear]
  | .blkSramErr => [F.blkSramErr_ceCount, F.blkSramErr_deCount, F.blkSramErr_lastStore, F.blkSramErr_lastBank, F.blkSramErr_lastRow, F.blkSramErr_sparesUsed, F.blkSramErr_spareExhausted, F.blkSramErr_scrubPasses]
  | .drvCfg => [F.drvCfg_stallLimit]
  | .drvStat => [F.drvStat_curSeq, F.drvStat_active, F.drvStat_provisional, F.drvStat_feed, F.drvStat_cancelledKib]
  | .drvPace => [F.drvPace_slowNode, F.drvPace_bufWaits]
  | .rtrFold => [F.rtrFold_active, F.rtrFold_fpOvf, F.rtrFold_intSat, F.rtrFold_mismatch, F.rtrFold_poisonFwd]
  | .gtuStat => [F.gtuStat_selTokens, F.gtuStat_selK, F.gtuStat_selExperts, F.gtuStat_listsHeld, F.gtuStat_droppedTokens, F.gtuStat_countErrors]
  | .drvExpCfg => [F.drvExpCfg_runahead]
  | .drvTally => [F.drvTally_tablesUsed, F.drvTally_refused]
  | .drvSched => [F.drvSched_seq, F.drvSched_expert, F.drvSched_state, F.drvSched_count]
  | .hubMemcfg => [F.hubMemcfg_placement, F.hubMemcfg_scrubHours]
  | .hbmStat => [F.hbmStat_state, F.hbmStat_rate6g4, F.hbmStat_mirror, F.hbmStat_partner, F.hbmStat_temp, F.hbmStat_therm]
  | .hbmErr => [F.hbmErr_ceCount, F.hbmErr_deCount, F.hbmErr_lastSector, F.hbmErr_lastKind]
  | .hbmScrub => [F.hbmScrub_progress, F.hbmScrub_forced, F.hbmScrub_passes, F.hbmScrub_odeccCount]
  | .lnkCtrl => [F.lnkCtrl_enable, F.lnkCtrl_mode, F.lnkCtrl_lingerMs, F.lnkCtrl_wakeLimit, F.lnkCtrl_ackTimeout, F.lnkCtrl_reenable, F.lnkCtrl_fullTrain]
  | .lnkStat => [F.lnkStat_state, F.lnkStat_half, F.lnkStat_lanesRetired, F.lnkStat_peerId, F.lnkStat_flaps, F.lnkStat_session, F.lnkStat_resends]
  | .lnkPeer => [F.lnkPeer_incarnation]
  | .lnkEth => [F.lnkEth_nextHopMac, F.lnkEth_vlanId, F.lnkEth_vlanEn, F.lnkEth_pcp]
  | .lnkTable0 => [F.lnkTable0_primary, F.lnkTable0_alt, F.lnkTable0_valid, F.lnkTable0_eth, F.lnkTable0_redirect, F.lnkTable0_redirectEn, F.lnkTable0_udpPort]
  | .lnkTable1 => []
  | .lnkTable2 => [F.lnkTable2_ipv6Lo]
  | .lnkTable3 => [F.lnkTable3_ipv6Hi]
  | .hubAperture => [F.hubAperture_base, F.hubAperture_read, F.hubAperture_write, F.hubAperture_atomic, F.hubAperture_jobTag, F.hubAperture_valid]
  | .hubPanel => [F.hubPanel_panelId, F.hubPanel_timeSource]
  | .hubIncarnation => [F.hubIncarnation_incarnation]
  | .rtrPeerTo => [F.rtrPeerTo_peerTimeout]
  | .hubCascade => [F.hubCascade_members, F.hubCascade_count]
  | .hubCascadeB => [F.hubCascadeB_bellwether, F.hubCascadeB_valid]
  | .hubSqcfg => [F.hubSqcfg_base, F.hubSqcfg_log2, F.hubSqcfg_cq, F.hubSqcfg_enable]
  | .hubSqtag => [F.hubSqtag_tagMask]
  | .hubSqstat => [F.hubSqstat_head, F.hubSqstat_tail, F.hubSqstat_overrun, F.hubSqstat_stalledCq]
  | .hubCqcfg => [F.hubCqcfg_base, F.hubCqcfg_log2, F.hubCqcfg_vector, F.hubCqcfg_enable]
  | .hubCqstat => [F.hubCqstat_head, F.hubCqstat_tail, F.hubCqstat_phase, F.hubCqstat_full, F.hubCqstat_overrun]
  | .hubFwin => [F.hubFwin_valid, F.hubFwin_read, F.hubFwin_write, F.hubFwin_atomic, F.hubFwin_pen, F.hubFwin_jobTag, F.hubFwin_base]
  | .hubFlim => [F.hubFlim_limit]
  | .hubFcfg => [F.hubFcfg_classMask, F.hubFcfg_rate, F.hubFcfg_burst, F.hubFcfg_penMax]
  | .hubFstat => [F.hubFstat_denied, F.hubFstat_lastCheck, F.hubFstat_rateStalls]
  | .unitId => [F.unitId_type, F.unitId_node, F.unitId_page, F.unitId_instance, F.unitId_minor, F.unitId_major]
  | .unitCap => [F.unitCap_dutyFuncs, F.unitCap_inject, F.unitCap_tally, F.unitCap_ring, F.unitCap_reset, F.unitCap_errBits]
  | .unitCtrl => [F.unitCtrl_enable, F.unitCtrl_resetReq, F.unitCtrl_quiesce]
  | .unitStat => [F.unitStat_state, F.unitStat_errPending, F.unitStat_locked]
  | .errStat => [F.errStat_err, F.errStat_suppressed, F.errStat_access]
  | .errMask => [F.errMask_mask]
  | .errFirst => [F.errFirst_bit, F.errFirst_valid, F.errFirst_severity, F.errFirst_time]
  | .errInject => [F.errInject_bit, F.errInject_go]
  | .dutyMode => [F.dutyMode_host, F.dutyMode_reverted]
  | .logCtrl => [F.logCtrl_level, F.logCtrl_ceLimit]
  | .lock => [F.lock_locked]
  | .accessErr => [F.accessErr_addr, F.accessErr_origin, F.accessErr_kind, F.accessErr_count, F.accessErr_valid]
  | .hubAssistCfg => [F.hubAssistCfg_base, F.hubAssistCfg_log2, F.hubAssistCfg_cq, F.hubAssistCfg_enable]
  | .hubAssistStat => [F.hubAssistStat_nextId, F.hubAssistStat_pending, F.hubAssistStat_fullMisses]
  | .hubAssistReply => [F.hubAssistReply_id, F.hubAssistReply_verdict, F.hubAssistReply_data]
  | .hubHostcfg => [F.hubHostcfg_dual]
  | .hubBar2Win => [F.hubBar2Win_base, F.hubBar2Win_tagEn, F.hubBar2Win_jobTag]
  | .hubFbentry => [F.hubFbentry_entry]
  | .hubFbctrl => [F.hubFbctrl_run, F.hubFbctrl_jobTag, F.hubFbctrl_state]
  | .hubMgmt => [F.hubMgmt_staticAddr, F.hubMgmt_dynAddr, F.hubMgmt_dynValid, F.hubMgmt_eid]
  | .clkStat => [F.clkStat_freq, F.clkStat_target, F.clkStat_changing, F.clkStat_stretched, F.clkStat_refSel, F.clkStat_changes, F.clkStat_stretches]
  | .clkDroop => [F.clkDroop_threshold, F.clkDroop_hold]
  | .timNow => [F.timNow_now]
  | .timSync => [F.timSync_lastErr, F.timSync_outOfBound, F.timSync_beacons]
  | .timRate => [F.timRate_rate]
  | .timPps => [F.timPps_inEn, F.timPps_outEn]
  | .timPpsCapt => [F.timPpsCapt_capt]
  | .pwrCtrl => [F.pwrCtrl_floorOp, F.pwrCtrl_napEn, F.pwrCtrl_idleDelay, F.pwrCtrl_napDelay]
  | .pwrLimit => [F.pwrLimit_share]
  | .pwrStat => [F.pwrStat_state, F.pwrStat_op, F.pwrStat_share, F.pwrStat_iIn, F.pwrStat_aborted, F.pwrStat_abortAt]
  | .pwrDeficit => [F.pwrDeficit_reason, F.pwrDeficit_steps, F.pwrDeficit_accum]
  | .pwrContact => [F.pwrContact_baseline, F.pwrContact_measured, F.pwrContact_warn, F.pwrContact_halved, F.pwrContact_crackSuspect, F.pwrContact_rebase]
  | .pwrTemp => [F.pwrTemp_sensors, F.pwrTemp_max, F.pwrTemp_throttling, F.pwrTemp_stops]
  | .pwrOptable => [F.pwrOptable_freq, F.pwrOptable_volt]
  | .hubBudget => [F.hubBudget_budget, F.hubBudget_measured, F.hubBudget_infeasible]
  | .hubForecast => [F.hubForecast_fanReq, F.hubForecast_leadMs]
  | .hubFcHost => [F.hubFcHost_fan, F.hubFcHost_tableEn, F.hubFcHost_table]
  | .hubPstate => [F.hubPstate_standbyReq, F.hubPstate_state, F.hubPstate_abortAt, F.hubPstate_stopThermal, F.hubPstate_stopAirflow]
  | .hubWake => [F.hubWake_source, F.hubWake_detail, F.hubWake_simultaneous, F.hubWake_ignored]
  | .hubWakeTime => [F.hubWakeTime_time]
  | .hubWakeTimer => [F.hubWakeTimer_atT]
  | .pwrUnattr => [F.pwrUnattr_energy]
  | .pwrEnergy => [F.pwrEnergy_energy]
  | .logNodestate => [F.logNodestate_fabric, F.logNodestate_sideband, F.logNodestate_conflict, F.logNodestate_mgmtPath, F.logNodestate_clears, F.logNodestate_probeTime]
  | .logStat => [F.logStat_nextSeq, F.logStat_banksOk, F.logStat_mirrorLost, F.logStat_hostRingOnly, F.logStat_holdupReady, F.logStat_alert, F.logStat_dropped]
  | .logSpill => [F.logSpill_spilledSeq, F.logSpill_unspilled, F.logSpill_flashFail]
  | .logFlashcfg => [F.logFlashcfg_base, F.logFlashcfg_size]
  | .logHring => [F.logHring_base, F.logHring_log2, F.logHring_enable]
  | .logHringHead => [F.logHringHead_head]
  | .logHringTail => [F.logHringTail_tail, F.logHringTail_full]
  | .logLatch0 => [F.logLatch0_time]
  | .logLatch1 => [F.logLatch1_valid, F.logLatch1_hub, F.logLatch1_bank, F.logLatch1_word, F.logLatch1_allFailed, F.logLatch1_count]
  | .hubBoot => [F.hubBoot_step, F.hubBoot_full, F.hubBoot_ready, F.hubBoot_failStep, F.hubBoot_image, F.hubBoot_bridgeSaved, F.hubBoot_stackSaved, F.hubBoot_linkSaved, F.hubBoot_slice, F.hubBoot_updState, F.hubBoot_hours, F.hubBoot_boots]
  | .hubBootctl => [F.hubBootctl_forceFull, F.hubBootctl_computeReset, F.hubBootctl_panelReset, F.hubBootctl_update]
  | .rgnFw => [F.rgnFw_version, F.rgnFw_updating]
  | .hubTally => [F.hubTally_dropped, F.hubTally_intake]
  | .tallyCtrl => [F.tallyCtrl_tallyEn, F.tallyCtrl_countEn]
  | .ringCtrl => [F.ringCtrl_enable, F.ringCtrl_freezeOnUe, F.ringCtrl_freezeOnBreak, F.ringCtrl_classes]
  | .dbgRingSel => [F.dbgRingSel_page, F.dbgRingSel_entry]
  | .dbgRingStat => [F.dbgRingStat_next, F.dbgRingStat_frozen, F.dbgRingStat_missed]
  | .dbgFreeze => [F.dbgFreeze_freeze, F.dbgFreeze_thaw]
  | .dbgBp => [F.dbgBp_enable, F.dbgBp_addr, F.dbgBp_jobTag, F.dbgBp_tagMatch]
  | .dbgBrk => [F.dbgBrk_state, F.dbgBrk_bp, F.dbgBrk_byCtl, F.dbgBrk_code, F.dbgBrk_heldQ, F.dbgBrk_resume, F.dbgBrk_step, F.dbgBrk_stepQ, F.dbgBrk_ctlbrkEn]
  | .dbgMode => [F.dbgMode_debug, F.dbgMode_hostOk]
  | .dbgAcc => [F.dbgAcc_addr, F.dbgAcc_write, F.dbgAcc_go, F.dbgAcc_busy, F.dbgAcc_status]
  | .dbgAccData => [F.dbgAccData_data]
  | .rtrRoute0 => [F.rtrRoute0_aPort0, F.rtrRoute0_aDetour0, F.rtrRoute0_bPort0, F.rtrRoute0_valid0, F.rtrRoute0_suspect0, F.rtrRoute0_retired0, F.rtrRoute0_aPort1, F.rtrRoute0_aDetour1, F.rtrRoute0_bPort1, F.rtrRoute0_valid1, F.rtrRoute0_suspect1, F.rtrRoute0_retired1, F.rtrRoute0_aPort2, F.rtrRoute0_aDetour2, F.rtrRoute0_bPort2, F.rtrRoute0_valid2, F.rtrRoute0_suspect2, F.rtrRoute0_retired2, F.rtrRoute0_aPort3, F.rtrRoute0_aDetour3, F.rtrRoute0_bPort3, F.rtrRoute0_valid3, F.rtrRoute0_suspect3, F.rtrRoute0_retired3]
  | .rtrMap0 => [F.rtrMap0_all]
  | .rtrStackMap0 => [F.rtrStackMap0_all]
  | .rtrPeerMap0 => [F.rtrPeerMap0_edge0, F.rtrPeerMap0_valid0, F.rtrPeerMap0_edge1, F.rtrPeerMap0_valid1, F.rtrPeerMap0_edge2, F.rtrPeerMap0_valid2, F.rtrPeerMap0_edge3, F.rtrPeerMap0_valid3, F.rtrPeerMap0_edge4, F.rtrPeerMap0_valid4, F.rtrPeerMap0_edge5, F.rtrPeerMap0_valid5, F.rtrPeerMap0_edge6, F.rtrPeerMap0_valid6, F.rtrPeerMap0_edge7, F.rtrPeerMap0_valid7]
  | .rtrRoute1 => [F.rtrRoute1_aPort0, F.rtrRoute1_aDetour0, F.rtrRoute1_bPort0, F.rtrRoute1_valid0, F.rtrRoute1_suspect0, F.rtrRoute1_retired0, F.rtrRoute1_aPort1, F.rtrRoute1_aDetour1, F.rtrRoute1_bPort1, F.rtrRoute1_valid1, F.rtrRoute1_suspect1, F.rtrRoute1_retired1, F.rtrRoute1_aPort2, F.rtrRoute1_aDetour2, F.rtrRoute1_bPort2, F.rtrRoute1_valid2, F.rtrRoute1_suspect2, F.rtrRoute1_retired2, F.rtrRoute1_aPort3, F.rtrRoute1_aDetour3, F.rtrRoute1_bPort3, F.rtrRoute1_valid3, F.rtrRoute1_suspect3, F.rtrRoute1_retired3]
  | .rtrMap1 => [F.rtrMap1_all]
  | .rtrStackMap1 => [F.rtrStackMap1_all]
  | .rtrPeerMap1 => [F.rtrPeerMap1_edge0, F.rtrPeerMap1_valid0, F.rtrPeerMap1_edge1, F.rtrPeerMap1_valid1, F.rtrPeerMap1_edge2, F.rtrPeerMap1_valid2, F.rtrPeerMap1_edge3, F.rtrPeerMap1_valid3, F.rtrPeerMap1_edge4, F.rtrPeerMap1_valid4, F.rtrPeerMap1_edge5, F.rtrPeerMap1_valid5, F.rtrPeerMap1_edge6, F.rtrPeerMap1_valid6, F.rtrPeerMap1_edge7, F.rtrPeerMap1_valid7]
  | .blkCounter => [F.blkCounter_count]
  | .blkClear => [F.blkClear_clear]
  | .drvCounter => [F.drvCounter_count]
  | .drvClear => [F.drvClear_clear]
  | .mailbox => [F.mailbox_data]
  | .edgRing => [F.edgRing_data]
  | .dbgRingData => [F.dbgRingData_data]

/-- Where a register lies: its page kind, its byte offset, and the stride and number of its copies in the page. -/
structure Place where
  kind : PageKind
  off : Nat
  stride : Nat
  count : Nat
  deriving DecidableEq, Repr

/-- The place of each register (R394 and the rule of its own table). -/
def Reg.place : Reg → Place
  | .hubGeometry => ⟨.hubMain, 0x100, 0x8, 1⟩
  | .rgnSite => ⟨.rgn, 0x100, 0x8, 1⟩
  | .rtrTimeout => ⟨.rtr, 0x118, 0x8, 1⟩
  | .rtrEpoch => ⟨.rtr, 0x100, 0x8, 1⟩
  | .rtrFlipAt => ⟨.rtr, 0x108, 0x8, 1⟩
  | .rtrArb => ⟨.rtr, 0x110, 0x8, 1⟩
  | .blkNumstat => ⟨.blk, 0x140, 0x8, 1⟩
  | .mxcRoundsCtrl => ⟨.mxc, 0x100, 0x8, 1⟩
  | .mxcRoundsStat => ⟨.mxc, 0x108, 0x8, 1⟩
  | .mxcSlotMap => ⟨.mxc, 0x110, 0x8, 4⟩
  | .mxcRetired => ⟨.mxc, 0x130, 0x8, 1⟩
  | .mxcResidue => ⟨.mxc, 0x138, 0x8, 1⟩
  | .mxcClassify => ⟨.mxc, 0x140, 0x8, 1⟩
  | .mxcCbStat => ⟨.mxc, 0x148, 0x8, 1⟩
  | .vxcCtrl => ⟨.vxc, 0x100, 0x8, 1⟩
  | .vxcStat => ⟨.vxc, 0x108, 0x8, 1⟩
  | .vxcFault => ⟨.vxc, 0x110, 0x8, 1⟩
  | .vxcCheck => ⟨.vxc, 0x118, 0x8, 1⟩
  | .blkPenCfg => ⟨.blk, 0x180, 0x8, 1⟩
  | .blkPenStat => ⟨.blk, 0x188, 0x8, 1⟩
  | .blkPenCount => ⟨.blk, 0x190, 0x8, 1⟩
  | .blkSramErr => ⟨.blk, 0x198, 0x8, 1⟩
  | .drvCfg => ⟨.drv, 0x100, 0x8, 1⟩
  | .drvStat => ⟨.drv, 0x108, 0x8, 1⟩
  | .drvPace => ⟨.drv, 0x110, 0x8, 1⟩
  | .rtrFold => ⟨.rtr, 0x120, 0x8, 1⟩
  | .gtuStat => ⟨.gtu, 0x100, 0x8, 1⟩
  | .drvExpCfg => ⟨.drv, 0x118, 0x8, 1⟩
  | .drvTally => ⟨.drv, 0x120, 0x8, 1⟩
  | .drvSched => ⟨.drv, 0x800, 0x8, 256⟩
  | .hubMemcfg => ⟨.hubMain, 0x108, 0x8, 1⟩
  | .hbmStat => ⟨.hbm, 0x100, 0x8, 1⟩
  | .hbmErr => ⟨.hbm, 0x108, 0x8, 1⟩
  | .hbmScrub => ⟨.hbm, 0x110, 0x8, 1⟩
  | .lnkCtrl => ⟨.lnk, 0x100, 0x20, 5⟩
  | .lnkStat => ⟨.lnk, 0x108, 0x20, 5⟩
  | .lnkPeer => ⟨.lnk, 0x110, 0x20, 5⟩
  | .lnkEth => ⟨.lnk, 0x118, 0x20, 5⟩
  | .lnkTable0 => ⟨.lnkTable, 0x0, 0x20, 128⟩
  | .lnkTable1 => ⟨.lnkTable, 0x8, 0x20, 128⟩
  | .lnkTable2 => ⟨.lnkTable, 0x10, 0x20, 128⟩
  | .lnkTable3 => ⟨.lnkTable, 0x18, 0x20, 128⟩
  | .hubAperture => ⟨.hubMain, 0x200, 0x8, 16⟩
  | .hubPanel => ⟨.hubMain, 0x110, 0x8, 1⟩
  | .hubIncarnation => ⟨.hubMain, 0x118, 0x8, 1⟩
  | .rtrPeerTo => ⟨.rtr, 0x128, 0x8, 1⟩
  | .hubCascade => ⟨.hubMain, 0x800, 0x10, 64⟩
  | .hubCascadeB => ⟨.hubMain, 0x808, 0x10, 64⟩
  | .hubSqcfg => ⟨.hubHost, 0x100, 0x20, 16⟩
  | .hubSqtag => ⟨.hubHost, 0x108, 0x20, 16⟩
  | .hubSqstat => ⟨.hubHost, 0x110, 0x20, 16⟩
  | .hubCqcfg => ⟨.hubHost, 0x300, 0x20, 16⟩
  | .hubCqstat => ⟨.hubHost, 0x310, 0x20, 16⟩
  | .hubFwin => ⟨.hubFence, 0x100, 0x10, 8⟩
  | .hubFlim => ⟨.hubFence, 0x108, 0x10, 8⟩
  | .hubFcfg => ⟨.hubFence, 0x200, 0x8, 1⟩
  | .hubFstat => ⟨.hubFence, 0x208, 0x8, 1⟩
  | .unitId => ⟨.header, 0x0, 0x8, 1⟩
  | .unitCap => ⟨.header, 0x8, 0x8, 1⟩
  | .unitCtrl => ⟨.header, 0x10, 0x8, 1⟩
  | .unitStat => ⟨.header, 0x18, 0x8, 1⟩
  | .errStat => ⟨.header, 0x20, 0x8, 1⟩
  | .errMask => ⟨.header, 0x28, 0x8, 1⟩
  | .errFirst => ⟨.header, 0x30, 0x8, 1⟩
  | .errInject => ⟨.header, 0x38, 0x8, 1⟩
  | .dutyMode => ⟨.header, 0x40, 0x8, 1⟩
  | .logCtrl => ⟨.header, 0x48, 0x8, 1⟩
  | .lock => ⟨.header, 0x60, 0x8, 1⟩
  | .accessErr => ⟨.header, 0x68, 0x8, 1⟩
  | .hubAssistCfg => ⟨.hubMain, 0x300, 0x8, 1⟩
  | .hubAssistStat => ⟨.hubMain, 0x308, 0x8, 1⟩
  | .hubAssistReply => ⟨.hubMain, 0x310, 0x8, 1⟩
  | .hubHostcfg => ⟨.hubHost, 0x500, 0x8, 1⟩
  | .hubBar2Win => ⟨.hubHost, 0x508, 0x8, 1⟩
  | .hubFbentry => ⟨.fallback, 0x100, 0x10, 8⟩
  | .hubFbctrl => ⟨.fallback, 0x108, 0x10, 8⟩
  | .hubMgmt => ⟨.hubMgmt, 0x100, 0x8, 1⟩
  | .clkStat => ⟨.clk, 0x100, 0x8, 1⟩
  | .clkDroop => ⟨.clk, 0x108, 0x8, 1⟩
  | .timNow => ⟨.tim, 0x100, 0x8, 1⟩
  | .timSync => ⟨.tim, 0x108, 0x8, 1⟩
  | .timRate => ⟨.tim, 0x110, 0x8, 1⟩
  | .timPps => ⟨.tim, 0x118, 0x8, 1⟩
  | .timPpsCapt => ⟨.tim, 0x120, 0x8, 1⟩
  | .pwrCtrl => ⟨.pwr, 0x100, 0x8, 1⟩
  | .pwrLimit => ⟨.pwr, 0x108, 0x8, 1⟩
  | .pwrStat => ⟨.pwr, 0x110, 0x8, 1⟩
  | .pwrDeficit => ⟨.pwr, 0x118, 0x8, 1⟩
  | .pwrContact => ⟨.pwr, 0x120, 0x8, 1⟩
  | .pwrTemp => ⟨.pwr, 0x128, 0x8, 1⟩
  | .pwrOptable => ⟨.pwr, 0x200, 0x8, 16⟩
  | .hubBudget => ⟨.hubMain, 0x120, 0x8, 1⟩
  | .hubForecast => ⟨.hubMain, 0x128, 0x8, 1⟩
  | .hubFcHost => ⟨.hubMain, 0x130, 0x8, 1⟩
  | .hubPstate => ⟨.hubMain, 0x138, 0x8, 1⟩
  | .hubWake => ⟨.hubMain, 0x140, 0x8, 1⟩
  | .hubWakeTime => ⟨.hubMain, 0x148, 0x8, 1⟩
  | .hubWakeTimer => ⟨.hubMain, 0x150, 0x8, 1⟩
  | .pwrUnattr => ⟨.pwrHub, 0x100, 0x8, 1⟩
  | .pwrEnergy => ⟨.pwrHub, 0x800, 0x8, 64⟩
  | .logNodestate => ⟨.log, 0x400, 0x8, 182⟩
  | .logStat => ⟨.log, 0x100, 0x8, 1⟩
  | .logSpill => ⟨.log, 0x108, 0x8, 1⟩
  | .logFlashcfg => ⟨.log, 0x110, 0x8, 1⟩
  | .logHring => ⟨.log, 0x118, 0x8, 1⟩
  | .logHringHead => ⟨.log, 0x120, 0x8, 1⟩
  | .logHringTail => ⟨.log, 0x128, 0x8, 1⟩
  | .logLatch0 => ⟨.log, 0x130, 0x8, 1⟩
  | .logLatch1 => ⟨.log, 0x138, 0x8, 1⟩
  | .hubBoot => ⟨.hubMain, 0x158, 0x8, 1⟩
  | .hubBootctl => ⟨.hubMain, 0x160, 0x8, 1⟩
  | .rgnFw => ⟨.rgn, 0x108, 0x8, 1⟩
  | .hubTally => ⟨.hubMain, 0x168, 0x8, 1⟩
  | .tallyCtrl => ⟨.header, 0x50, 0x8, 1⟩
  | .ringCtrl => ⟨.header, 0x58, 0x8, 1⟩
  | .dbgRingSel => ⟨.dbg, 0x140, 0x8, 1⟩
  | .dbgRingStat => ⟨.dbg, 0x148, 0x8, 1⟩
  | .dbgFreeze => ⟨.dbg, 0x180, 0x8, 1⟩
  | .dbgBp => ⟨.dbg, 0x200, 0x8, 16⟩
  | .dbgBrk => ⟨.dbg, 0x280, 0x8, 4⟩
  | .dbgMode => ⟨.dbg, 0x100, 0x8, 1⟩
  | .dbgAcc => ⟨.dbg, 0x108, 0x8, 1⟩
  | .dbgAccData => ⟨.dbg, 0x110, 0x8, 1⟩
  | .rtrRoute0 => ⟨.rtr, 0x400, 0x8, 46⟩
  | .rtrMap0 => ⟨.rtr, 0x800, 0x8, 18⟩
  | .rtrStackMap0 => ⟨.rtr, 0x8a0, 0x8, 3⟩
  | .rtrPeerMap0 => ⟨.rtr, 0xa00, 0x8, 32⟩
  | .rtrRoute1 => ⟨.rtr, 0x600, 0x8, 46⟩
  | .rtrMap1 => ⟨.rtr, 0x900, 0x8, 18⟩
  | .rtrStackMap1 => ⟨.rtr, 0x9a0, 0x8, 3⟩
  | .rtrPeerMap1 => ⟨.rtr, 0xb00, 0x8, 32⟩
  | .blkCounter => ⟨.blk, 0x400, 0x8, 17⟩
  | .blkClear => ⟨.blk, 0x488, 0x8, 1⟩
  | .drvCounter => ⟨.drv, 0x200, 0x8, 6⟩
  | .drvClear => ⟨.drv, 0x230, 0x8, 1⟩
  | .mailbox => ⟨.mailbox, 0x100, 0x8, 66⟩
  | .edgRing => ⟨.edg, 0x800, 0x8, 256⟩
  | .dbgRingData => ⟨.dbg, 0x150, 0x8, 4⟩

/-- All registers. -/
def allRegs : List Reg :=
  [.hubGeometry, .rgnSite, .rtrTimeout, .rtrEpoch, .rtrFlipAt, .rtrArb, .blkNumstat, .mxcRoundsCtrl, .mxcRoundsStat, .mxcSlotMap, .mxcRetired, .mxcResidue, .mxcClassify, .mxcCbStat, .vxcCtrl, .vxcStat, .vxcFault, .vxcCheck, .blkPenCfg, .blkPenStat, .blkPenCount, .blkSramErr, .drvCfg, .drvStat, .drvPace, .rtrFold, .gtuStat, .drvExpCfg, .drvTally, .drvSched] ++
  [.hubMemcfg, .hbmStat, .hbmErr, .hbmScrub, .lnkCtrl, .lnkStat, .lnkPeer, .lnkEth, .lnkTable0, .lnkTable1, .lnkTable2, .lnkTable3, .hubAperture, .hubPanel, .hubIncarnation, .rtrPeerTo, .hubCascade, .hubCascadeB, .hubSqcfg, .hubSqtag, .hubSqstat, .hubCqcfg, .hubCqstat, .hubFwin, .hubFlim, .hubFcfg, .hubFstat, .unitId, .unitCap, .unitCtrl] ++
  [.unitStat, .errStat, .errMask, .errFirst, .errInject, .dutyMode, .logCtrl, .lock, .accessErr, .hubAssistCfg, .hubAssistStat, .hubAssistReply, .hubHostcfg, .hubBar2Win, .hubFbentry, .hubFbctrl, .hubMgmt, .clkStat, .clkDroop, .timNow, .timSync, .timRate, .timPps, .timPpsCapt, .pwrCtrl, .pwrLimit, .pwrStat, .pwrDeficit, .pwrContact, .pwrTemp] ++
  [.pwrOptable, .hubBudget, .hubForecast, .hubFcHost, .hubPstate, .hubWake, .hubWakeTime, .hubWakeTimer, .pwrUnattr, .pwrEnergy, .logNodestate, .logStat, .logSpill, .logFlashcfg, .logHring, .logHringHead, .logHringTail, .logLatch0, .logLatch1, .hubBoot, .hubBootctl, .rgnFw, .hubTally, .tallyCtrl, .ringCtrl, .dbgRingSel, .dbgRingStat, .dbgFreeze, .dbgBp, .dbgBrk] ++
  [.dbgMode, .dbgAcc, .dbgAccData, .rtrRoute0, .rtrMap0, .rtrStackMap0, .rtrPeerMap0, .rtrRoute1, .rtrMap1, .rtrStackMap1, .rtrPeerMap1, .blkCounter, .blkClear, .drvCounter, .drvClear, .mailbox, .edgRing, .dbgRingData]

end Sys2Proof.Machine
end

