-- ==== Sys2Proof/Machine/Types.lean ====
section
/-!
DEFINITION. The panel-wide vocabulary: status codes (R5), severities (R481), packets (R53-R54), log entries (R423, R500),
the messages the panel sends to outside parties.
-/
namespace Sys2Proof.Machine

/-- The status codes of R5. -/
inductive Status where
  | done | poisoned | penFull | penLate | targetResetting | targetRetired | routeNone | epochStale | lingerExpired
  | peerChanged | fenceDenied | accessFault | timeout | cancelled | capacityDropped
  deriving DecidableEq, Repr

/-- The 4-bit code of a status (R5). -/
def Status.code : Status → Nat
  | .done => 0 | .poisoned => 1 | .penFull => 2 | .penLate => 3 | .targetResetting => 4 | .targetRetired => 5
  | .routeNone => 6 | .epochStale => 7 | .lingerExpired => 8 | .peerChanged => 9 | .fenceDenied => 10
  | .accessFault => 11 | .timeout => 12 | .cancelled => 13 | .capacityDropped => 14

/-- The status a code names (R5); 0xF is never written. -/
def Status.ofCode : Nat → Option Status
  | 0 => some .done | 1 => some .poisoned | 2 => some .penFull | 3 => some .penLate | 4 => some .targetResetting
  | 5 => some .targetRetired | 6 => some .routeNone | 7 => some .epochStale | 8 => some .lingerExpired
  | 9 => some .peerChanged | 10 => some .fenceDenied | 11 => some .accessFault | 12 => some .timeout
  | 13 => some .cancelled | 14 => some .capacityDropped | _ => none

/-- Of two conditions of one command found in the same cycle, the one with the higher code is reported (R7). -/
def Status.worse (a b : Status) : Status := if a.code < b.code then b else a

/-- The severities of R481. -/
inductive Severity where
  | ce | de | ueUnit | uePanel
  deriving DecidableEq, Repr

/-- The ERR_FIRST encoding of a severity (R403). -/
def Severity.code : Severity → Nat
  | .ce => 0 | .de => 1 | .ueUnit => 2 | .uePanel => 3

/-- The packet operations of R54. -/
inductive PktOp where
  | write | readReq | readData | completion | penReq | penGrant | penPut | penRelease | atomicAdd | droveTile | foldPart
  | hurdleArrive | hurdleRelease | control | mgmt | mgmtReply
  deriving DecidableEq, Repr

/-- The class each operation belongs to (R54). -/
def PktOp.cls : PktOp → Nat
  | .write | .readReq | .penReq | .penPut | .penRelease | .atomicAdd => 2
  | .readData | .completion | .penGrant => 1
  | .droveTile => 3
  | .foldPart => 4
  | .hurdleArrive | .hurdleRelease | .control => 0
  | .mgmt | .mgmtReply => 5

/-- A packet: the header fields of R53 and the payload. The two CRC fields are carried as whether they check
(R49, R53 give the polynomials and not the register conventions: log entry 7). `reserved` holds the header's reserved bits,
0 in every packet R55 admits. `pairGuest` and `pairPeer` say which proxy issued it (SRC_UNIT classes of R410). -/
structure Packet where
  op : PktOp
  cls : Nat
  vch : Nat := 0
  epoch : Nat := 0
  len : Nat := 0
  mcast : Bool := false
  poison : Bool := false
  reserved : Nat := 0
  dest : Nat := 0
  src : Nat := 0
  jobTag : Nat := 0
  prio : Nat := 0
  srcUnit : Nat := 0
  txn : Nat := 0
  addr : Nat := 0
  status : Nat := 0
  mcMask : Nat := 0
  mcAxis : Nat := 0
  mcDir : Nat := 0
  hops : Nat := 0
  detoured : Bool := false
  oparg0 : Nat := 0
  oparg1 : Nat := 0
  injTime : Nat := 0
  byteMask : Nat := 2 ^ 64 - 1
  /-- on the way to or from a link: destination panel, source panel, transit panels passed (R335) -/
  link : Option (Nat × Nat × Nat) := none
  hdrOk : Bool := true
  e2eOk : Bool := true
  payload : List Byte := []
  deriving DecidableEq, Repr

/-- A 32-byte log record: the four words of a change record (R423) or of a fault-log entry (R500). `signal` says that the
report raises the signals of its severity (R402). -/
structure LogEntry where
  w0 : Nat := 0
  w1 : Nat := 0
  w2 : Nat := 0
  w3 : Nat := 0
  signal : Bool := false
  deriving DecidableEq, Repr

/-- KIND of a log record, bits [230:227] (R423, R500). -/
def LogEntry.kind (e : LogEntry) : Nat := bits e.w3 35 4

/-- SEQ of a log record, bits [223:192] (R423, R500). -/
def LogEntry.seq (e : LogEntry) : Nat := bits e.w3 0 32

/-- SEVERITY of a fault-log entry, bits [125:124] (R500). -/
def LogEntry.severity (e : LogEntry) : Nat := bits e.w1 60 2

/-- A record of kind 0x8 or above is a fault-log entry; 0x0 to 0x4 are change records (R501). -/
def LogEntry.isFault (e : LogEntry) : Bool := 8 ≤ e.kind

/-- A link packet (R335): a fabric packet with the panels of its destination and source and the transit panels passed. -/
structure LinkPacket where
  pkt : Packet
  dest : Nat
  src : Nat
  transit : Nat := 0
  deriving DecidableEq, Repr

/-- What a HURDLE or PACE frame says of a job (R354-R357). -/
inductive CascadeMsg where
  /-- JOIN with the digest of the member list -/
  | join (digest : Nat)
  /-- a member's arrival at a generation of a job hurdle -/
  | arrive (id gen : Nat) (cancel : Bool)
  | release (id gen : Nat) (st : Status)
  | abort (st : Status)
  /-- a member's pace report with its reason code, and the bellwether's setting with its effective time -/
  | paceReport (pace reason : Nat)
  | paceSet (pace time : Nat)
  deriving DecidableEq, Repr

/-- What a frame carries (R334). A DATA frame carries the link packets that end in it (log entry 10). -/
inductive FrameBody where
  | idle
  | data (cls : Nat) (packets : List LinkPacket)
  | hurdle (dest src tag : Nat) (m : CascadeMsg)
  | pace (dest src tag : Nat) (m : CascadeMsg)
  /-- depth from the source, the source's ID, the timestamps t1 to t4 as the receiver has them -/
  | time (depth source t1 t2 t3 t4 : Nat)
  | train (panel : Nat) (incarnation : Nat) (session last lanes mode : Nat)
  | down
  | reserved
  deriving DecidableEq, Repr

/-- A frame (R333). -/
structure Frame where
  creditClass : Nat := 0
  creditCount : Nat := 0
  nak : Bool := false
  seq : Nat := 0
  ack : Nat := 0
  crcOk : Bool := true
  body : FrameBody := .idle
  deriving DecidableEq, Repr

/-- KIND of a frame (R334). -/
def FrameBody.kind : FrameBody → Nat
  | .idle => 0 | .data c _ => c | .hurdle .. => 6 | .pace .. => 7 | .time .. => 8 | .train .. => 9 | .down => 10 | .reserved => 15

/-- Sequenced and retried kinds (R334). -/
def FrameBody.sequenced : FrameBody → Bool
  | .data .. | .hurdle .. | .pace .. | .down => true
  | _ => false

/-- A UDP datagram of an Ethernet bundle (R344-R345): destination MAC, 802.1Q priority and VLAN where it is tagged, IPv6 addresses and hop limit, flow
label, UDP ports, its header and its frames. -/
structure Datagram where
  mac : Nat := 0
  vlan : Option (Nat × Nat) := none
  srcIp : Nat := 0
  destIp : Nat := 0
  hopLimit : Nat := 64
  trafficClass : Nat := 0
  flowLabel : Nat := 0
  srcPort : Nat := 0
  destPort : Nat := 0
  magic : Nat := 0xD41E
  reserved : Nat := 0
  src : Nat
  dest : Nat
  incarnation : Nat
  frames : List Frame
  deriving DecidableEq, Repr

/-- What the panel sends to parties outside it: MSI-X vectors (R385), bytes of an answer on the management sideband
(R416-R417), answers to host requests (R374-R375), interrupts to the guest (R391), a RAIL frame (R553), a link frame or
datagram (R333, R345). -/
inductive OutMsg where
  | vector (hub v : Nat)
  | mgmtAnswer (bytes : List Byte)
  | hostRead (hub : Nat) (tag : Nat) (bytes : List Byte)
  | hostError (hub : Nat) (tag : Nat) (completerAbort : Bool)
  | hostPoisoned (hub : Nat) (tag : Nat) (bytes : List Byte)
  /-- a write of poisoned data to host memory, with the TLP poisoned bit set (R482) -/
  | hostPoison (hub a n : Nat)
  /-- a zero-length read that pushes an endpoint's posted writes ahead (R377) -/
  | hostPush (hub : Nat)
  | guestInterrupt (hub : Nat)
  | guestReply (hub : Nat) (pkt : Packet)
  | guestReset (hub : Nat)
  | railFrame (node : Nat) (frame : Nat)
  | frame (node bundle : Nat) (f : Frame)
  | datagram (node bundle : Nat) (d : Datagram)
  | knock (node bundle : Nat)
  | ppsOut (hub : Nat)
  | platformEvent (bytes : List Byte)
  deriving DecidableEq, Repr

/-- A reference to a vector thread: node, block, vector cell, thread entry of the cell (R148). -/
structure ThreadRef where
  node : Nat
  blk : Nat
  cell : Nat
  entry : Nat
  deriving DecidableEq, Repr

/-- A reference to a command queue: node, block, engine (MXE 0, VXE 1, MVE 2, GTE 3, CTL 4; DVE 5 on an edge die), queue
number (R217). -/
structure QueueRef where
  node : Nat
  blk : Nat
  eng : Nat
  queue : Nat
  deriving DecidableEq, Repr

/-- Blocks by number: four to a region node. -/
def blockKey (node b : Nat) : Nat := node * 4 + b

/-- Queues by number. -/
def QueueRef.key (q : QueueRef) : Nat := ((q.node * 4 + q.blk) * 8 + q.eng) * 4 + q.queue

/-- Threads by number: 256 entries to a cell, 14 cells to a block. -/
def ThreadRef.key (t : ThreadRef) : Nat := (blockKey t.node t.blk * 14 + t.cell) * 256 + t.entry

end Sys2Proof.Machine
end

