-- ==== Sys2Proof/Machine/Memory.lean ====
section
/-!
DEFINITION. The panel's storage, one byte per physical location, in one canonical form, and the operations over it. Keys:
stack s at s * 0x6_0000_0000; the scratchpads of node n, block b at 0x1000_0000_0000 + n * 0x1000_0000 + b * 0x400_0000 in
the block-window layout of R38; host memory at 0x3000_0000_0000 (R41).
-/
namespace Sys2Proof.Machine

/-- A range whose contents the spec calls undefined: its first key, its length, the draw its bytes are taken from. -/
structure UndefRange where
  lo : Nat
  len : Nat
  draw : Nat
  deriving DecidableEq, Repr

/-- Storage. `cells` lists the bytes that are not 0, keys strictly rising; `undef` the ranges whose bytes are free values;
`poison` the base keys of granules that carry a poison mark (R191, R318); `latent` the granules that hold a latent error,
with whether it is a double-bit (uncorrectable) one. -/
structure Mem where
  cells : List Host.Cell := []
  undef : List UndefRange := []
  poison : List Nat := []
  latent : List (Nat × Bool) := []
  deriving DecidableEq, Repr

/-- The draw of the first undefined range that holds key `a`. -/
def undefDraw : List UndefRange → Nat → Option Nat
  | [], _ => none
  | r :: rest, a => if r.lo ≤ a ∧ a < r.lo + r.len then some r.draw else undefDraw rest a

/-- The cell listed at key `a`. -/
def cellAt : List Host.Cell → Nat → Option Byte
  | [], _ => none
  | (k, v) :: rest, a => if a = k then some v else cellAt rest a

/-- What a byte reads as: the listed value, else a free value in an undefined range, else 0 (log entry 1). -/
def Mem.byte (m : Mem) (a : Nat) : Byte :=
  match cellAt m.cells a with
  | some v => v
  | none => match undefDraw m.undef a with
    | some d => Config.freeByte d a
    | none => 0

/-- List `v` at key `a`, or unlist `a` where `v` is 0. -/
def putCell : List Host.Cell → Nat → Byte → List Host.Cell
  | [], a, v => if v = 0 then [] else [(a, v)]
  | (k, w) :: rest, a, v =>
    if a < k then (if v = 0 then (k, w) :: rest else (a, v) :: (k, w) :: rest)
    else if a = k then (if v = 0 then rest else (k, v) :: rest)
    else (k, w) :: putCell rest a v

/-- What is left of a range outside [lo, hi). -/
def UndefRange.cut (r : UndefRange) (lo hi : Nat) : List UndefRange :=
  if r.lo + r.len ≤ lo ∨ hi ≤ r.lo then [r]
  else (if r.lo < lo then [⟨r.lo, lo - r.lo, r.draw⟩] else []) ++ (if hi < r.lo + r.len then [⟨hi, r.lo + r.len - hi, r.draw⟩] else [])

/-- Take the keys [lo, hi) out of the undefined ranges. -/
def define (lo hi : Nat) : List UndefRange → List UndefRange
  | [] => []
  | r :: rest => r.cut lo hi ++ define lo hi rest

/-- Write one byte. -/
def Mem.putByte (m : Mem) (a : Nat) (v : Byte) : Mem :=
  { m with cells := putCell m.cells a v, undef := define a (a + 1) m.undef }

/-- The `n` bytes from key `a`. -/
def Mem.read (m : Mem) (a : Nat) : Nat → List Byte
  | 0 => []
  | n + 1 => m.byte a :: m.read (a + 1) n

/-- Write a list of bytes from key `a`. -/
def Mem.write (m : Mem) (a : Nat) : List Byte → Mem
  | [] => m
  | v :: rest => (m.putByte a v).write (a + 1) rest

/-- Write the bytes whose enable is set, from key `a`. -/
def Mem.writeMasked (m : Mem) (a : Nat) : List (Byte × Bool) → Mem
  | [] => m
  | (v, true) :: rest => (m.putByte a v).writeMasked (a + 1) rest
  | (_, false) :: rest => m.writeMasked (a + 1) rest

/-- The `n`-byte little-endian number at key `a`. -/
def Mem.num (m : Mem) (a n : Nat) : Nat := leNat (m.read a n)

/-- Make the contents of [lo, lo+len) a free value. -/
def Mem.undefine (m : Mem) (lo len draw : Nat) : Mem :=
  { m with cells := m.cells.filter (fun c => c.1 < lo || lo + len ≤ c.1), undef := ⟨lo, len, draw⟩ :: m.undef }

/-- Zero [lo, lo+len) and clear its poison marks. -/
def Mem.zero (m : Mem) (lo len : Nat) : Mem :=
  { cells := m.cells.filter (fun c => c.1 < lo || lo + len ≤ c.1)
    undef := define lo (lo + len) m.undef
    poison := m.poison.filter (fun p => p < lo || lo + len ≤ p)
    latent := m.latent.filter (fun p => p.1 < lo || lo + len ≤ p.1) }

/-- The size of a poison granule at key `a`: a 32-byte sector in the stacks (R318), an 8-byte word elsewhere (R191). -/
def granule (a : Nat) : Nat := if a < 0x100000000000 then 32 else 8

/-- The base of the granule that holds key `a`. -/
def granuleBase (a : Nat) : Nat := a / granule a * granule a

/-- The bases of the granules that [a, a+n) touches. -/
def granulesOf (a n : Nat) : List Nat :=
  if n = 0 then [] else
    (List.range ((a + n - 1) / granule a - a / granule a + 1)).map fun i => (a / granule a + i) * granule a

/-- Some granule of [a, a+n) carries a poison mark. -/
def Mem.poisoned (m : Mem) (a n : Nat) : Bool := (granulesOf a n).any fun g => m.poison.contains g

/-- Mark the granules of [a, a+n) poisoned. -/
def Mem.mark (m : Mem) (a n : Nat) : Mem :=
  { m with poison := m.poison.filter (fun g => !(granulesOf a n).contains g) ++ granulesOf a n }

/-- Clear the marks of the granules of [a, a+n). -/
def Mem.unmark (m : Mem) (a n : Nat) : Mem :=
  { m with poison := m.poison.filter fun g => !(granulesOf a n).contains g }

/-- The cells' keys are at least `lo`, strictly rising, no value is 0, and no key lies in an undefined range. -/
def cellsWf (u : List UndefRange) : Nat → List Host.Cell → Bool
  | _, [] => true
  | lo, (k, v) :: rest => decide (lo ≤ k) && decide (v ≠ 0) && (undefDraw u k).isNone && cellsWf u (k + 1) rest

/-- The canonical form of memory: no listed byte equals what its address reads as when it is not listed. -/
def Mem.wf (m : Mem) : Bool := cellsWf m.undef 0 m.cells

end Sys2Proof.Machine
end

