-- ==== Sys2Proof/Machine/PanelTypes.lean ====
section
/-!
DEFINITION. The plain-data parts of the state that lie outside a block's cells: routers, requests in flight, bridges and
flit lanes, pens, the log, node probes.
-/
namespace Sys2Proof.Machine

/-- Who waits for the reply to a C2 request. -/
inductive Purpose where
  /-- Nobody beside the requester's router: the requester only learns the status. -/
  | plain
  /-- A VLDR of a thread of a launch, and the vector register its 128 bytes go to (R156). -/
  | threadRead (t : ThreadRef) (launch vd : Nat)
  /-- A VSTR or VPUT of a thread of a launch, and its instruction index (R154). -/
  | threadWrite (t : ThreadRef) (launch pc : Nat)
  /-- A SATOMR of a thread of a launch. -/
  | threadAtomic (t : ThreadRef) (launch : Nat)
  /-- An MVE_PEN_REQ of a block's move engine (R202). -/
  | penQueue (q : QueueRef)
  /-- A packet of a command in flight, by its queue's record number: MVE_PEN_PUT, MVE_BCAST, GTE_DISPATCH, GTE_TALLY, a fold's result. -/
  | engine (q : QueueRef) (cmd : Nat)
  /-- A part of a peer's memory that a move command reads: where it stands, and where it goes, pens or not. -/
  | copy (q : QueueRef) (cmd src : Nat) (dsts : List Nat) (pen : Bool)
  /-- A pen request a hub made for its fall-back cores or for host software (R202). -/
  | penHub (hub : Nat)
  /-- A PEN_RELEASE of a move engine (R206, R211). -/
  | penRelease (q : QueueRef)
  /-- A PEN_RELEASE a hub sent. -/
  | penReleaseHub (hub : Nat)
  /-- A PEN_RELEASE the router sends on its own for a pen nobody holds (R202, R210). -/
  | penOrphan
  /-- A load, store or atomic of SX; the destination register and access size of a load (R177). -/
  | sx (node blk launch : Nat) (rd : Option Nat) (fp : Bool) (size : Nat) (signed : Bool)
  /-- A link read of a drove stream: sequence, job tag, stream offset (R255). -/
  | drove (seq tag off : Nat)
  /-- A request proxied for a guest (R388). -/
  | guest (hub : Nat) (unit txn : Nat)
  /-- A request proxied for a peer: the edge die's proxy entry (R350). -/
  | peer (edge entry : Nat)
  /-- A pen request proxied for a peer (R351). -/
  | peerPen (edge proxy : Nat)
  /-- A host access through BAR2 (R374): the host's tag. -/
  | host (hub tag : Nat)
  /-- A mirror write: the write whose completion waits for it (R317). -/
  | mirror (orig : Packet)
  /-- A register access of the management sideband or of the DBG_ window. -/
  | mgmt (unit : Nat)
  deriving DecidableEq, Repr

/-- An outstanding C2 or C5 request at its requester's router (R70). -/
structure Request where
  node : Nat
  txn : Nat
  purpose : Purpose
  op : PktOp
  dest : Nat
  unit : Nat
  tag : Nat
  addr : Nat
  time : Nat
  deriving DecidableEq, Repr

/-- A packet in a router's input buffer (R52, R56), or on its way over the bridge to it. Times are those of State.fabricTime. -/
structure Buffered where
  pkt : Packet
  /-- the earliest time at which it leaves -/
  ready : Nat
  /-- the bridge direction and flit-lane its flits come over; none once they have come, and for one injected here -/
  via : Option (Nat × Nat × Nat) := none
  deriving DecidableEq, Repr

/-- An output port's arbiter (R58-R59): the deficit of each class C1 to C5 in flits, the class (0 for C1) it served last, and the C0 flits it has sent
within the last 256 cycles: (time, flits). -/
structure OutPort where
  deficit : List Nat := [0, 0, 0, 0, 0]
  served : Nat := 4
  c0 : List (Nat × Nat) := []
  deriving DecidableEq, Repr

/-- A router: what is in none of its registers. -/
structure Router where
  /-- input buffers, oldest first, under inputKey: an input port, a class and a channel (R56) -/
  inputs : Sparse (List Buffered) := []
  /-- arbiters by output port (R59) -/
  outs : Sparse OutPort := []
  /-- port status (R50, R81): 0 full width, 1 half, 2 down -/
  ports : Sparse Nat := []
  /-- packets held in the ejection reservoir while the core cannot accept them (R46, R69) -/
  reservoir : List Packet := []
  /-- FOLD_PART packets held in fold buffers (R79) -/
  foldBufs : List Packet := []
  /-- replies dropped for a region in reset (R69) -/
  orphans : Nat := 0
  /-- fabric cycles C0 packets waited under the policer (R58) -/
  c0Stalls : Nat := 0
  /-- multicast copies discarded for want of an ACTIVE member (R76) -/
  mcastDiscards : Nat := 0
  /-- panel time of each bank's most recent activation (R72) -/
  activation0 : Nat := 0
  activation1 : Nat := 0
  /-- a flip is scheduled at RTR_FLIP_AT and has not yet occurred (R74) -/
  flipPending : Bool := false
  /-- timeouts counted against a destination: (destination, panel time) (R70) -/
  timeouts : List (Nat × Nat) := []
  /-- the hub node whose packets this router discards after a takeover (R496) -/
  fenced : Option Nat := none
  /-- this router's panel time less the master's (R435) -/
  timeOff : Int := 0
  /-- what a received beacon still has to add over its 16 µs (R435) -/
  correction : Int := 0
  deriving DecidableEq, Repr

/-- One direction of a bridge (R49, R50, R65), named by its sending router and output port. -/
structure BridgeDir where
  /-- wire groups retired -/
  retired : List Nat := []
  /-- spare wires used in a group: (group, wire replaced) -/
  replaced : List (Nat × Nat) := []
  /-- errors charged: (group, wire, panel time) -/
  charges : List (Nat × Nat × Nat) := []
  /-- retraining after four bad resends -/
  retraining : Bool := false
  /-- retraining failed, or fewer groups than half width needs -/
  failed : Bool := false
  /-- a wire is being replaced: the direction pauses until (R65) -/
  paused : Nat := 0
  deriving DecidableEq, Repr

/-- One flit-lane of a bridge direction, or of a local port (R45, R49, R64). Flits are the 558 bits the lane carries in a cycle. -/
structure FlitLane where
  /-- the lane carries a packet until (State.fabricTime) -/
  busy : Nat := 0
  /-- sequence number of the next new flit -/
  next : Nat := 0
  /-- sequence number the receiver expects -/
  expected : Nat := 0
  /-- the sender's retry buffer, at most 64 flits: (sequence number, flit, the time it arrives) -/
  retry : List (Nat × Nat × Nat) := []
  /-- the bad copy the receiver keeps until the resent copy is good -/
  bad : Option Nat := none
  /-- a nak is on its way to the sender, with the expected number -/
  nak : Option Nat := none
  /-- how often the awaited flit has been resent -/
  resends : Nat := 0
  deriving DecidableEq, Repr

/-- A bundle of an edge die, beside its registers (R336-R343). -/
structure Bundle where
  /-- what has not been sent, oldest first: control frames, and DATA bodies of one link packet each -/
  queue : List FrameBody := []
  /-- bytes that earlier frames have carried of the oldest packet of C1-C5 (R334) -/
  part : List Nat := [0, 0, 0, 0, 0]
  /-- the choice among the DATA classes (R334) -/
  arb : OutPort := {}
  /-- the retry store: (SEQ, frame), oldest first (R337) -/
  retry : List (Nat × FrameBody) := []
  nextSeq : Nat := 0
  /-- next SEQ expected, and whether a NAK has been returned for the present gap -/
  expect : Nat := 0
  naked : Bool := false
  /-- credits held for C1-C5 and for the control kinds -/
  credit : List Nat := [384, 384, 384, 384, 384, 128]
  /-- resends of the oldest unacknowledged frame since ACK last advanced, and when it did -/
  resent : Nat := 0
  ackAt : Nat := 0
  /-- panel times of flaps (R338-R339) -/
  flaps : List Nat := []
  /-- panel time the present linger began; none outside LINGER and the retraining it leads to -/
  linger : Option Nat := none
  /-- settings saved for fast training; the training under way is full training -/
  saved : Bool := false
  full : Bool := false
  /-- a DOWN has been sent or received, and its session is kept (R343) -/
  down : Bool := false
  /-- frames have waited in LISTEN since (R343) -/
  wakeSince : Option Nat := none
  /-- both ends' sessions and the peer known at the last EXCHANGE -/
  contact : Bool := false
  /-- this end has ended its session since the last EXCHANGE -/
  ended : Bool := false
  /-- credits to return for C1-C5 and the control kinds -/
  owed : List Nat := [0, 0, 0, 0, 0, 0]
  /-- frames of C1-C5 received since a packet of the class last ended: their credit returns with the packet that they carry -/
  begun : List Nat := [0, 0, 0, 0, 0]
  /-- link packets in the receive buffer that wait to be checked, proxied or sent on, with the credit each returns when it leaves (R336, R350) -/
  inbox : List (LinkPacket × Nat) := []
  /-- an assist has been asked before full training (R419 function 7) -/
  asking : Bool := false
  /-- panel time of the last knock sent (R343) -/
  knock : Option Nat := none
  /-- the peer's depth from the time source and the source's ID, as last advertised; panel time of the last exchange (R358) -/
  time : Option (Nat × Nat) := none
  timeAt : Option Nat := none
  deriving DecidableEq, Repr

/-- An entry of an edge die's proxy table (R350): the requester as its panel named it, and the bundle and session the
request came over. `pen` is the pen proxy that serves it. -/
structure Proxy where
  edge : Nat
  entry : Nat
  bundle : Nat
  panel : Nat
  node : Nat
  unit : Nat
  txn : Nat
  tag : Nat
  addr : Nat
  pen : Option Nat := none
  deriving DecidableEq, Repr

/-- A pen proxy (R351): the remote holder, the local base address once granted, the base it was told. -/
structure PenProxy where
  edge : Nat
  index : Nat
  bundle : Nat
  panel : Nat
  node : Nat
  unit : Nat
  txn : Nat
  tag : Nat
  addr : Nat
  base : Nat := 0
  told : Nat := 0
  units : Nat := 0
  granted : Bool := false
  deriving DecidableEq, Repr

/-- A granted pen (R203-R205): first pool unit, size, holder, job tag, and the logical base address sent. -/
structure Pen where
  first : Nat
  units : Nat
  node : Nat
  unit : Nat
  tag : Nat
  base : Nat
  deriving DecidableEq, Repr

/-- A request in a pen unit's pending table (R203). -/
structure PenWait where
  pkt : Packet
  arrived : Nat
  deriving DecidableEq, Repr

/-- A holder-table entry of a requester (R202): its pen once granted. -/
structure Holder where
  /-- transaction of the request; the entry is found by it until the grant -/
  txn : Nat
  unit : Nat
  tag : Nat
  dest : Nat
  units : Nat
  base : Nat := 0
  granted : Bool := false
  revoked : Bool := false
  /-- TARGET_RETIRED where the region was retired, else TARGET_RESETTING (R208-R209) -/
  cause : Status := .targetResetting
  /-- the pen handle of a block's MVE_PEN_REQ (R225) -/
  handle : Option Nat := none
  deriving DecidableEq, Repr

/-- A request that waits for a holder-table entry (R202). -/
structure HolderWait where
  pkt : Packet
  purpose : Purpose
  handle : Option Nat
  since : Nat
  deriving DecidableEq, Repr

/-- The pen unit and holder table of a block (or the holder table of a hub). -/
structure PenUnit where
  pens : List Pen := []
  pending : List PenWait := []
  /-- job tag each pool unit (counted from the AS offset in 4 KiB units) was last held under; 64 for zeroed units; no entry
  for a unit with no recorded holder (R207) -/
  lastTag : Sparse Nat := []
  /-- pens revoked, whose holder may still put or release (R208, R211) -/
  revoked : List Pen := []
  /-- panel time draining began -/
  drainStart : Option Nat := none
  holders : List Holder := []
  waiting : List HolderWait := []
  deriving DecidableEq, Repr

/-- A heft a live job has declared (R196): the 32-byte entry's fields. -/
structure Heft where
  id : Nat
  tag : Nat
  first : Nat
  last : Nat
  blocks : Nat
  offset : Nat
  units : Nat
  format : Nat
  tokens : Nat
  deriving DecidableEq, Repr

/-- The log outside its registers (R499-R507). -/
structure LogState where
  /-- committed entries not yet reclaimed, oldest first (both hubs' copies are one list while both are in service) -/
  ring : List LogEntry := []
  /-- CE and REFUSAL entries dropped, DE and worse dropped, since the last GAP entry (R502) -/
  droppedLow : Nat := 0
  droppedHigh : Nat := 0
  /-- CE entries logged per page in the running ms: page key ↦ (ms, count) (R406) -/
  ceCounts : Sparse (Nat × Nat) := []
  /-- entries in the flash partition, oldest first (R503) -/
  flash : List LogEntry := []
  /-- the POWER marker of the last flush: the highest SEQ assigned, and HOLDUP_READY at the loss (R504) -/
  marker : Option (Nat × Bool) := none
  /-- SEQ assignment has stopped (R504) -/
  stopped : Bool := false
  /-- the SEQ below which entries have been spilled to flash, copied to the host ring, acknowledged by the host (R503) -/
  spilled : Nat := 0
  copied : Nat := 0
  acked : Nat := 0
  /-- panel time of the oldest committed entry not yet spilled -/
  oldestAt : Option Nat := none
  /-- retirements that an injected error has decided and that are still to come (R404): node * 64 + page of the unit -/
  injected : List Nat := []
  deriving DecidableEq, Repr

/-- Counted events of a unit: (classification key, panel time) (R483). -/
abbrev Events := List (Nat × Nat)

/-- A probe of a suspect unit (R491). -/
structure Probe where
  node : Nat
  /-- panel time SUSPECT was set -/
  since : Nat
  fabricTries : Nat := 0
  sidebandTries : Nat := 0
  fabricAnswers : Option Bool := none
  sidebandAnswers : Option Bool := none
  /-- the finding is a router or bridge fault: the loopback test is to come (R492) -/
  loopback : Bool := false
  deriving DecidableEq, Repr

/-- An event ring of a unit (R536-R539): the entries' four words by index modulo 256, events recorded since panel reset,
whether it is frozen, events missed while frozen. -/
structure EventRing where
  slots : Sparse (List Nat) := []
  index : Nat := 0
  frozen : Bool := false
  missed : Nat := 0
  /-- a UE-unit event has been recorded (R537) -/
  sawUe : Bool := false
  deriving DecidableEq, Repr

/-- A stack's controller, beside its registers (R320-R322): the panel time of the last reading, the times since which the temperature has stayed 3 °C
below the thresholds of levels 1-3, the start of the scrub pass under way, the time self-refresh has added to it and when the present one began. -/
structure Stack where
  read : Option Nat := none
  cool : Sparse Nat := []
  pass : Option Nat := none
  extra : Nat := 0
  resting : Option Nat := none
  deriving DecidableEq, Repr

/-- What starts training in LISTEN (R338). -/
inductive LinkWake where
  | signal | knock | queued
  deriving DecidableEq, Repr

/-- Why a bundle goes down (R339). -/
inductive LinkLoss where
  | signal | codewords | resends
  deriving DecidableEq, Repr

/-- A host read through BAR2 (R374-R375): the host's tag, panel address, length, the time it came, the data that has come by offset, parts to come, the
first failing status. -/
structure HostReq where
  tag : Nat
  addr : Nat
  n : Nat
  time : Nat
  left : Nat
  got : Sparse (List Byte) := []
  status : Status := .done
  deriving DecidableEq, Repr

/-- An endpoint and guest port of a hub, beside their registers (R372-R375, R388, R551): PERST_N asserted; host reads not yet answered; the
guest's tokens in sixteenths of a byte (none: full), and when they were counted. -/
structure Endpoint where
  perst : Bool := false
  reqs : List HostReq := []
  tokens : Option Nat := none
  counted : Nat := 0
  deriving DecidableEq, Repr

/-- Why a stack fails (R325): training failed at both rates, its controller has stopped, or it has been classified permanent. -/
inductive StackCause where
  | training | stopped | classified
  deriving DecidableEq, Repr

/-- A retirement that a classification has decided (R483-R484): the unit, and for cells the severity, the count that triggered it, and
whether rounds found it. -/
inductive Retire where
  | matrixCell (node blk cell sev count : Nat) (rounds : Bool)
  | vectorCell (node blk cell count : Nat)
  /-- a block, and with it its region: the page that reports, the error class, the count -/
  | block (node blk page errBit count : Nat)
  | region (node page errBit count : Nat)
  | bundle (node b : Nat)
  | stack (st count : Nat)
  | edge (node page errBit count : Nat)
  deriving DecidableEq, Repr

/-- What an assist decides (R419). -/
inductive Ask where
  | retire (r : Retire)
  | tables (node : Nat)
  | dispatch (q : QueueRef)
  | droves (node : Nat)
  | training (node b : Nat)
  | rounds (node blk : Nat) (vec : Bool)
  | wake (source : Nat)
  | scrub (st : Nat)
  deriving DecidableEq, Repr

/-- An assist (R418-R420): its record's fields and what it decides. `id` counts once it is posted. -/
structure Assist where
  id : Nat := 0
  fn : Nat
  node : Nat
  page : Nat
  deadline : Nat
  arg1 : Nat := 0
  arg2 : Nat := 0
  what : Ask
  deriving DecidableEq, Repr

/-- What reaches its deadline (R418): an assist, or the gap a unit allows between the host's periodic writes (functions 5, 6 and 10). -/
inductive Overdue where
  | assist (id : Nat)
  | gap (fn node page : Nat)
  deriving DecidableEq, Repr

/-- An access of a register from outside the fabric, or by a unit of the die itself: origin, page, byte offset, bytes, and the value of a write. -/
structure RegAccess where
  o : Origin
  node : Nat
  page : Nat
  off : Nat
  n : Nat
  v : Nat := 0
  deriving DecidableEq, Repr

/-- The changes of map and routes that wait for, or take part in, a switch (R73-R74), in hub firmware's record. -/
structure Switch where
  /-- regions retired whose substitution is still to be decided: detected at, node (R74, R488) -/
  lost : List (Nat × Nat) := []
  /-- substitutions: logical region, the spare's node -/
  subs : List (Nat × Nat) := []
  /-- N has changed: the whole map is built anew (R26-R27) -/
  rebuild : Bool := false
  /-- stack-map entries to change: stack, node -/
  stackMap : List (Nat × Nat) := []
  /-- peer-map entries to change: ID group, node -/
  peers : List (Nat × Nat) := []
  /-- the routes change (a retirement, a dead router, a bridge down) -/
  routes : Bool := false
  /-- N that takes force at the flip -/
  newN : Option Nat := none
  /-- in host-assisted mode of function 2 (R419): decided, and where the host's banks stand, if it supplied them -/
  tables : Option (Option Nat) := none
  deriving DecidableEq, Repr

end Sys2Proof.Machine
end

