-- ==== Sys2Proof/Machine/EngineTypes.lean ====
section
/-!
DEFINITION. Queues, commands in flight, hurdles and jobs (R217-R243, R529-R532): the plain data of command lists.
-/
namespace Sys2Proof.Machine

/-- What a command in flight still waits for before it can complete (R230). -/
inductive CmdWait where
  /-- nothing: it completes with its status -/
  | none
  /-- the release of a generation of a hurdle: CTL_HURDLE with WAIT, CTL_WAIT mode 0 -/
  | hurdle (id gen : Nat)
  /-- CTL_HURDLE's own arrival, for a generation after the next; whether it then waits for the release (R233) -/
  | arrival (id gen : Nat) (wait : Bool)
  /-- a memory word: CTL_WAIT mode 1; the next read is due at `poll` -/
  | word (poll : Nat)
  /-- a panel time: CTL_WAIT mode 2 -/
  | time
  /-- a pen grant: MVE_PEN_REQ -/
  | grant
  /-- the acknowledgement of a PEN_RELEASE -/
  | release
  /-- the launch with this number -/
  | launch (id : Nat)
  /-- a matrix command that runs: a drove's lines, its decision, pending recomputes (R122, R127, R259) -/
  | matrix
  /-- the partial of a fold, or the acknowledgement of its result -/
  | fold
  /-- a drove stream's course (R244-R262), or the decisions of DVE_EXPERTS -/
  | stream
  /-- the acknowledgements of a commit or cancel (R260-R261) -/
  | decision
  /-- the decision of a replacement before it (R234), or the DVE_EXPERTS before it (R217) -/
  | turn
  /-- the completions of its packets (R230) -/
  | packets
  /-- the block's tally records (R532) -/
  | tally
  /-- a host assist (R419) -/
  | assist
  deriving DecidableEq, Repr

/-- A command in flight. -/
structure InFlight where
  addr : Nat
  /-- the 512 bits of the descriptor -/
  desc : Nat
  start : Nat
  /-- present: the command has ended with it, and COMMAND_COMPLETE is due -/
  status : Option Status := Option.none
  wait : CmdWait := .none
  skipped : Bool := false
  detail : Nat := 0
  /-- the walk's address after the command; none: the list ends here -/
  after : Option Nat := Option.none
  /-- a control read failed, or the command is malformed: the list stops whatever the status (R238, R557) -/
  stops : Bool := false
  /-- packets not yet answered -/
  left : Nat := 0
  /-- a status found on the way, kept until the command ends (R7) -/
  found : Status := .done
  /-- the command arrives at its hurdle by itself (R261, R299) -/
  signalled : Bool := false
  /-- its arrival carries CANCELLED (R261) -/
  cancels : Bool := false
  /-- counters of the tally record that the model knows: MACs executed and skipped, bytes in and out, bytes of cancelled
  streams (R530), whether it set PS_OVF -/
  macs : Nat := 0
  skips : Nat := 0
  bytesIn : Nat := 0
  bytesOut : Nat := 0
  cancelled : Nat := 0
  psOvf : Bool := false
  /-- PWR_DEFICIT.ACCUM and the times of its reasons when the command started (R451, R530) -/
  accum : Nat := 0
  held : Sparse Nat := []
  /-- parts of a peer's memory that MVE_DIGEST has read, by address -/
  got : Sparse (List Byte) := []
  deriving DecidableEq, Repr

/-- A 512-byte line of a command list in a queue's part of the fetch buffer (R180, R237): its address, its slot of the two, its bytes. -/
structure FetchLine where
  addr : Nat
  slot : Nat
  bytes : List Byte
  deriving DecidableEq, Repr

/-- A command queue (R217-R218, R233-R235, R237). -/
structure Queue where
  /-- job tag of the running list -/
  tag : Option Nat := none
  /-- descriptor address of the head; none once LAST has been taken -/
  walk : Option Nat := none
  /-- lines of its list in the fetch buffer, the newest last (R180) -/
  lines : List FetchLine := []
  calls : List Nat := []
  loop : Nat := 0
  /-- arrivals and waits made, by hurdle identity (R233) -/
  arrivals : Sparse Nat := []
  waits : Sparse Nat := []
  cur : Option InFlight := none
  /-- times the head has been requeued (R234, R237) -/
  requeues : Nat := 0
  /-- the head's HURDLE_WAIT has been satisfied DONE (R234) -/
  waited : Bool := false
  /-- the head that has begun its HURDLE_WAIT (R538) -/
  begun : Option Nat := none
  /-- the head may pass its breakpoint without another check (R541) -/
  passBreak : Bool := false
  /-- lists that wait for the running one: (job tag, first descriptor) (R218) -/
  backlog : List (Nat × Nat) := []
  /-- records written to the completion ring -/
  records : Nat := 0
  deriving DecidableEq, Repr

/-- A hurdle instance of a job (R231-R233). -/
structure Hurdle where
  id : Nat
  inst : Nat
  blk : Nat
  need : Nat
  /-- generations released so far, and the status of each, oldest first -/
  gen : Nat := 0
  results : List Status := []
  /-- arrivals of the oldest unreleased generation and of the one after it, and whether one carried CANCELLED -/
  count1 : Nat := 0
  cancel1 : Bool := false
  count2 : Nat := 0
  cancel2 : Bool := false
  /-- arrivals of other units on their way to the home, by generation -/
  coming : Sparse Nat := []
  /-- the job's abort status: every later wait is satisfied at once with it (R239) -/
  aborted : Option Status := none
  /-- the newest generation whose release has reached a node -/
  told : Sparse Nat := []
  /-- job scope (R355): the newest generation reported to the bellwether; at the bellwether, the members that have arrived by
  generation, and the generations for which one carried CANCELLED -/
  reported : Nat := 0
  marks : Sparse (List Nat) := []
  cancelled : List Nat := []
  deriving DecidableEq, Repr

/-- A list of a job: its queue, first descriptor, whether it has started and whether its LAST command has completed. -/
structure JobList where
  q : QueueRef
  addr : Nat
  started : Bool := false
  done : Bool := false
  /-- the list has stopped without its LAST command (R238-R239) -/
  stopped : Bool := false
  deriving DecidableEq, Repr

/-- The states of a job (R243). -/
inductive JobState where
  | running | aborting | completed
  deriving DecidableEq, Repr

/-- A member of a cascade as the bellwether sees it (R354-R357). -/
structure Member where
  panel : Nat
  joined : Bool := false
  digest : Word := 0
  /-- bellwether time of the member's last report or arrival -/
  heard : Nat := 0
  pace : Nat := 0
  deriving DecidableEq, Repr

/-- A job (R239-R243). -/
structure Job where
  state : JobState := .running
  /-- the abort status, once the job aborts -/
  abort : Option Status := none
  /-- its JOB_END entry is discarded (R372) -/
  silent : Bool := false
  /-- some record was POISONED (R239) -/
  poisoned : Bool := false
  /-- CMD_ADDR of the first failing record (R382) -/
  failAddr : Nat := 0
  submitted : Nat := 0
  /-- the endpoint hub, submission queue, index and queue head of its JBE_SUBMIT -/
  hub : Nat := 180
  sq : Nat := 0
  index : Nat := 0
  head : Nat := 0
  lists : List JobList := []
  hurdles : List Hurdle := []
  tallyRing : Nat := 0
  tallyEntries : Nat := 0
  tallySeq : Nat := 0
  lockstep : Bool := false
  /-- cascade: this panel is a member of a multi-panel job (R353) -/
  cascade : Bool := false
  /-- the bellwether's panel ID, and at the bellwether the members -/
  bell : Nat := 0xFFF
  members : List Member := []
  /-- the panels of the member list -/
  names : List Nat := []
  /-- bellwether heard from, at a member -/
  heard : Nat := 0
  /-- panel time the join period ends (R354) -/
  joinEnd : Option Nat := none
  /-- the pace in force, and one that takes effect later: (pace, bellwether time) (R356) -/
  pace : Nat := 0
  nextPace : Option (Nat × Nat) := none
  /-- panel time of its last pace report (R356) -/
  paced : Nat := 0
  deriving DecidableEq, Repr

/-- A tally record on its way to a job's ring (R530-R531): the 512 bits without SEQ, the block that sent it. -/
structure TallyRec where
  bits : Nat
  tag : Nat
  node : Nat
  blk : Nat
  deriving DecidableEq, Repr

/-- An entry for a completion queue (R382). -/
structure CqEntry where
  hub : Nat
  cq : Nat
  sq : Nat
  index : Nat
  status : Status
  kind : Nat
  tag : Nat
  head : Nat
  time : Nat
  energy : Nat := 0
  failAddr : Nat := 0
  deriving DecidableEq, Repr

/-- A JBE descriptor: fetched by an endpoint's submission queue, in ring order (R381). -/
structure Fetched where
  hub : Nat
  sq : Nat
  index : Nat
  desc : Nat
  /-- status of the read that fetched it (R557) -/
  read : Status := .done
  /-- the queue's head after it, once it has been accepted for decision -/
  head : Nat := 0
  deriving DecidableEq, Repr

end Sys2Proof.Machine
end

