-- ==== Sys2Proof/Machine/BlockTypes.lean ====
section
/-!
DEFINITION. What a block holds outside its scratchpads and register pages: matrix cells, vector threads, the scalar cell, the
gate unit, drove buffers, rounds and scrub; and what an edge die's drove engine holds (ch. 04, 05, 06, 08, 09).
-/
namespace Sys2Proof.Machine

/-- A held accumulator tile of a slot (R119, R123): 1,024 FP32 words token-major, the elements that are poisoned, the job it
belongs to. -/
structure Tile where
  vals : List Nat
  bad : List Nat := []
  tag : Nat
  deriving DecidableEq, Repr

/-- A slot's binding (R199, R225). -/
structure Binding where
  heft : Nat
  tokTile : Nat
  tokTiles : Nat
  kTiles : Nat
  tag : Nat
  deriving DecidableEq, Repr

/-- A disturbance of one output element in one segment of a k-tile: how far the exact sum S and the residue unit's R are off (R126). -/
structure Hit where
  elem : Nat
  /-- which segment of the k-tile: 0, or 1 for the second of a T5 k-tile -/
  seg : Nat := 0
  err : Int := 0
  res : Nat := 0
  deriving DecidableEq, Repr

/-- An upset of the exact path: what it disturbs in one slot's k-tile, counted within its pass (R126-R127). -/
structure Upset where
  slot : Nat
  k : Nat
  hits : List Hit
  /-- the cell, where the slot map names none (R136) -/
  cell : Nat
  deriving DecidableEq, Repr

/-- A matrix command that has started and not ended (R122, R246-R251, R259). -/
structure MatRun where
  q : QueueRef
  /-- the accumulator tiles are loaded and the stream header has been checked -/
  ready : Bool := false
  /-- consumes a provisional drove into a shadow slot (R259) -/
  shadow : Option Nat := none
  /-- (pass, k-tile) still to run, in order -/
  todo : List (Nat × Nat) := []
  /-- buffer fill being read -/
  fill : Option Nat := none
  /-- computed: awaits the decision of its drove (R259) -/
  awaiting : Bool := false
  /-- the codebook it reads, as it stood at the start (R97) -/
  book : Nat := 0
  upsets : List Upset := []
  /-- the commit notice has come while it computes (R260), or the drove is not provisional -/
  promote : Bool := false
  /-- cells that have served it -/
  cells : List Nat := []
  deriving DecidableEq, Repr

/-- A recompute that is pending (R127-R129): a slot (the `n`-th named) of a running command and its step (pass, k-tile), what disturbed the held
result, the cell that mismatched and the cell that recomputes. -/
structure Recompute where
  q : QueueRef
  slot : Nat
  n : Nat
  p : Nat
  k : Nat
  hits : List Hit
  cell : Nat
  helper : Nat
  deriving DecidableEq, Repr

/-- The decision of a stream (R260-R263, R302). -/
inductive Decision where
  | commit | cancel | empty
  deriving DecidableEq, Repr

/-- A stream header (R244), with TILES. -/
structure StreamHeader where
  fmt : Nat
  sparse : Bool
  units : Nat
  outTiles : Nat
  kSteps : Nat
  tiles : Nat
  deriving DecidableEq, Repr

/-- A stream as a block has received it into one half of WS (R247-R251). A fill is a buffer's contents: fill i of the stream
lies in buffer i mod 2. -/
structure Feed where
  seq : Nat
  /-- the edge die that sends it, and the job of its lines -/
  src : Nat
  tag : Nat
  prov : Bool
  header : StreamHeader
  decision : Option Decision := none
  /-- fill held by buffer 0 and 1, and the 64-byte units of it that have arrived as a bit set -/
  fill0 : Option Nat := none
  units0 : Nat := 0
  closed0 : Bool := false
  fill1 : Option Nat := none
  units1 : Nat := 0
  closed1 : Bool := false
  /-- steps of the fills it holds that some command has read to the end (R250-R251) -/
  covered : List Nat := []
  /-- fills this block has released -/
  freed : List Nat := []
  deriving DecidableEq, Repr

/-- One half of a block's weight stage. -/
structure Half where
  feeds : List Feed := []
  /-- decisions that came before any line of their sequence, oldest first, at most 16 (R263): sequence, job tag, decision -/
  table : List (Nat × Nat × Decision) := []
  deriving DecidableEq, Repr

/-- Why a thread is out of the ready set (R152-R156, R160). -/
inductive Park where
  | ready
  /-- a VLDR's reply -/
  | reply
  /-- a SATOMR's completion -/
  | atomic
  /-- YIELD: until YIELD_END -/
  | yield
  /-- HWAIT: the release of a generation -/
  | hurdle (id gen : Nat)
  /-- HWAIT 0: the group barrier (R160) -/
  | barrier
  deriving DecidableEq, Repr

/-- A vector thread's context (R148). -/
structure Thread where
  launch : Nat
  group : Nat
  index : Nat
  pc : Nat := 0
  s : List Word
  p : List Nat := [0xFFFFFFFF, 0xFFFFFFFF, 0xFFFFFFFF, 0xFFFFFFFF]
  v : Sparse VReg := []
  /-- poisoned vector registers, scalars and predicates (R167) -/
  badV : List Nat := []
  badS : List Nat := []
  badP : List Nat := []
  park : Park := .ready
  /-- remote writes not yet complete (R155) -/
  writes : Nat := 0
  arrivals : Sparse Nat := []
  waits : Sparse Nat := []
  deriving DecidableEq, Repr

/-- What a group occupies of one cell (R149): thread-state entries, first granule, first 4 KiB unit of local memory. -/
structure Spot where
  cell : Nat
  entries : List Nat
  granule : Nat
  unit : Nat
  deriving DecidableEq, Repr

/-- A placed group (R149, R168): its place on its cell (the even cell of a pair when checked), and on the odd cell of the pair. -/
structure Group where
  launch : Nat
  group : Nat
  spot : Spot
  twin : Option Spot := none
  /-- granules and 4 KiB units of local memory it holds -/
  granules : Nat
  units : Nat
  deriving DecidableEq, Repr

/-- A launch (R149-R151, R165-R168, R225). -/
structure Launch where
  id : Nat
  q : QueueRef
  tag : Nat
  /-- the program's instructions, once it is loaded, its address and its length -/
  image : List Nat := []
  imageAddr : Nat
  instrs : Nat
  regs : Nat
  threads : Nat
  groups : Nat
  lmem : Nat
  ctRead : Nat
  ctWrite : Nat
  arg : Word
  checked : Bool
  /-- the engine has started it (R151, R165) -/
  started : Bool := false
  /-- groups placed, and groups ended -/
  placed : Nat := 0
  ended : Nat := 0
  /-- cells its groups have run on (R171) -/
  cells : List Nat := []
  poisoned : Bool := false
  /-- a thread fault's status and cause (R166) -/
  fault : Option (Status × Nat) := none
  /-- its queue's counts of arrivals and waits at its start (R233) -/
  arrivals0 : Sparse Nat := []
  waits0 : Sparse Nat := []
  /-- largest number of arrivals and waits of one thread, by identity (R233) -/
  arrivals : Sparse Nat := []
  waits : Sparse Nat := []
  deriving DecidableEq, Repr

/-- The scalar cell (R176-R178). -/
structure Scalar where
  launch : Nat
  tag : Nat
  pc : Nat
  x : List Word := List.replicate 32 0
  f : List Word := List.replicate 32 0
  fcsr : Nat := 0
  /-- the reservation of LR: block-window offset and size -/
  reserved : Option (Nat × Nat) := none
  started : Nat := 0
  park : Park := .ready
  /-- posted stores not yet complete -/
  writes : Nat := 0
  arrivals : Sparse Nat := []
  waits : Sparse Nat := []
  deriving DecidableEq, Repr

/-- A candidate list of the gate unit (R167, R289). -/
structure Cands where
  count : Nat := 0
  /-- (score, expert), best first -/
  best : List (Nat × Nat) := []
  /-- a poisoned score has been sent -/
  bad : Bool := false
  deriving DecidableEq, Repr

/-- A select the gate unit remembers (R292). -/
structure Select where
  recOff : Nat
  statusOff : Nat
  tokens : Nat
  k : Nat
  experts : Nat
  deriving DecidableEq, Repr

/-- A declared phase (R236). -/
structure Phase where
  op : Nat
  adaptive : Bool
  load : Nat
  duration : Nat
  deriving DecidableEq, Repr

/-- A block. -/
structure Block where
  /-- P0-P15 (R235) -/
  preds : Nat := 0
  /-- phases declared, and the current one (R236) -/
  phases : Sparse Phase := []
  phase : Option Nat := none
  /-- matrix cells -/
  tiles : Sparse Tile := []
  binds : Sparse Binding := []
  /-- CB0-CB7, 128 bits each (R96) -/
  books : Sparse Nat := []
  runs : List MatRun := []
  recomputes : List Recompute := []
  /-- WS halves -/
  west : Half := {}
  east : Half := {}
  /-- rounds of the matrix cells (R131-R138): start of the rounds, rotations since, start of the test window, the test has
  failed once, it has passed, it is paused by a recompute -/
  roundStart : Nat := 0
  rotations : Nat := 0
  window : Option Nat := none
  failedOnce : Bool := false
  passed : Bool := false
  paused : Bool := false
  /-- time-slicing (R136): start of the current period count, windows opened since, the next cell -/
  sliceStart : Nat := 0
  slices : Nat := 0
  sliceNext : Nat := 0
  /-- rotation orders that host software supplied for the cells (R419 function 9); empty: ascending -/
  order : List Nat := []
  vecOrder : List Nat := []
  /-- and those it supplied for the next round -/
  orderNext : List Nat := []
  vecOrderNext : List Nat := []
  /-- the slot map outside a test window in time-sliced mode (R136) -/
  slotCells : List Nat := []
  /-- BF16 and FP16 commands each cell has served since its last passed test: (cell, job tag, descriptor) (R135) -/
  floatWork : List (Nat × Nat × Nat) := []
  /-- launches that completed DONE on each vector cell since its last passed test (R171) -/
  vecWork : List (Nat × Nat × Nat) := []
  /-- vector rounds (R170): their start, slots used since, the last cell tested, a failed test is being rerun, the test comes from vecQueue -/
  vecStart : Nat := 0
  vecTests : Nat := 0
  vecLast : Option Nat := none
  vecFailedOnce : Bool := false
  vecExtra : Bool := false
  /-- cells to be tested at once after a checked mismatch (R169) -/
  vecQueue : List Nat := []
  /-- vector launches in order of start, their groups and threads; the instruction buffers are the images of the launches
  that have started (R151) -/
  launches : List Launch := []
  groups : List Group := []
  threads : Sparse Thread := []
  /-- CT0-CT15, 1,040 bytes each as one number, and those loaded with poisoned data (R164-R167) -/
  curves : Sparse Nat := []
  badCurves : List Nat := []
  sx : Option Scalar := none
  /-- the scalar cell's last rounds test, and a failed one before it (R178) -/
  sxTested : Nat := 0
  sxFailedOnce : Bool := false
  /-- launches started so far: the next launch's number -/
  launchCount : Nat := 0
  cands : Sparse Cands := []
  selects : List Select := []
  /-- the scrubber (R194): start of the pass, the next slot -/
  scrubStart : Nat := 0
  scrubSlot : Nat := 0
  /-- rows with single-bit errors in consecutive passes: bank row number ↦ (pass, count); spare rows used per bank;
  rows remapped (R193) -/
  singles : Sparse (Nat × Nat) := []
  pass : Nat := 0
  spares : Sparse Nat := []
  remapped : List Nat := []
  /-- the control-core pair has mismatched: the block has stopped (R181) -/
  stopped : Bool := false
  /-- breakpoints: commands are held (R540): the queue whose head is held -/
  held : Option QueueRef := none
  /-- a stepped command runs (R541) -/
  stepping : Option QueueRef := none
  /-- tally records sent and not yet written (R532) -/
  tallies : Nat := 0
  deriving DecidableEq, Repr

/-- A stream at the drove engine (R244-R262, R270). A cancelled one stays, as the place of its replacement. -/
structure Stream where
  /-- place in the send order; a replacement takes the place of the stream it replaces (R262) -/
  place : Nat
  seq : Nat
  tag : Nat
  /-- the DVE_STREAM or DVE_STREAM_LINK command in flight; none for a stream of DVE_EXPERTS and for a companion -/
  q : Option QueueRef := none
  src : Nat
  /-- DVE_STREAM_LINK: peer panel and bundle field -/
  link : Option (Nat × Nat) := none
  tiles : Nat
  fmt : Nat
  tskip : Nat
  /-- nodes fed -/
  members : List Nat
  side : Nat
  prov : Bool
  companion : Bool := false
  decision : Option Decision := none
  header : Option StreamHeader := none
  /-- the tile-skip bitmap as read -/
  skip : List Byte := []
  /-- the header packet has been sent; the next fill; lines sent -/
  begun : Bool := false
  fill : Nat := 0
  lines : Nat := 0
  /-- everything is sent -/
  done : Bool := false
  /-- cancelled, and not yet replaced -/
  gone : Bool := false
  /-- it replaces a cancelled stream (R262) -/
  replaces : Bool := false
  expert : Option Nat := none
  /-- link reads: bytes requested; data that has come, by stream offset, with its poison; bytes sent on (R255) -/
  asked : Nat := 0
  staged : Sparse (List Byte × Bool) := []
  /-- panel time of the last line; a buffer is awaited (R251) -/
  lastLine : Nat := 0
  waiting : Bool := false
  deriving DecidableEq, Repr

/-- A commit or cancel whose acknowledgements are awaited (R260-R261). -/
structure Deciding where
  seq : Nat
  tag : Nat
  cancel : Bool
  left : List Nat
  /-- the DVE_COMMIT or DVE_CANCEL command; none for a decision of DVE_EXPERTS -/
  q : Option QueueRef := none
  deriving DecidableEq, Repr

/-- A decision whose acknowledgement a member owes to the edge die (R260). -/
structure AckOwed where
  node : Nat
  edge : Nat
  side : Nat
  seq : Nat
  tag : Nat
  deriving DecidableEq, Repr

/-- A tally table (R298). -/
structure TallyTable where
  tag : Nat
  fold : Nat
  hurdle : Nat
  /-- the generation its packets arrive at -/
  gen : Nat
  counts : Sparse Nat := []
  deriving DecidableEq, Repr

/-- An entry of the expert table (R299). -/
structure ExpertEntry where
  src : Nat
  tiles : Nat
  fmt : Nat
  expert : Nat
  tskip : Nat
  deriving DecidableEq, Repr

/-- A running DVE_EXPERTS (R299-R302). -/
structure Experts where
  q : QueueRef
  tag : Nat
  table : Nat
  fold : Nat
  first : Nat
  count : Nat
  members : Nat
  decOut : Nat
  prov : Bool
  entries : List ExpertEntry
  /-- predicted streams: sequence and expert -/
  ahead : List (Nat × Nat) := []
  /-- hurdle and generation it waits for, once its table is taken -/
  waitGen : Option (Nat × Nat) := none
  decided : Bool := false
  /-- arrivals at the commit hurdle still to be made, in order: sequence, whether CANCELLED -/
  arrivals : List (Nat × Bool) := []
  deriving DecidableEq, Repr

/-- An edge die's drove engine. -/
structure Drove where
  streams : List Stream := []
  places : Nat := 0
  /-- the next buffer goes to a stream of the other end, where there is one (R270-R271) -/
  turn : Bool := false
  /-- buffers a member has not freed (R250): node * 4 + half * 2 + buffer ↦ job tag and sequence -/
  busy : Sparse (Nat × Nat) := []
  deciding : List Deciding := []
  tables : List TallyTable := []
  /-- experts needed in the last final table, by TABLE address, newest last (R301) -/
  history : List (Nat × List Nat) := []
  experts : Option Experts := none
  deriving DecidableEq, Repr

/-- A task of the hub's task ring (R184): the record's 512 bits, the queue that posted it (none: the host), and the generation its hurdle arrival
joins (R233). -/
structure Task where
  hub : Nat
  record : Nat
  poster : Option QueueRef
  gen : Nat
  /-- a host-assisted dispatch waits for it (R419 function 3) -/
  dispatch : Bool := false
  deriving DecidableEq, Repr

end Sys2Proof.Machine
end

