-- ==== Sys2Proof/Machine/PowerTypes.lean ====
section
/-!
DEFINITION. Clock, time and power state outside the registers (ch. 14, 15), the pins of the panel, and what a unit drains for.
-/
namespace Sys2Proof.Machine

/-- The clock and power controller of a region (R430-R431, R447, R449-R458, R461-R465). Frequencies are in 25 MHz steps, powers in 0.1 W, currents
in 10 mA. A ceiling that is absent is unlimited. -/
structure RegionPower where
  /-- the budget share in force, and the points BUDGET_GUARD has lowered since (R454-R455) -/
  share : Option Nat := none
  guard : Nat := 0
  forecastF : Option Nat := none
  efficiencyF : Option Nat := none
  thermalF : Option Nat := none
  /-- what the core PLL gives; 0 off -/
  freq : Nat := 0
  /-- input power of the last millisecond, input current -/
  power : Nat := 0
  current : Nat := 0
  /-- start of the change under way; end of the one before (R430) -/
  changing : Option Nat := none
  changed : Option Nat := none
  /-- last TARGET_RECOMPUTE, EFFICIENCY_LOOP, CONTACT_MEASURE, ENERGY_INTERVAL, THERMAL_SAMPLE, step of thermal_f -/
  computed : Nat := 0
  looped : Nat := 0
  measured : Nat := 0
  counted : Nat := 0
  sampled : Nat := 0
  stepped : Nat := 0
  /-- since when all sensors have read at most 95 °C and 90 °C (R458-R459) -/
  cool95 : Option Nat := some 0
  cool90 : Option Nat := some 0
  /-- measurements of the last second: (panel time, µΩ) (R447) -/
  contacts : List (Nat × Nat) := []
  /-- the region is stopped by temperature (R458) -/
  hotStop : Bool := false
  /-- panel time its power-up wave ends (R446) -/
  upAt : Nat := 0
  /-- the last target was set by a safety loop or the throttle pin (R430) -/
  urgent : Bool := false
  /-- last panel time an engine command, a launch or SX ran, and the start of Region Idle (R462-R463) -/
  busy : Nat := 0
  idle : Option Nat := none
  /-- a wake for its Nap came at this time (R465) -/
  wake : Option Nat := none
  /-- since when PWR_DEFICIT.REASON stands, and how long each reason had stood before, in ps (R451, R530) -/
  reasonAt : Nat := 0
  held : Sparse Nat := []
  /-- last host write of its share (R419 function 5) -/
  shared : Nat := 0
  deriving DecidableEq, Repr

/-- Why a unit drains (R400, R523, R526). -/
inductive DrainFor where
  | quiesce | reset | off | update
  deriving DecidableEq, Repr

/-- Why the panel stops (R443, R427, R459, R498, R547): for the loss of VAON with the number of log entries its flush writes. -/
inductive StopCause where
  | thermal | airflow | rail | clocks
  | vaon (n : Nat)
  deriving DecidableEq, Repr

/-- Clock, time and power state of the panel as a whole, and its pins. -/
structure Plant where
  /-- PANEL_THROTTLE_N is asserted; throttle_f stays in force until (R456) -/
  throttle : Bool := false
  throttleEnd : Option Nat := none
  /-- AIRFLOW_OK, PWR_EN asserted; PANEL_RESET_N asserted; VIN_CORE and VAON present -/
  airflow : Bool := true
  pwrEn : Bool := true
  resetN : Bool := true
  vinCore : Bool := true
  vaon : Bool := true
  /-- FAULT_N and THERMTRIP_N asserted -/
  faultN : Bool := false
  thermtripN : Bool := false
  /-- the reference in use has failed over; neither toggles (R427) -/
  refLost : Bool := false
  /-- last BUDGET_LOOP, FORECAST, BUDGET_GUARD; the non-region power of the last loop -/
  budgetAt : Nat := 0
  forecastAt : Nat := 0
  guardAt : Nat := 0
  fixedPower : Nat := 0
  /-- last host write of HUB_FC_HOST and of TIM_RATE (R419) -/
  fcHostAt : Nat := 0
  rateAt : Nat := 0
  /-- last host write of any region's share -/
  sharesAt : Nat := 0
  /-- the first alignment to a time source has been made (R437) -/
  aligned : Bool := false
  /-- rate correction in parts per 10^9, what it has accumulated in units of 250 ps / 10^9 (R434) -/
  rate : Int := 0
  steer : Int := 0
  /-- last beacon, and the routers it has reached (R435) -/
  beaconAt : Nat := 0
  beaconGot : List Nat := []
  /-- a job has been accepted since bring-up (R436) -/
  jobSeen : Bool := false
  /-- the end of the power-up wave in progress (R446) -/
  waveEnd : Nat := 0
  /-- Nap exits started in the last 20 µs (R465) -/
  exits : List Nat := []
  /-- energy not yet counted, in µJ, by job tag; 64 for unattributed (R461) -/
  energy : Sparse Nat := []
  /-- panel time VIN_CORE came, the last heartbeat of each hub that arrived and the last it sent, by hub, the last log scrub -/
  vinAt : Nat := 0
  beats : Sparse Nat := []
  sent : Sparse Nat := []
  scrubAt : Nat := 0
  /-- the master has reported a fault of its own die (R495) -/
  hubFault : Bool := false
  /-- the standby hub, and the former master, has failed (R496, R498) -/
  hubLost : Bool := false
  bothLost : Bool := false
  /-- regions that an update has still to take (R526) -/
  updateLeft : List Nat := []
  /-- last RAIL frame, and its count (R553) -/
  railAt : Nat := 0
  railSeq : Nat := 0
  /-- the PLDM event receiver's endpoint ID, and the state each sensor was last reported in, by sensor (R417); a sensor not listed: 1 -/
  receiver : Option Nat := none
  sensed : Sparse Nat := []
  deriving DecidableEq, Repr

/-- A firmware bundle in a slot of the tray's flash (R515): its version and rollback index, and whether it is authentic; whether its hub firmware differs
from the running one's. -/
structure FirmwareSlot where
  version : Nat
  rollback : Nat := 0
  good : Bool := true
  hubDiffers : Bool := false
  deriving DecidableEq, Repr

/-- The boot record (R517): whether it matches the panel's serial number, fuses and bundle version; hours since the last full test; starts; FORCE_FULL;
the saved panel ID; the bundles whose settings it saves (those of bridges and stacks are in force whenever the start is quick). -/
structure BootRecord where
  fits : Bool := true
  /-- the bundle version in force when it was written -/
  version : Nat := 0
  hours : Nat := 0
  boots : Nat := 0
  forceFull : Bool := false
  panelId : Option Nat := none
  /-- bundles with saved settings, as node * 8 + bundle -/
  bundles : List Nat := []
  deriving DecidableEq, Repr

/-- The fuses of the dies (R13, R514), as voted; a grade not listed is 15, a factory spare choice column 12. The operating-point table and the droop
threshold stand in their registers. -/
structure Fuses where
  /-- fused-bad flag and grade, by region node -/
  badDies : List Nat := []
  grades : Sparse Nat := []
  /-- factory spare choice, by row -/
  spares : Sparse Nat := []
  /-- bad matrix and vector cells: node, block, cell; scalar cells and control cores: node, block -/
  matrix : List (Nat × Nat × Nat) := []
  vector : List (Nat × Nat × Nat) := []
  scalar : List (Nat × Nat) := []
  cores : List (Nat × Nat) := []
  /-- bad SRAM rows: node, block, bank number, row; those that hub firmware has added from the log among them (R193) -/
  rows : List (Nat × Nat × Nat × Nat) := []
  /-- bad wire groups: node, port, group; bad SerDes lanes: edge die, bundle, lane -/
  groups : List (Nat × Nat × Nat) := []
  lanes : List (Nat × Nat × Nat) := []
  deriving DecidableEq, Repr

/-- What lies outside the reset domains: the tray's flash, and the fuses that count (R447, R514-R515, R517). -/
structure Tray where
  fuses : Fuses := {}
  baselines : Sparse Nat := []
  record : Option BootRecord := none
  slotA : Option FirmwareSlot := some { version := 1 }
  slotB : Option FirmwareSlot := none
  /-- slot in force: A is false -/
  inB : Bool := false
  rollback : Nat := 0
  masterDefault : Bool := false
  deriving DecidableEq, Repr

/-- What the tests of a bring-up find, which no rule decides (R512-R519). `steps` gives how long steps 2 to 12 take. -/
structure Bringup where
  steps : List Nat := []
  /-- hubs whose ROM self-check fails (step 2), hubs that find no authentic bundle though a slot holds one (step 4) -/
  romBad : List Nat := []
  noBundle : List Nat := []
  /-- the fuse controller does not answer; words in which a copy differs from the vote (step 3) -/
  fuseSilent : Bool := false
  fuseDiffs : Nat := 0
  /-- regions whose power-up fails (5), whose image check fails three times (7), that hold a block that fails its known-answer run (11) -/
  power : List Nat := []
  image : List Nat := []
  blocks : List Nat := []
  /-- bridge directions, as sending node and port, whose training fails (6); some direction discards its saved settings -/
  bridges : List (Nat × Nat) := []
  bridgeFresh : Bool := false
  /-- stacks that fail at 8.0 Gb/s and go on to 6.4 (8); some stack discards its saved settings -/
  slowStacks : List Nat := []
  stackFresh : Bool := false
  /-- sectors found bad: stack, offset (9); rows: node, block, bank number, row (10); edge dies whose drove engine fails (11) -/
  sectors : List (Nat × Nat) := []
  rows : List (Nat × Nat × Nat × Nat) := []
  edges : List Nat := []
  /-- bundles whose training ends well within step 12, by edge die and bundle, and those of them that discard their saved settings -/
  links : List (Nat × Nat) := []
  linksFresh : List (Nat × Nat) := []
  deriving DecidableEq, Repr

end Sys2Proof.Machine
end

