-- ==== Sys2Proof/Machine/Operands.lean ====
section
/-!
DEFINITION. The operand forms of the commands: when a packet, a reference, an access, a frame fits the fields the spec gives it.
-/
namespace Sys2Proof.Machine

/-- Every field of a packet fits its width, and the payload has LEN flits (R53). A packet without a job tag carries 64 (R374). -/
def Packet.fits (p : Packet) : Bool :=
  decide (p.cls < 8) && decide (p.vch < 2) && decide (p.epoch < 2) && decide (p.len ≤ 8) && decide (p.dest < 256) && decide (p.src < 256)
    && decide (p.jobTag ≤ 64) && decide (p.prio < 4) && decide (p.srcUnit < 256) && decide (p.txn < 65536) && decide (p.addr < 2 ^ 48)
    && decide (p.status < 16) && decide (p.mcMask < 2 ^ 13) && decide (p.mcAxis < 2) && decide (p.mcDir < 2) && decide (p.hops < 256)
    && decide (p.oparg0 < 2 ^ 64) && decide (p.oparg1 < 2 ^ 64) && decide (p.injTime < 2 ^ 64) && decide (p.byteMask < 2 ^ 64)
    && p.payload.length == 64 * p.len

/-- The queue exists (R217): five engines with four queues in a block, the drove engine of an edge die. -/
def QueueRef.fits (q : QueueRef) : Bool :=
  decide (q.queue < 4) && ((decide (q.node < 156) && decide (q.blk < 4) && decide (q.eng < 5))
    || (decide (156 ≤ q.node) && decide (q.node < 180) && q.blk == 0 && q.eng == 5))

/-- The thread entry exists (R148). -/
def ThreadRef.fits (t : ThreadRef) : Bool := decide (t.node < 156) && decide (t.blk < 4) && decide (t.cell < 14) && decide (t.entry < 256)

/-- The access names bytes of one page and carries no more than its width (R392, R412). -/
def RegAccess.fits (a : RegAccess) : Bool :=
  decide (a.node < 182) && decide (a.page < 64) && decide (0 < a.n) && decide (a.off + a.n ≤ 4096) && decide (a.v < 2 ^ (8 * a.n))

/-- The frame's header fits its fields (R333). -/
def Frame.fits (f : Frame) : Bool :=
  decide (f.seq < 2 ^ 24) && decide (f.ack < 2 ^ 24) && decide (f.creditClass < 8) && decide (f.creditCount < 64)

end Sys2Proof.Machine
end

