-- ==== Sys2Proof/Syntax.lean ====
section
/-!
DEFINITION. The commands of the panel, one constructor per row of spec/opcode_table.json, with the operands the command
names. What the environment decides (a measured value, the outcome of a test, which packet arrives) is an operand.
-/
namespace Sys2Proof

open Machine

/-- The commands (opcode_table.json). -/
inductive Instr where
  /-- WRITE (R54): A WRITE request packet arrives at its destination and is written under the range, heft and pen rules. -/
  | write (p : Packet)
  /-- READ_REQ (R54): A READ_REQ packet arrives at its destination, which reads the data and returns READ_DATA. -/
  | readReq (p : Packet)
  /-- READ_DATA (R54): A READ_DATA reply arrives at the requester and fills its reply slot or buffer; for a region in reset it is dropped as an orphan. -/
  | readData (p : Packet)
  /-- COMPLETION (R69): A COMPLETION packet arrives at the requester and completes its outstanding request with the carried status. -/
  | completion (p : Packet)
  /-- PEN_REQ (R203): A PEN_REQ arrives at the target pen unit and is tabled, granted or refused at once. -/
  | penReq (p : Packet)
  /-- PEN_GRANT (R204): A PEN_GRANT arrives at the requester, which records the pen base in its holder table. -/
  | penGrant (p : Packet)
  /-- PEN_PUT (R205): A PEN_PUT arrives at the target and is written when it lies in a pen held by its sender. -/
  | penPut (p : Packet)
  /-- PEN_RELEASE (R206): A PEN_RELEASE arrives at the target pen unit, which frees the pen's units. -/
  | penRelease (p : Packet)
  /-- ATOMIC_ADD (R109): An ATOMIC_ADD packet arrives and is added to the addressed word against its current value. -/
  | atomicAdd (p : Packet)
  /-- TALLY_ATOMIC_ADD (R298): A tally ATOMIC_ADD arrives at an edge die and adds counts to its tally table, or is refused. -/
  | tallyAtomicAdd (p : Packet)
  /-- DROVE_TILE (R249): A DROVE_TILE line arrives at a member and is written into the WS place in all four blocks. -/
  | droveTile (p : Packet)
  /-- FOLD_PART (R78): A FOLD_PART partial arrives at a participant router and waits in a fold buffer for the local contribution. -/
  | foldPart (p : Packet)
  /-- HURDLE_ARRIVE (R231): A hurdle arrival reaches the hurdle's home and counts toward its generation. -/
  | hurdleArrive (p : Packet)
  /-- HURDLE_RELEASE (R231): A hurdle release reaches a waiter, which completes its wait with the release status. -/
  | hurdleRelease (p : Packet)
  /-- CONTROL (R54): A C0 CONTROL packet is consumed in the router domain. -/
  | control (p : Packet)
  /-- BUF_FREE (R250): A BUF_FREE control notice reaches the edge die, which refills the buffer once every member has freed it. -/
  | bufFree (p : Packet)
  /-- COMMIT_NOTICE (R260): A commit notice reaches a block, which promotes shadow results of that sequence and acknowledges. -/
  | commitNotice (p : Packet)
  /-- CANCEL_NOTICE (R261): A cancel notice reaches a block, which discards the sequence's buffers and cancels its consumers. -/
  | cancelNotice (p : Packet)
  /-- DECISION_ACK (R260): A member's commit or cancel acknowledgement reaches the edge die, which arrives at the commit hurdle after the last. -/
  | decisionAck (p : Packet)
  /-- MGMT (R414): A C5 MGMT register access reaches its unit's register port and is applied. -/
  | mgmt (p : Packet)
  /-- MGMT_REPLY (R414): A C5 MGMT_REPLY returns the result of a register access to its requester. -/
  | mgmtReply (p : Packet)
  /-- PACKET_INJECT (R55): A requester injects a packet; the router checks it, turns ADDR into DEST and stamps epoch and time. -/
  | packetInject (node : Nat) (p : Packet) (line : Nat)
  /-- FLIT_CRC_ERROR (R64): A flit arrives with a bad CRC; the receiver discards it and later flits and returns a nak. -/
  | flitCrcError (node : Nat) (port : Nat) (lane : Nat) (sent : Nat) (received : Nat)
  /-- NAK_RESEND (R64): A nak reaches the sender, which resends go-back-N from the expected flit. -/
  | nakResend (node : Nat) (port : Nat) (lane : Nat)
  /-- RESENT_FLIT_GOOD (R64): A resent flit arrives good and the differing bits are charged to their wires and groups. -/
  | resentFlitGood (node : Nat) (port : Nat) (lane : Nat)
  /-- BRIDGE_RETRAIN_DONE (R65): Retraining of a bridge direction ends in success or the bridge going down. -/
  | bridgeRetrainDone (node : Nat) (port : Nat) (ok : Bool)
  /-- REQUEST_TIMEOUT (R70): An unanswered C2 request reaches REQ_TIMEOUT or PEER_TIMEOUT and completes TIMEOUT. -/
  | requestTimeout (node : Nat) (unit : Nat) (txn : Nat)
  /-- SUSPECT_MARK (R70): Hub firmware sets SUSPECT in every router and starts the two-path probe. -/
  | suspectMark (node : Nat)
  /-- BANK_SEAL (R71): A write of SEAL makes the FREE bank LOADED, or ACTIVE at the first seal, and sets LOADED_DIGEST. -/
  | bankSeal (a : RegAccess)
  /-- FLIP_AT_WRITE (R74): A write to RTR_FLIP_AT schedules or cancels a bank flip. -/
  | flipAtWrite (a : RegAccess)
  /-- EPOCH_FLIP (R73): At FLIP_AT the router makes LOADED ACTIVE and ACTIVE DRAINING, and the master flips MAP_BANK. -/
  | epochFlip (node : Nat)
  /-- EPOCH_DRAIN_END (R73): 10 µs after the flip remaining old-epoch packets are dropped and the DRAINING bank becomes FREE. -/
  | epochDrainEnd (node : Nat)
  /-- MAP_SWITCH (R73): Hub firmware computes, writes, seals and schedules new banks for a map or route change. -/
  | mapSwitch (t : Nat)
  /-- MXE_BIND_HEFT (R199): Binds each slot to a token-tile range of a heft in its block. -/
  | mxeBindHeft (q : QueueRef)
  /-- MXE_GEMM (R124): Runs a drove-fed or WS-resident matrix product over the named slots, k-tiles and output tiles. -/
  | mxeGemm (q : QueueRef) (ups : List Upset)
  /-- MXE_GEMM_T (R124): Runs a transposed drove-fed matrix product using the transposed scale array. -/
  | mxeGemmT (q : QueueRef) (ups : List Upset)
  /-- MXE_LOCAL (R125): Runs a matrix product with both operands read from the activation store. -/
  | mxeLocal (q : QueueRef) (ups : List Upset)
  /-- MXE_CODEBOOK (R96): Writes one codebook into all 33 matrix cells of the block between commands. -/
  | mxeCodebook (q : QueueRef)
  /-- MXE_DRAIN (R123): Writes the named slots' accumulator tiles to PS and empties them. -/
  | mxeDrain (q : QueueRef)
  /-- RECOMPUTE_DONE (R127): A recompute finishes; checked results are chosen, failed ones poisoned, and the serving cell resumes. -/
  | recomputeDone (node : Nat) (blk : Nat) (hits : List Hit)
  /-- ROUNDS_ROTATION (R131): Every 64 µs from the round start the next cell is taken out of service on rounds. -/
  | roundsRotation (node : Nat) (blk : Nat)
  /-- ROUNDS_TEST_DONE (R133): A known-answer test ends; a pass readies the cell, a failure reruns it or retires it. -/
  | roundsTestDone (node : Nat) (blk : Nat) (pass : Bool) (signature : Nat)
  /-- ROUNDS_WINDOW_END (R132): The 48 µs test window ends and the tested cell waits in ROUNDS_STANDBY. -/
  | roundsWindowEnd (node : Nat) (blk : Nat)
  /-- SLICE_WINDOW_OPEN (R136): In time-sliced mode a test window opens every 2.112 ms / c at the next cell. -/
  | sliceWindowOpen (node : Nat) (blk : Nat)
  /-- ROUNDS_CTRL_WRITE (R138): A write of MXC_ROUNDS_CTRL.ENABLE stops or resumes matrix rounds. -/
  | roundsCtrlWrite (a : RegAccess)
  /-- VXE_LAUNCH (R149): Starts a vector or SX launch: loads its image and places its groups on cells. -/
  | vxeLaunch (q : QueueRef)
  /-- VXE_LAUNCH_CHECKED (R168): Starts a launch whose groups each run on a pair of cells with compared commits. -/
  | vxeLaunchChecked (q : QueueRef)
  /-- GROUP_PLACE (R149): A waiting group is placed on the lowest cell that has room once room frees. -/
  | groupPlace (q : QueueRef)
  /-- VADD (R160): Adds two vector registers lane by lane. -/
  | vadd (t : ThreadRef)
  /-- VSUB (R160): Subtracts two vector registers lane by lane. -/
  | vsub (t : ThreadRef)
  /-- VMUL (R160): Multiplies two vector registers lane by lane. -/
  | vmul (t : ThreadRef)
  /-- VFMA (R160): Fused multiply-add of two vector registers into the destination. -/
  | vfma (t : ThreadRef)
  /-- VMIN (R147): Lane minimum. -/
  | vmin (t : ThreadRef)
  /-- VMAX (R147): Lane maximum. -/
  | vmax (t : ThreadRef)
  /-- VRCP (R147): Correctly rounded FP32 reciprocal per lane. -/
  | vrcp (t : ThreadRef)
  /-- VRSQ (R147): Correctly rounded FP32 reciprocal square root per lane. -/
  | vrsq (t : ThreadRef)
  /-- VAND (R160): Bitwise and of two vector registers. -/
  | vand (t : ThreadRef)
  /-- VOR (R160): Bitwise or of two vector registers. -/
  | vor (t : ThreadRef)
  /-- VXOR (R160): Bitwise exclusive or of two vector registers. -/
  | vxor (t : ThreadRef)
  /-- VSH (R160): Shifts each lane by a per-lane count. -/
  | vsh (t : ThreadRef)
  /-- VCMPF (R160): Compares FP32 lanes into a predicate. -/
  | vcmpf (t : ThreadRef)
  /-- VCMPI (R160): Compares INT32 lanes into a predicate. -/
  | vcmpi (t : ThreadRef)
  /-- VSEL (R160): Selects lanes from two registers by a predicate mask. -/
  | vsel (t : ThreadRef)
  /-- VPERM (R160): Permutes lanes by per-lane indices. -/
  | vperm (t : ThreadRef)
  /-- VCVT (R110): Converts lanes between FP32, BF16, FP16 and INT32. -/
  | vcvt (t : ThreadRef)
  /-- VQNT (R111): Quantises a block to an MX or T5 format with a shared scale. -/
  | vqnt (t : ThreadRef)
  /-- VDQNT (R163): Dequantises a block to FP32. -/
  | vdqnt (t : ThreadRef)
  /-- VCRV (R164): Applies a curve table to each lane. -/
  | vcrv (t : ThreadRef)
  /-- VRED (R162): Reduces active lanes by a fixed tree into a scalar. -/
  | vred (t : ThreadRef)
  /-- VSCAN (R162): Computes an inclusive prefix over lanes in fixed levels. -/
  | vscan (t : ThreadRef)
  /-- VZBM (R163): Writes the zero bitmap of a block or of FP32 lanes into a scalar. -/
  | vzbm (t : ThreadRef)
  /-- VBCS (R160): Broadcasts a scalar into every lane. -/
  | vbcs (t : ThreadRef)
  /-- VGSC (R289): Sends 32 expert scores for a token to the gate unit's candidate list. -/
  | vgsc (t : ThreadRef) (mism : Option Bool)
  /-- VGRD (R293): Reads a token's selection record and status entry into registers. -/
  | vgrd (t : ThreadRef)
  /-- PLOG (R160): Combines predicates logically. -/
  | plog (t : ThreadRef)
  /-- VIDX (R160): Writes lane, thread or group indices into a register. -/
  | vidx (t : ThreadRef)
  /-- SOP (R160): Scalar arithmetic or logic operation. -/
  | sop (t : ThreadRef)
  /-- SMOVV (R160): Moves one lane into a scalar register. -/
  | smovv (t : ThreadRef)
  /-- SRD (R160): Reads panel time, cycle count, job tag, region or block into a scalar. -/
  | srd (t : ThreadRef)
  /-- SADDI (R160): Adds an immediate to a scalar. -/
  | saddi (t : ThreadRef)
  /-- SANDI (R160): Ands a scalar with an immediate. -/
  | sandi (t : ThreadRef)
  /-- SORI (R160): Ors a scalar with an immediate. -/
  | sori (t : ThreadRef)
  /-- SSHI (R160): Shifts a scalar by an immediate. -/
  | sshi (t : ThreadRef)
  /-- SSHIN (R160): Shifts a scalar left 12 and inserts an immediate. -/
  | sshin (t : ThreadRef)
  /-- VBCI (R160): Broadcasts a sign-extended immediate into every lane. -/
  | vbci (t : ThreadRef)
  /-- VADDI (R160): Adds an immediate to every INT32 lane. -/
  | vaddi (t : ThreadRef)
  /-- VLD (R154): Loads 32 elements from local memory or the block's stores. -/
  | vld (t : ThreadRef)
  /-- VST (R190): Stores 32 elements to local memory or the block's stores. -/
  | vst (t : ThreadRef) (mism : Option Bool)
  /-- VLDX (R188): Gathers words at per-lane addresses. -/
  | vldx (t : ThreadRef)
  /-- VSTX (R190): Scatters words to per-lane addresses. -/
  | vstx (t : ThreadRef) (mism : Option Bool)
  /-- SLD (R154): Loads 64 bits into a scalar register. -/
  | sld (t : ThreadRef)
  /-- SST (R154): Stores a scalar register. -/
  | sst (t : ThreadRef) (mism : Option Bool)
  /-- VLDR (R156): Reads 128 bytes from any panel address over the fabric, parking until the reply. -/
  | vldr (t : ThreadRef)
  /-- VSTR (R154): Writes 128 bytes to stacks, host or peer memory over the fabric. -/
  | vstr (t : ThreadRef) (mism : Option Bool)
  /-- VPUT (R154): Writes 128 bytes into a pen held by the block. -/
  | vput (t : ThreadRef) (mism : Option Bool)
  /-- VATOM (R160): Atomically applies per-lane add, max or min at local addresses. -/
  | vatom (t : ThreadRef) (mism : Option Bool)
  /-- SATOMR (R154): Sends a remote atomic add and parks until its completion. -/
  | satomr (t : ThreadRef) (mism : Option Bool)
  /-- VCLD (R165): Loads a curve table into all 14 cells of the block. -/
  | vcld (t : ThreadRef) (mism : Option Bool)
  /-- BRA (R160): Unconditional branch. -/
  | bra (t : ThreadRef)
  /-- BEQ (R160): Branches when two scalars are equal. -/
  | beq (t : ThreadRef)
  /-- BNE (R160): Branches when two scalars differ. -/
  | bne (t : ThreadRef)
  /-- BLT (R160): Branches when one scalar is less, signed. -/
  | blt (t : ThreadRef)
  /-- BGE (R160): Branches when one scalar is at least the other, signed. -/
  | bge (t : ThreadRef)
  /-- BPANY (R160): Branches when any predicate bit is set. -/
  | bpany (t : ThreadRef)
  /-- BPALL (R160): Branches when every predicate bit is set. -/
  | bpall (t : ThreadRef)
  /-- YIELD (R160): Parks the thread for a number of core cycles. -/
  | yield (t : ThreadRef)
  /-- YIELD_END (R160): A yielding thread's park time expires and it becomes ready. -/
  | yieldEnd (t : ThreadRef)
  /-- HARV (R160): Arrives at a hurdle after the thread's earlier writes complete. -/
  | harv (t : ThreadRef) (mism : Option Bool)
  /-- HWAIT (R160): Waits for a hurdle or the group barrier. -/
  | hwait (t : ThreadRef) (mism : Option Bool)
  /-- EXIT (R155): Ends the thread after its earlier writes complete. -/
  | exit (t : ThreadRef) (mism : Option Bool)
  /-- CHECK_SKEW_TIMEOUT (R169): One cell of a checked pair fails to reach a compare point within CHECK_SKEW. -/
  | checkSkewTimeout (t : ThreadRef)
  /-- LAUNCH_END (R233): The last thread of a launch exits; the launch completes and its queue's hurdle counts advance. -/
  | launchEnd (q : QueueRef)
  /-- VECTOR_ROUNDS_TEST (R170): Every 640 µs the next vector cell runs its ROM test as a hidden thread. -/
  | vectorRoundsTest (node : Nat) (blk : Nat)
  /-- VECTOR_TEST_DONE (R170): A vector test ends; a second failure retires the cell. -/
  | vectorTestDone (node : Nat) (blk : Nat) (pass : Bool)
  /-- SX_HARRIVE (R178): A write to the HARRIVE CSR arrives at a hurdle after prior stores complete. -/
  | sxHarrive (node : Nat) (blk : Nat)
  /-- SX_HWAITC (R178): A write to the HWAITC CSR stalls SX until the hurdle releases. -/
  | sxHwaitc (node : Nat) (blk : Nat)
  /-- SX_ECALL (R178): ECALL ends the SX program and the launch completes DONE. -/
  | sxEcall (node : Nat) (blk : Nat)
  /-- SX_TRAP (R178): A trap ends the SX launch with POISONED or ACCESS_FAULT and records VXC_FAULT. -/
  | sxTrap (node : Nat) (blk : Nat)
  /-- SX_ROUNDS_TEST (R178): The scalar cell runs its 6,000-cycle test between programs at least every 8.96 ms. -/
  | sxRoundsTest (node : Nat) (blk : Nat) (pass : Bool)
  /-- LOCKSTEP_MISMATCH (R181): The control-core comparator finds a mismatch; the block stops and the region is retired. -/
  | lockstepMismatch (node : Nat) (blk : Nat)
  /-- TASK_POST (R184): A task record is posted into a hub's task ring under credits, raising the cores' interrupt. -/
  | taskPost (hub : Nat) (poster : Option QueueRef) (tag : Nat) (bits512 : Nat)
  /-- TASK_DONE (R184): A task's completion word is written, returning the poster's credit and arriving at its hurdle. -/
  | taskDone (hub : Nat) (core : Nat) (place : Nat) (st : Nat)
  /-- FB_RUN_WRITE (R425): A write of HUB_FBCTRL.RUN releases a fall-back core at ENTRY or holds it in reset. -/
  | fbRunWrite (a : RegAccess)
  /-- SCRUB_SLOT (R194): Every 30 µs the scrubber schedules the next row of every bank. -/
  | scrubSlot (node : Nat) (blk : Nat)
  /-- PEN_UNIT_ZEROED (R207): The pen unit finishes zeroing free pool units with no recorded holder. -/
  | penUnitZeroed (node : Nat) (blk : Nat)
  /-- PEN_WAIT_EXPIRY (R204): A pending pen request reaches WAIT_NS and completes PEN_FULL. -/
  | penWaitExpiry (node : Nat) (blk : Nat) (src : Nat) (txn : Nat)
  /-- HOLDER_WAIT_EXPIRY (R202): A request waiting for a holder-table entry reaches its wait limit and completes PEN_FULL unsent. -/
  | holderWaitExpiry (node : Nat) (unit : Nat)
  /-- PEN_REVOKE (R208): 100 µs after draining began each pen still held is revoked with TARGET_RESETTING. -/
  | penRevoke (node : Nat) (blk : Nat)
  /-- REVOKE_NOTICE (R208): A revocation notice reaches the holder, which marks its entry revoked. -/
  | revokeNotice (p : Packet)
  /-- POOL_UNITS_WRITE (R201): A write of BLK_PEN_CFG.POOL_UNITS resizes the pen pool, or is dropped. -/
  | poolUnitsWrite (a : RegAccess)
  /-- PEN_COUNT_CLEAR (R215): A write of CLEAR zeroes every field of BLK_PEN_COUNT. -/
  | penCountClear (a : RegAccess)
  /-- MVE_COPY (R225): Copies rows of bytes from SRC to DST. -/
  | mveCopy (q : QueueRef)
  /-- MVE_PEN_REQ (R202): Requests a pen in a target block and stores the grant or predicate. -/
  | mvePenReq (q : QueueRef)
  /-- MVE_PEN_PUT (R205): Writes bytes into a held pen as PEN_PUT packets. -/
  | mvePenPut (q : QueueRef)
  /-- MVE_PEN_RELEASE (R206): Releases a held pen, or frees a revoked entry without a packet. -/
  | mvePenRelease (q : QueueRef)
  /-- MVE_BCAST (R225): Puts the same bytes into the pens of members along the block's row or column. -/
  | mveBcast (q : QueueRef)
  /-- MVE_FOLD (R264): Contributes to a fold along a logical row or column in fixed logical order. -/
  | mveFold (q : QueueRef)
  /-- MVE_DIGEST (R240): Computes a CRC-64 digest over a byte range and writes it to OUT. -/
  | mveDigest (q : QueueRef)
  /-- GTE_SELECT (R290): Chooses up to K experts per token and writes selection records and status entries. -/
  | gteSelect (q : QueueRef)
  /-- GTE_DISPATCH (R295): Assigns token choices to destination rows under capacity and puts token rows into their pens. -/
  | gteDispatch (q : QueueRef)
  /-- GTE_COMBINE (R303): Combines expert results per token in choice order into the home heft. -/
  | gteCombine (q : QueueRef)
  /-- GTE_TALLY (R297): Sends per-expert dispatch counts to each destination row's edge dies. -/
  | gteTally (q : QueueRef)
  /-- CTL_HURDLE (R233): Arrives at a hurdle and optionally waits for the generation just joined. -/
  | ctlHurdle (q : QueueRef)
  /-- CTL_WAIT (R226): Waits for a hurdle, a memory word or a panel time, with an optional limit. -/
  | ctlWait (q : QueueRef)
  /-- CTL_WAIT_POLL (R226): Every 1 µs a memory-mode CTL_WAIT rereads its word. -/
  | ctlWaitPoll (q : QueueRef)
  /-- CTL_WAIT_LIMIT (R226): A CTL_WAIT reaches its LIMIT and completes TIMEOUT. -/
  | ctlWaitLimit (q : QueueRef)
  /-- CTL_JUMP (R235): Moves the queue's walk to a target descriptor. -/
  | ctlJump (q : QueueRef)
  /-- CTL_CALL (R235): Pushes the next descriptor address and jumps. -/
  | ctlCall (q : QueueRef)
  /-- CTL_RET (R235): Pops the call stack and continues there. -/
  | ctlRet (q : QueueRef)
  /-- CTL_PREDICATE (R235): Writes a block predicate from a memory compare or the loop counter. -/
  | ctlPredicate (q : QueueRef)
  /-- CTL_PHASE (R236): Declares a phase and optionally makes it current for the block. -/
  | ctlPhase (q : QueueRef)
  /-- CTL_TALLY_FLUSH (R532): Completes once every tally record the block's queues sent is written or dropped. -/
  | ctlTallyFlush (q : QueueRef)
  /-- CTL_BREAK (R540): Halts the block when CTLBRK_EN is set, otherwise acts as CTL_NOP. -/
  | ctlBreak (q : QueueRef)
  /-- CTL_NOP (R223): Does nothing and completes. -/
  | ctlNop (q : QueueRef)
  /-- COMMAND_COMPLETE (R237): A command finishes; its completion record is written and its hurdle signal sent per its status. -/
  | commandComplete (q : QueueRef)
  /-- DVE_STREAM (R244): Streams weight records from the stacks as a drove along the row. -/
  | dveStream (q : QueueRef)
  /-- DVE_STREAM_LINK (R255): Streams weight records from a peer or store over a bundle as a drove. -/
  | dveStreamLink (q : QueueRef)
  /-- DVE_EXPERTS (R299): Streams the experts needed by a tally table, with optional run-ahead. -/
  | dveExperts (q : QueueRef)
  /-- DVE_COMMIT (R260): Commits a provisional drove sequence at every member. -/
  | dveCommit (q : QueueRef)
  /-- DVE_CANCEL (R261): Cancels a provisional drove sequence and withdraws later provisional streams. -/
  | dveCancel (q : QueueRef)
  /-- STREAM_STALL_TIMEOUT (R251): A stream sends no line for STALL_LIMIT and completes TIMEOUT. -/
  | streamStallTimeout (node : Nat) (seq : Nat)
  /-- LINK_READ_FAIL (R255): A link read of a stream completes with a failing status and the stream stops. -/
  | linkReadFail (p : Packet)
  /-- TALLY_TABLE_FINAL (R301): The edge die's wait on a table's finalising hurdle is satisfied and DVE_EXPERTS decides every sequence. -/
  | tallyTableFinal (node : Nat)
  /-- JBE_SUBMIT (R241): Checks and accepts a job, declares its hefts and starts its lists. -/
  | jbeSubmit
  /-- JBE_ABORT (R239): Aborts a live job with TARGET_RESETTING. -/
  | jbeAbort
  /-- JBE_QUERY (R243): Writes a job's state record to OUT. -/
  | jbeQuery
  /-- TALLY_RECORD (R531): A tally record reaches the job engine's intake and is written to the job's ring or dropped. -/
  | tallyRecord
  /-- COUNTER_CLEAR (R535): A write of CLEAR zeroes a page's free-running counters. -/
  | counterClear (a : RegAccess)
  /-- MEMCFG_WRITE (R316): A write of HUB_MEMCFG changes placement while no job is live, or scrub pass length. -/
  | memcfgWrite (a : RegAccess)
  /-- MIRROR_WRITE (R317): A mirror write arrives at the partner controller and is applied. -/
  | mirrorWrite (p : Packet)
  /-- STACK_TEMP_READ (R322): Every 1 ms the controller reads the stack temperature and sets refresh and caps. -/
  | stackTempRead (st : Nat) (temp : Nat)
  /-- STACK_SCRUB_PASS (R320): A new stack scrub pass starts at its scheduled time. -/
  | stackScrubPass (st : Nat)
  /-- SCRUB_AT_RISK (R321): A scrub pass becomes at risk and the scrubber forces 2 % of access slots. -/
  | scrubAtRisk (st : Nat) (done : Nat)
  /-- STACK_FAIL (R325): A stack fails; its router answers TARGET_RETIRED and paired placement remaps it. -/
  | stackFail (st : Nat) (cause : StackCause)
  /-- STACK_TRAIN_FALLBACK (R311): A stack that fails 8.0 Gb/s training is retrained at 6.4 Gb/s. -/
  | stackTrainFallback (st : Nat) (ok : Bool)
  /-- LINK_ENABLE (R338): A write of LNK_CTRL.ENABLE starts or stops a bundle. -/
  | linkEnable (a : RegAccess)
  /-- LINK_MODE_WRITE (R360): A write of LNK_CTRL.MODE switches Drieno or Ethernet and retrains the bundle. -/
  | linkModeWrite (a : RegAccess)
  /-- REENABLE (R338): A write of REENABLE takes a retired bundle back to training. -/
  | reenable (a : RegAccess)
  /-- FULL_TRAIN (R360): A write of FULL_TRAIN discards saved settings and retrains the bundle. -/
  | fullTrain (a : RegAccess)
  /-- LINK_WAKE_EVENT (R338): In LISTEN, signal, knock or queued frames start training. -/
  | linkWakeEvent (node : Nat) (b : Nat) (cause : LinkWake)
  /-- TRAINING_DONE (R338): Fast or full training ends in success or failure. -/
  | trainingDone (node : Nat) (b : Nat) (ok : Bool)
  /-- ALIGN_DONE (R338): ALIGN locks and deskews lanes and chooses the width, or fails. -/
  | alignDone (node : Nat) (b : Nat) (ok : Bool)
  /-- EXCHANGE (R341): The TRAIN record is received and the session outcome decided by incarnation and session. -/
  | exchange (node : Nat) (b : Nat) (peer : Nat) (inc : Nat) (session : Nat) (last : Nat) (lanes : Nat) (mode : Nat)
  /-- LINK_DOWN (R339): A bundle in UP loses signal, FEC or retry and goes to LINGER. -/
  | linkDown (node : Nat) (b : Nat) (cause : LinkLoss)
  /-- LANE_RETIRE (R342): A lane crossing its error threshold is retired and the bundle retrains at half width. -/
  | laneRetire (node : Nat) (b : Nat) (lane : Nat)
  /-- LINGER_EXPIRY (R340): LINGER_MS elapses; unsent frames move to other bundles and the rest complete LINGER_EXPIRED. -/
  | lingerExpiry (node : Nat) (b : Nat)
  /-- DATA_FRAME (R336): A DATA frame is received in order and its link packets enter the fabric. -/
  | dataFrame (node : Nat) (b : Nat) (f : Frame)
  /-- IDLE_FRAME (R334): An IDLE frame delivers acknowledgement and credits. -/
  | idleFrame (node : Nat) (b : Nat) (f : Frame)
  /-- HURDLE_FRAME (R355): A HURDLE frame carries job-hurdle arrivals, releases, joins or aborts between master hubs. -/
  | hurdleFrame (node : Nat) (b : Nat) (f : Frame)
  /-- PACE_FRAME (R356): A PACE frame carries a member's pace report or the bellwether's pace setting. -/
  | paceFrame (node : Nat) (b : Nat) (f : Frame)
  /-- TIME_FRAME (R358): A TIME frame carries timestamps and depth for time transfer. -/
  | timeFrame (node : Nat) (b : Nat) (f : Frame)
  /-- DOWN_FRAME (R343): A DOWN frame is received and acknowledged and the bundle goes to LISTEN. -/
  | downFrame (node : Nat) (b : Nat) (f : Frame)
  /-- FRAME_NAK (R337): A NAK or a bad frame makes the sender resend go-back-N from ACK + 1. -/
  | frameNak (node : Nat) (b : Nat) (f : Frame)
  /-- ACK_TIMEOUT (R337): ACK does not advance within ACK_TIMEOUT and the sender resends. -/
  | ackTimeout (node : Nat) (b : Nat)
  /-- ETH_DATAGRAM (R345): A UDP datagram arrives in Ethernet mode and its link frames are taken, or it is discarded. -/
  | ethDatagram (node : Nat) (b : Nat) (d : Datagram) (good : Bool)
  /-- KNOCK_SEND (R343): Every 32 µs a sender in LISTEN with queued frames sends a knock. -/
  | knockSend (node : Nat) (b : Nat)
  /-- WAKE_LIMIT_EXPIRY (R343): A bundle not UP within WAKE_LIMIT has its held frames handled as at linger expiry. -/
  | wakeLimitExpiry (node : Nat) (b : Nat)
  /-- PEER_REQUEST (R350): An inbound peer request is checked against aperture slices and proxied into the panel. -/
  | peerRequest (node : Nat) (b : Nat) (cls : Nat)
  /-- PEER_PEN_REQ (R351): An inbound peer PEN_REQ takes a pen proxy and is requested locally. -/
  | peerPenReq (node : Nat) (b : Nat)
  /-- TRANSIT_PACKET (R349): A link packet for another panel is forwarded on with TRANSIT raised. -/
  | transitPacket (node : Nat) (b : Nat) (cls : Nat)
  /-- CASCADE_JOIN (R354): A member's JOIN reaches the bellwether and its list digest is compared. -/
  | cascadeJoin (tag : Nat) (panel : Nat)
  /-- JOIN_EXPIRY (R354): The 10 s join period expires and the job aborts TIMEOUT on joined members. -/
  | joinExpiry (tag : Nat)
  /-- PACE_REPORT (R356): Each millisecond of bellwether time a member reports its pace. -/
  | paceReport (tag : Nat)
  /-- PACE_APPLY (R356): At the pace's effective time every member sets its regions to the pace. -/
  | paceApply (tag : Nat)
  /-- MEMBER_LOST (R357): No report or arrival from a member for 100 ms and the job aborts TIMEOUT. -/
  | memberLost (tag : Nat) (panel : Nat)
  /-- TIME_EXCHANGE (R358): Every 1 ms each bundle exchanges four timestamps with its peer. -/
  | timeExchange (node : Nat) (b : Nat) (t1 : Nat) (t2 : Nat) (t3 : Nat) (t4 : Nat)
  /-- FLR (R372): A Function Level Reset aborts the endpoint's jobs and resets its queues and windows. -/
  | flr (hub : Nat)
  /-- PERST (R551): PERST_N asserted holds the endpoint in conventional reset. -/
  | perst (hub : Nat)
  /-- BAR2_ACCESS (R374): A host access through BAR2 reaches the panel address of the window. -/
  | bar2Access (hub : Nat) (tag : Nat) (off : Nat) (n : Nat) (data : Option (List Byte))
  /-- BAR2_WIN_WRITE (R374): A write of HUB_BAR2_WIN moves the window for later requests. -/
  | bar2WinWrite (a : RegAccess)
  /-- HOST_COMPLETION_TIMEOUT (R375): A host request with no panel reply in 900 µs is answered Completer Abort. -/
  | hostCompletionTimeout (hub : Nat) (tag : Nat)
  /-- SQ_DOORBELL (R380): A write of an SQ doorbell advances the tail or is refused as overrun. -/
  | sqDoorbell (hub : Nat) (tag : Nat) (off : Nat) (n : Nat) (data : Option (List Byte))
  /-- CQ_DOORBELL (R380): A write of a CQ doorbell advances the head or is refused. -/
  | cqDoorbell (hub : Nat) (tag : Nat) (off : Nat) (n : Nat) (data : Option (List Byte))
  /-- SQ_FETCH (R381): The hub fetches pending descriptors from an enabled SQ in round robin. -/
  | sqFetch (hub : Nat)
  /-- SQ_DESCRIPTOR (R381): A fetched descriptor arrives and is accepted or refused and HEAD advanced. -/
  | sqDescriptor
  /-- CQ_ENTRY_WRITE (R382): A CQ entry is written after host writes are visible, and the vector raised. -/
  | cqEntryWrite (hub : Nat) (q : Nat)
  /-- SQ_CFG_WRITE (R384): A write of HUB_SQCFG or HUB_CQCFG configures, enables or resets a queue. -/
  | sqCfgWrite (a : RegAccess)
  /-- HOSTCFG_WRITE (R424): A write of HUB_HOSTCFG.DUAL selects failover or dual host routing. -/
  | hostcfgWrite (a : RegAccess)
  /-- GUEST_PACKET (R387): A guest packet passes the firewall checks, is metered and rewritten, or is refused FENCE_DENIED. -/
  | guestPacket (hub : Nat) (p : Packet) (since : Nat)
  /-- GUEST_LINK_DOWN (R389): The UCIe link goes down or the guest resets; its replies, pens and pen requests are cleaned up. -/
  | guestLinkDown (hub : Nat)
  /-- GUEST_DOORBELL (R391): A guest write to mailbox offset 0x300 raises vector 55. -/
  | guestDoorbell (hub : Nat)
  /-- GUEST_INTERRUPT (R391): A host or firmware write to mailbox offset 0x308 interrupts the guest. -/
  | guestInterrupt (hub : Nat) (o : Origin)
  /-- REGISTER_WRITE (R411): A write to a register with no row of its own is checked field by field, applied and recorded. -/
  | registerWrite (a : RegAccess)
  /-- UNIT_ENABLE (R400): A write of UNIT_CTRL.ENABLE starts a unit or takes it to off through draining. -/
  | unitEnable (a : RegAccess)
  /-- RESET_REQ (R523): A write of UNIT_CTRL.RESET_REQ starts a unit's partial reset through draining. -/
  | resetReq (a : RegAccess)
  /-- QUIESCE (R400): A write of UNIT_CTRL.QUIESCE takes a unit to quiesced or back to running. -/
  | quiesce (a : RegAccess)
  /-- DRAIN_COMPLETE (R400): A draining unit's work in flight completes and it moves to quiesced, starting or off. -/
  | drainComplete (node : Nat) (page : Nat)
  /-- SELF_TEST_DONE (R400): A starting unit's self-test ends and it runs or is retired. -/
  | selfTestDone (node : Nat) (page : Nat) (ok : Bool)
  /-- ERR_INJECT (R404): A write of ERR_INJECT.GO in debug mode injects one error condition. -/
  | errInject (a : RegAccess)
  /-- LOCK (R408): A write of LOCK.LOCKED locks the page, or the whole panel from the master hub. -/
  | lock (a : RegAccess)
  /-- ASSIST_POST (R418): A unit posts an assist record for a host-assisted function and waits. -/
  | assistPost (own : Option Ask)
  /-- ASSIST_REPLY (R420): A write of HUB_ASSIST_REPLY completes a pending assist. -/
  | assistReply (a : RegAccess)
  /-- ASSIST_DEADLINE (R418): An assist reaches its deadline; the unit acts in hardware mode and reverts the function. -/
  | assistDeadline (x : Overdue)
  /-- MCTP_REG_READ (R416): Vendor REG_READ reads a register as origin M. -/
  | mctpRegRead (payload : List Byte) (waiting : Nat)
  /-- MCTP_REG_WRITE (R416): Vendor REG_WRITE writes a register as origin M. -/
  | mctpRegWrite (payload : List Byte) (waiting : Nat)
  /-- GET_STATE (R416): Vendor GET_STATE returns geometry, master, power state, temperature and power. -/
  | getState (payload : List Byte) (waiting : Nat)
  /-- SET_BUDGET (R453): Vendor SET_BUDGET sets the panel budget and returns the budget in force. -/
  | setBudget (payload : List Byte) (waiting : Nat)
  /-- GET_ENERGY (R416): Vendor GET_ENERGY returns a job tag's energy. -/
  | getEnergy (payload : List Byte) (waiting : Nat)
  /-- LOG_READ (R416): Vendor LOG_READ returns log entries from a sequence number. -/
  | logRead (payload : List Byte) (waiting : Nat)
  /-- MCTP_ASSIST_REPLY (R416): Vendor ASSIST_REPLY writes HUB_ASSIST_REPLY as origin M. -/
  | mctpAssistReply (payload : List Byte) (waiting : Nat)
  /-- MCTP_CONTROL (R415): An MCTP control command such as Set Endpoint ID is answered. -/
  | mctpControl (inst : Nat) (cmd : Nat) (payload : List Byte)
  /-- PLDM_REQUEST (R417): A PLDM type 0 or type 2 command is answered from the fixed repository and sensors. -/
  | pldmRequest (inst : Nat) (typ : Nat) (cmd : Nat) (payload : List Byte)
  /-- PLATFORM_EVENT (R417): A sensor threshold crossing or state change sends a PlatformEventMessage. -/
  | platformEvent (sensor : Nat)
  /-- DYNAMIC_ADDRESS (R415): ENTDAA or SETDASA assigns the I3C dynamic address. -/
  | dynamicAddress (addr : Nat)
  /-- REFCLK_LOSS (R427): No REFCLK0 edge for 1 µs moves every PLL to REFCLK1, or stops the panel when both are lost. -/
  | refclkLoss (both : Bool)
  /-- FREQ_CHANGE_START (R430): The clock controller starts a frequency change when the target differs and conditions allow. -/
  | freqChangeStart (node : Nat)
  /-- PLL_LOCK (R431): The core PLL locks and the clock resumes at the new frequency. -/
  | pllLock (node : Nat)
  /-- PLL_LOCK_FAIL (R432): A PLL not locked by 1.4 µs or found out of lock stops its region or router. -/
  | pllLockFail (node : Nat) (fabric : Bool)
  /-- TARGET_RECOMPUTE (R450): At least every 1 µs the region recomputes its target frequency from all limits. -/
  | targetRecompute (node : Nat) (power : Nat) (current : Nat)
  /-- DROOP_CROSSING (R433): The rail crosses the droop threshold and the clock is stretched. -/
  | droopCrossing (node : Nat)
  /-- DROOP_RECOVERY (R433): The rail stays above the threshold for HOLD cycles and full rate returns in stages. -/
  | droopRecovery (node : Nat)
  /-- BEACON_SEND (R435): Every 16 µs the master hub sends a panel-time beacon down the tree. -/
  | beaconSend
  /-- BEACON_RECEIVE (R435): A router receives a beacon and spreads the difference over 16 µs. -/
  | beaconReceive (node : Nat) (err : Int)
  /-- TIME_STEP (R436): Before the first job a step-marked beacon loads a new panel time count. -/
  | timeStep (count : Nat)
  /-- PPS_EDGE (R437): A rising edge of PTP 1PPS in is captured and steers the rate. -/
  | ppsEdge (t : Nat)
  /-- TIM_RATE_WRITE (R440): A write of TIM_RATE sets the host rate correction. -/
  | timRateWrite (a : RegAccess)
  /-- RAIL_FAULT (R443): A rail outside its band for 10 µs stops the region or the panel. -/
  | railFault (node : Nat) (panel : Bool)
  /-- VIN_CORE_LOSS (R504): Loss of VIN_CORE starts the hold-up flush. -/
  | vinCoreLoss (n : Nat) (vaonLost : Bool)
  /-- CONTACT_MEASURE (R447): Every 10 ms a region measures its input-path resistance and sets contact flags. -/
  | contactMeasure (node : Nat) (r : Nat)
  /-- EFFICIENCY_LOOP (R452): Every 100 µs the efficiency loop raises or lowers efficiency_f. -/
  | efficiencyLoop (node : Nat) (stalls : Nat) (cycles : Nat)
  /-- BUDGET_LOOP (R454): Every 1 ms the master hub divides the budget by water-filling. -/
  | budgetLoop (panel : Nat) (fixed : Nat)
  /-- BUDGET_GUARD (R455): Input over budget by 10 % for 100 µs lowers every region one point. -/
  | budgetGuard (panel : Nat)
  /-- SHARE_WRITE (R470): A write of PWR_LIMIT.SHARE sets a host-assisted budget share. -/
  | shareWrite (a : RegAccess)
  /-- BUDGET_WRITE (R453): A write of HUB_BUDGET.BUDGET sets the panel budget. -/
  | budgetWrite (a : RegAccess)
  /-- THROTTLE_ASSERT (R456): PANEL_THROTTLE_N asserted forces every region to FLOOR_OP. -/
  | throttleAssert
  /-- THROTTLE_RELEASE (R456): 1 ms after PANEL_THROTTLE_N releases throttle_f becomes unlimited. -/
  | throttleRelease
  /-- THERMAL_SAMPLE (R457): Every 20 µs a region reads its sensors and adjusts thermal_f. -/
  | thermalSample (node : Nat) (s0 : Nat) (s1 : Nat) (s2 : Nat) (s3 : Nat)
  /-- REGION_THERMAL_RESTART (R458): After 1 s at or below 95 °C a thermally stopped region powers up again. -/
  | regionThermalRestart (node : Nat)
  /-- PANEL_STOP (R459): 115 °C, airflow loss or a panel rail fault stops the panel by the stop sequence. -/
  | panelStop (cause : StopCause)
  /-- AIRFLOW_LOSS (R459): AIRFLOW_OK deasserted for 100 µs. -/
  | airflowLoss
  /-- PANEL_RESUME (R459): Airflow back and 10 s at or below 90 °C resume the panel in waves. -/
  | panelResume
  /-- FORECAST (R460): Every 1 ms the forecaster predicts temperatures and sets forecast_f and FAN_REQ. -/
  | forecast (hot : List (Nat × Nat)) (p : Nat)
  /-- FC_HOST_WRITE (R476): A write of HUB_FC_HOST supplies fan request and ceilings. -/
  | fcHostWrite (a : RegAccess)
  /-- ENERGY_INTERVAL (R461): Every 10 µs a region attributes its energy to job tags. -/
  | energyInterval (node : Nat) (uj : Nat) (parts : List (Nat × Nat))
  /-- REGION_IDLE_ENTRY (R462): A region with no work for IDLE_DELAY gates its core clock. -/
  | regionIdleEntry (node : Nat)
  /-- REGION_IDLE_EXIT (R462): A command, arrival or access restarts an idle region's clock. -/
  | regionIdleExit (node : Nat)
  /-- NAP_ENTRY (R463): Hub firmware admits an idle region to Nap and runs the entry steps. -/
  | napEntry (node : Nat) (abort : Option Nat)
  /-- NAP_EXIT (R465): A wake brings a napping region back to running. -/
  | napExit (node : Nat)
  /-- STANDBY_REQ (R466): A write of STANDBY_REQ puts the panel into Panel Standby. -/
  | standbyReq (a : RegAccess) (abort : Option Nat)
  /-- PANEL_WAKE (R467): A wake source brings the panel out of Standby. -/
  | panelWake
  /-- WAKE_N (R468): WAKE_N asserted wakes the panel. -/
  | wakeN
  /-- WAKE_TIMER (R468): HUB_WAKE_TIMER reaches its time and wakes the panel. -/
  | wakeTimer
  /-- PROBE_FINDING (R492): The two-path probe ends and its finding clears, retires or reroutes the unit. -/
  | probeFinding (node : Nat)
  /-- PROBE_ATTEMPT (R491): A fabric or sideband probe read is sent or times out. -/
  | probeAttempt (node : Nat) (sideband : Bool) (answers : Bool)
  /-- LOOPBACK_TEST (R492): A router loopback over the sideband decides ROLE 0b011 or 0b100. -/
  | loopbackTest (node : Nat) (transit : Bool)
  /-- REGION_RETIRE (R487): A region is retired; jobs abort and the row spare is taken or N changes. -/
  | regionRetire (node : Nat)
  /-- SPARE_POWERED (R487): The spare's power-up wave completes and its image is written. -/
  | sparePowered (node : Nat)
  /-- SPARE_KAT_DONE (R487): The spare's known-answer run ends; it becomes ACTIVE or is retired. -/
  | spareKatDone (node : Nat) (pass : Bool)
  /-- UNIT_RESET (R494): A drove engine or stack controller reset drains and restarts that edge-die unit. -/
  | unitReset (node : Nat) (stack : Bool)
  /-- HEARTBEAT (R495): Every 100 µs each hub sends a heartbeat to the other on both paths. -/
  | heartbeat (hub : Nat) (fabric : Bool) (sideband : Bool)
  /-- HEARTBEAT_LOSS (R495): No heartbeat for 3 ms, or a reported master fault, makes the standby take over. -/
  | heartbeatLoss (hub : Nat)
  /-- HANDOVER_MASTER (R497): At an agreed time the master role moves to the other hub without fencing. -/
  | handoverMaster
  /-- BEACON_ABSENT (R498): With both hubs lost, regions stop their cores after 1 ms without a beacon. -/
  | beaconAbsent
  /-- LOG_REPORT (R499): A fault or change report reaches the master hub, takes a SEQ and is committed to both rings. -/
  | logReport
  /-- LOG_SPILL (R503): A page of 8 entries, or 1 ms, spills committed entries to the flash partition. -/
  | logSpill (ok : Bool)
  /-- LOG_SCRUB (R506): Every 100 ms the log scrubs its banks and retires a bank with a double-bit word. -/
  | logScrub (bad : List (Nat × Nat × Nat)) (corrected : Nat)
  /-- LOG_HRING_HEAD (R510): A write of LOG_HRING_HEAD acknowledges entries read by the host. -/
  | logHringHead (a : RegAccess)
  /-- PANEL_RESET_RELEASE (R512): PANEL_RESET_N released with PWR_EN asserted runs bring-up to readiness. -/
  | panelResetRelease (b : Bringup)
  /-- PANEL_RESET_ASSERT (R524): PANEL_RESET_N asserted resets every domain but always-on, which completes the flush. -/
  | panelResetAssert
  /-- PWR_EN_DEASSERT (R547): PWR_EN deasserted while running takes a requested panel reset and holds in reset. -/
  | pwrEnDeassert
  /-- COMPUTE_RESET (R522): A write of COMPUTE_RESET aborts every job and resets every region core and block. -/
  | computeReset (a : RegAccess)
  /-- PANEL_RESET (R524): A write of HUB_BOOTCTL.PANEL_RESET spills the log and resets the panel. -/
  | panelReset (a : RegAccess)
  /-- UPDATE (R526): A write of UPDATE authenticates and applies the inactive firmware bundle. -/
  | update (a : RegAccess)
  /-- FORCE_FULL_WRITE (R527): A write of FORCE_FULL requests a full start at the next bring-up. -/
  | forceFullWrite (a : RegAccess)
  /-- RESUME (R541): A write of RESUME forwards the held command and resumes a halted block. -/
  | resume (a : RegAccess)
  /-- STEP (R541): A write of STEP in debug mode forwards one command of a halted block and stays halted. -/
  | step (a : RegAccess)
  /-- FREEZE (R539): A write of DBG_FREEZE.FREEZE freezes every event ring. -/
  | freeze (a : RegAccess)
  /-- THAW (R539): A write of DBG_FREEZE.THAW unfreezes every event ring. -/
  | thaw (a : RegAccess)
  /-- DEBUG_MODE_WRITE (R542): A write of DBG_MODE.DEBUG enters debug mode while no job is live, or leaves it. -/
  | debugModeWrite (a : RegAccess)
  /-- DBG_ACC_GO (R542): A write of DBG_ACC.GO issues a register access as origin D. -/
  | dbgAccGo (a : RegAccess)
  /-- REBASE (R473): A write of REBASE in debug mode measures a new contact baseline. -/
  | rebase (a : RegAccess) (r : Nat)
  /-- RAIL_FRAME (R553): Every 10 µs while the panel runs it sends one 32-bit CRC-protected frame on RAIL_CLK and RAIL_DAT to the power stage. -/
  | railFrame (step : Nat) (next : Nat)
  /-- CTL_WAIT_TIME_PASSED (R226): A CTL_WAIT in mode 2 completes when panel time passes its VALUE. -/
  | ctlWaitTimePassed (q : QueueRef)
  /-- HOLDUP_CHARGED (R504): 400 ms after VIN_CORE is present the hold-up bank is charged and LOG_STAT.HOLDUP_READY reads 1. -/
  | holdupCharged
  /-- VAON_PRESENT (R512): With VAON present and a reference toggling, the always-on domain of every die starts running the log SRAM, sideband and fuse controller. -/
  | vaonPresent
  /-- PERST_RELEASE (R551): PERST_N released lets the endpoint leave conventional reset and train its link. -/
  | perstRelease (hub : Nat)
  /-- SX_INSTRUCTION (R177): The scalar cell executes an RV64 instruction, including loads, stores and AMOs sent over the fabric as reads, PEN_PUT or ATOMIC_ADD. -/
  | sxInstruction (node : Nat) (blk : Nat)
  deriving DecidableEq, Repr

end Sys2Proof
end

