-- ==== Sys2Proof/Decode.lean ====
section
/-!
DEFINITION. Commands come from outside as they are; the table gives none of them an encoding.
-/
namespace Sys2Proof

/-- The command a word spells by the bits of spec/opcode_table.json: no row of the table gives bits, so no word spells one. -/
def decodeTableWord (_nbits _w : Nat) : Option Instr := none

end Sys2Proof
end

