-- ==== Sys2Proof/Machine/Descriptors.lean ====
section
/-!
DEFINITION. The 64-byte command descriptor (R221, R223-R226): header fields, opcodes, the operand fields of each opcode, which
lists may hold it, and the checks of R227 that need the descriptor alone. A descriptor is its 512 bits.
-/
namespace Sys2Proof.Machine

/-- Header fields (R221). -/
def dOpcode (d : Nat) : Nat := bits d 0 8
def dTally (d : Nat) : Bool := bit d 8
def dProvisional (d : Nat) : Bool := bit d 9
def dPredicated (d : Nat) : Bool := bit d 10
def dChecked (d : Nat) : Bool := bit d 11
def dLast (d : Nat) : Bool := bit d 12
def dPred (d : Nat) : Nat := bits d 16 4
def dSense (d : Nat) : Bool := bit d 20
def dTag (d : Nat) : Nat := bits d 24 6
def dWait (d : Nat) : Nat := bits d 32 16
def dSignal (d : Nat) : Nat := bits d 48 16
def dPhase (d : Nat) : Nat := bits d 64 8
def dLoad (d : Nat) : Nat := bits d 72 4

/-- The header's fields as (first bit, width). -/
def headerFields : List (Nat × Nat) :=
  [(0, 8), (8, 1), (9, 1), (10, 1), (11, 1), (12, 1), (16, 4), (20, 1), (24, 6), (32, 16), (48, 16), (64, 8), (72, 4)]

/-- The operand fields of each opcode (R225, R226); none for an unassigned opcode (R223). -/
def operandFields : Nat → Option (List (Nat × Nat))
  | 0x10 => some [(128, 12), (144, 32), (176, 12), (188, 6), (200, 16)]
  | 0x11 | 0x12 => some [(128, 32), (160, 4), (164, 4), (168, 3), (171, 1), (172, 1), (173, 1), (174, 1), (175, 1), (176, 2),
      (192, 16), (208, 16), (224, 16), (240, 12), (256, 13), (288, 15), (304, 15), (320, 14)]
  | 0x13 => some [(128, 32), (160, 4), (164, 4), (174, 1), (175, 1), (176, 14), (192, 14), (208, 16), (224, 6), (232, 13)]
  | 0x14 => some [(128, 3), (256, 128)]
  | 0x15 => some [(128, 32), (160, 13)]
  | 0x20 | 0x21 => some [(128, 48), (176, 13), (191, 1), (192, 3), (196, 8), (204, 20), (224, 5), (232, 16), (248, 16), (320, 64)]
  | 0x30 => some [(128, 48), (176, 48), (224, 24), (248, 16), (264, 32), (296, 32)]
  | 0x31 => some [(128, 48), (176, 9), (185, 2), (192, 6), (200, 4), (204, 1), (208, 20), (228, 1)]
  | 0x32 => some [(128, 6), (160, 48), (208, 24), (232, 24)]
  | 0x33 => some [(128, 6)]
  | 0x34 => some [(128, 6), (134, 1), (136, 12), (160, 48), (208, 24), (232, 24)]
  | 0x35 => some [(128, 16), (144, 1), (145, 2), (148, 12), (160, 48), (208, 24), (232, 48)]
  | 0x36 => some [(128, 48), (176, 32), (208, 1), (224, 48)]
  | 0x40 => some [(128, 12), (140, 10), (150, 4), (154, 1), (160, 24), (184, 24), (208, 24)]
  | 0x41 => some [(128, 12), (140, 6), (152, 12), (168, 24), (192, 24), (216, 48)]
  | 0x42 => some [(128, 12), (144, 24), (168, 24), (192, 24), (216, 4)]
  | 0x43 => some [(128, 10), (144, 16), (160, 24)]
  | 0x50 => some [(128, 16), (144, 1)]
  | 0x51 => some [(128, 2), (132, 3), (144, 16), (160, 48), (256, 64), (320, 64), (384, 32)]
  | 0x52 | 0x53 => some [(128, 48)]
  | 0x54 | 0x57 | 0x59 => some []
  | 0x55 => some [(128, 4), (132, 3), (144, 48), (192, 64), (256, 64)]
  | 0x56 => some [(128, 8), (136, 4), (140, 1), (141, 1), (144, 4), (148, 28)]
  | 0x58 => some [(128, 8)]
  | 0x60 => some [(128, 48), (176, 16), (192, 4), (200, 12), (216, 16), (232, 48)]
  | 0x61 => some [(128, 12), (140, 3), (144, 48), (192, 16), (208, 4), (212, 12), (224, 16), (240, 48)]
  | 0x62 => some [(128, 48), (176, 10), (192, 16), (208, 12), (224, 16), (240, 48)]
  | 0x63 | 0x64 => some [(128, 16)]
  | 0x70 => some [(128, 48), (176, 16), (192, 48), (240, 12), (256, 48), (304, 12), (320, 48), (368, 16), (384, 1)]
  | 0x71 => some [(128, 6)]
  | 0x72 => some [(128, 6), (176, 48)]
  | _ => none

/-- Every bit outside the listed fields is 0. -/
def reservedClear (d : Nat) (fs : List (Nat × Nat)) : Bool := fs.foldl (fun v f => putBits v f.1 f.2 0) d == 0

/-- An engine's own opcodes (R223): 0 MXE, 1 VXE, 2 MVE, 3 GTE, 4 CTL, 5 DVE. -/
def ownOpcode (eng op : Nat) : Bool :=
  (operandFields op).isSome && match eng with
    | 0 => op / 16 == 1 | 1 => op / 16 == 2 | 2 => op / 16 == 3 | 3 => op / 16 == 4 | 4 => op / 16 == 5 | 5 => op / 16 == 6
    | _ => false

/-- An opcode may stand in a list of an engine's queue (R223). -/
def allowedIn (eng op : Nat) : Bool :=
  ownOpcode eng op || (if eng = 5 then [0x50, 0x51, 0x52, 0x53, 0x54, 0x57, 0x58, 0x59].contains op else ownOpcode 4 op)

/-- The checks of R227 that concern every opcode: opcode, reserved bits, CHECKED and PROVISIONAL_OK, the job tag; on an edge die
PREDICATED (R223). -/
def commonOk (eng tag d : Nat) : Bool :=
  let op := dOpcode d
  match operandFields op with
  | none => false
  | some fs =>
    allowedIn eng op && reservedClear d (headerFields ++ fs)
      && (!dChecked d || op == 0x20) && (!dProvisional d || [0x11, 0x12, 0x60, 0x61, 0x62].contains op)
      && dTag d == tag && !(eng == 5 && dPredicated d)


end Sys2Proof.Machine
end

