-- ==== Sys2Proof/Machine/State.lean ====
section
/-!
DEFINITION. The state of the panel: every register, store, table, queue and pin the spec gives it (INVENTORY.md, State),
and the queue of commands that are waiting. The machine right after panel reset.
-/
namespace Sys2Proof.Machine

/-- No command stops the block with a fault: every condition the spec reports is state. -/
inductive Fault where
  deriving DecidableEq, Repr

/-- Why a command has no next state. Each is safe: the panel does nothing that the model denies. -/
inductive Refusal where
  /-- The command has no meaning yet; raised only by the arms of `exec`. Safe. -/
  | notModelled (mnemonic : String)
  /-- The command names a unit, queue, thread, entry or packet that the panel does not have or hold; raised by every
  meaning that looks its subject up. Safe: no such event can occur. -/
  | noSuch
  /-- The event is one of a state the unit is not in; raised by every meaning that a state machine of the spec governs. Safe. -/
  | wrongState
  /-- A timed event before its time; raised by the expiries and periodic events. Safe. -/
  | notDue
  /-- The queue's next descriptor, or the thread's next instruction, is of another row. Safe. -/
  | wrongCommand
  deriving DecidableEq, Repr

/-- The panel. -/
structure State where
  /-- panel time of the master's counter, in units of 250 ps (R434) -/
  now : Nat := 0
  /-- every register of every page, by address within the register range; a register not listed reads its reset value -/
  regs : Sparse Word := []
  /-- stacks, scratchpads and host memory -/
  mem : Mem := {}
  /-- MODEL'S OWN (log entry 2): the next draw of a free value -/
  freeCount : Nat := 0
  /-- the master hub's node (R19) -/
  master : Nat := 180
  /-- fabric time since power came, in units of 250 ps: two to a fabric cycle (R44, R61; MODEL'S OWN, log entry 110) -/
  fabricTime : Nat := 0
  /-- packets that routers have delivered to their local port and whose arrival is still to be commanded, oldest first (log entry 110) -/
  fabric : List Packet := []
  /-- outstanding requests at their requesters' routers (R70) -/
  outstanding : List Request := []
  nextTxn : Nat := 0
  routers : Sparse Router := []
  bridges : Sparse BridgeDir := []
  lanes : Sparse FlitLane := []
  /-- changes waiting for the next switch, and those of the switch under way (R73-R74) -/
  changes : Switch := {}
  switching : Switch := {}
  /-- pen units and holder tables of blocks, and of hubs under 1000 + hub -/
  pens : Sparse PenUnit := []
  hefts : List Heft := []
  /-- command queues, under QueueRef.key (R217) -/
  queues : Sparse Queue := []
  /-- what the thermal forecaster has been told of each queue's next commands: PHASE and LOAD_HINT (R236) -/
  forecasts : Sparse (List (Nat × Nat)) := []
  /-- jobs by tag (R243) -/
  jobs : Sparse Job := []
  /-- blocks under blockKey -/
  blocks : Sparse Block := []
  /-- drove engines by edge-die node (R244-R263) -/
  droves : Sparse Drove := []
  /-- bundles, under node * 8 + bundle (R338), and the proxies of the edge dies (R350-R351) -/
  links : Sparse Bundle := []
  proxies : List Proxy := []
  penProxies : List PenProxy := []
  /-- stack controllers (R320-R323) -/
  hbm : Sparse Stack := []
  /-- tally records in the job engine's intake, oldest first (R531) -/
  intake : List TallyRec := []
  /-- entries for completion queues not yet written, oldest first (R382-R383) -/
  cqStore : List CqEntry := []
  /-- descriptors on their way from a submission queue, and those accepted and not yet decided, oldest first (R381) -/
  fetched : List Fetched := []
  jbe : List Fetched := []
  /-- the submission queue each hub fetched from last (R381), and the panel time each completion queue's vector was last raised
  (R385), under hub * 16 + queue -/
  sqLast : Sparse Nat := []
  cqRaised : Sparse Nat := []
  /-- endpoints and guest ports, by hub node (R370-R391) -/
  endpoints : Sparse Endpoint := []
  /-- JOINs that have come and have not been taken up (R354): tag, panel, digest -/
  joins : List (Nat × Nat × Nat) := []
  /-- the panel ID has been locked by an EXCHANGE (R347) -/
  idLocked : Bool := false
  /-- JOINs that came before this panel's own submission: tag, panel, digest (R354) -/
  earlyJoins : List (Nat × Nat × Nat) := []
  /-- the task rings' records, oldest first (R184) -/
  tasks : List Task := []
  /-- posts refused, by hub (R184) -/
  taskRefusals : Sparse Nat := []
  /-- reports on their way to the master hub, in order of sending (R499) -/
  reports : List LogEntry := []
  log : LogState := {}
  events : Events := []
  /-- event rings, by node * 64 + page (R536) -/
  rings : Sparse EventRing := []
  probes : List Probe := []
  /-- retirements decided and not yet carried out (R483, R487) -/
  retiring : List Retire := []
  /-- panel time of the detection that decides a unit's retirement, by node (R74, R488) -/
  detected : Sparse Nat := []
  /-- retirements of cells and blocks that a reset of their region has overruled, kept until it restarts (R31, R137) -/
  heldBack : List Retire := []
  /-- assists to be posted, and those posted and not yet answered (R418) -/
  asks : List Assist := []
  assists : List Assist := []
  /-- notices of a drove's decision that a member still has to acknowledge (R260) -/
  acks : List AckOwed := []
  /-- destinations reported to the master hub as suspect (R70) -/
  suspects : List Nat := []
  outbox : List OutMsg := []
  /-- clock and power controllers of the regions, by node (ch. 14, 15) -/
  power : Sparse RegionPower := []
  plant : Plant := {}
  tray : Tray := {}
  /-- what a draining unit drains for, under node * 64 + page (R400) -/
  drains : Sparse DrainFor := []
  /-- the commands waiting, oldest first -/
  pending : List Instr := []
  deriving DecidableEq, Repr

/-- The machine right after panel reset (R512, R524): the always-on domain runs, HUB_BOOT.STEP reads 2, no region or edge-die
unit has started. Every register holds its reset value, so none is listed. -/
def State.reset : State := {}

end Sys2Proof.Machine
end

