-- ==== Sys2Proof/Machine/RegOps.lean ====
section
/-!
DEFINITION. Register pages (R392-R394), reading and writing a register or a field of it by the hardware, the value a register
holds at reset.
-/
namespace Sys2Proof.Machine

/-- Region nodes are 0-155, edge-die nodes 156-179, hub nodes 180 and 181 (R51). -/
def isRegion (n : Nat) : Bool := n < 156
def isEdge (n : Nat) : Bool := decide (156 ≤ n) && decide (n < 180)
def isHub (n : Nat) : Bool := n == 180 || n == 181

/-- The other hub. -/
def otherHub (n : Nat) : Nat := if n = 180 then 181 else 180

/-- The page a page kind has on a node (R393); `b` is the block of a block page, the index of a peer-table page less one, or,
for the common header, the page itself. -/
def pageOf (k : PageKind) (node b : Nat) : Nat :=
  match k with
  | .header => b
  | .rgn | .edg | .hubMain => 0
  | .rtr => if isHub node then 7 else 1
  | .pwr => if isEdge node then 4 else 2
  | .pwrHub => 8
  | .clk => if isRegion node then 3 else if isEdge node then 5 else 9
  | .tim => if isRegion node then 4 else if isEdge node then 6 else 10
  | .dbg => if isRegion node then 5 else if isEdge node then 7 else 12
  | .blk => 8 + 8 * b | .mxc => 9 + 8 * b | .vxc => 10 + 8 * b | .gtu => 11 + 8 * b
  | .drv => 2 | .hbm => 3 | .lnk => 8 | .lnkTable => 9 + b
  | .hubHost => 1 | .hubFence => 2 | .mailbox => 3 | .taskWindow => 4 | .fallback => 5 | .hubMgmt => 6 | .log => 11

/-- What a page of a node is, and its block or table index (R393); none for a hole. -/
def pageKind (node page : Nat) : Option (PageKind × Nat) :=
  if isRegion node then
    match page with
    | 0 => some (.rgn, 0) | 1 => some (.rtr, 0) | 2 => some (.pwr, 0) | 3 => some (.clk, 0) | 4 => some (.tim, 0)
    | 5 => some (.dbg, 0)
    | _ => if 8 ≤ page ∧ page < 40 then
        match page % 8 with
        | 0 => some (.blk, page / 8 - 1) | 1 => some (.mxc, page / 8 - 1) | 2 => some (.vxc, page / 8 - 1)
        | 3 => some (.gtu, page / 8 - 1) | _ => none
      else none
  else if isEdge node then
    match page with
    | 0 => some (.edg, 0) | 1 => some (.rtr, 0) | 2 => some (.drv, 0) | 3 => some (.hbm, 0) | 4 => some (.pwr, 0)
    | 5 => some (.clk, 0) | 6 => some (.tim, 0) | 7 => some (.dbg, 0) | 8 => some (.lnk, 0)
    | _ => if 9 ≤ page ∧ page ≤ 40 then some (.lnkTable, page - 9) else none
  else if isHub node then
    match page with
    | 0 => some (.hubMain, 0) | 1 => some (.hubHost, 0) | 2 => some (.hubFence, 0) | 3 => some (.mailbox, 0)
    | 4 => some (.taskWindow, 0) | 5 => some (.fallback, 0) | 6 => some (.hubMgmt, 0) | 7 => some (.rtr, 0)
    | 8 => some (.pwrHub, 0) | 9 => some (.clk, 0) | 10 => some (.tim, 0) | 11 => some (.log, 0) | 12 => some (.dbg, 0)
    | _ => none
  else none

/-- Pages that open with the common header (R394). -/
def hasHeader : PageKind → Bool
  | .mailbox | .taskWindow | .lnkTable | .header => false
  | _ => true

/-- The panel address of a register (R392). -/
def regAddr (node page off : Nat) : Nat := 0x200000000000 + node * 0x40000 + page * 0x1000 + off

/-- UNIT_ID.TYPE of a page kind (R396). -/
def typeCode : PageKind → Nat
  | .hubMain | .hubHost | .hubFence | .fallback | .hubMgmt | .mailbox | .taskWindow => 1
  | .edg => 2 | .rgn => 3 | .blk => 4 | .rtr => 5 | .mxc => 6 | .vxc => 7 | .gtu => 8 | .drv => 9 | .hbm => 10
  | .lnk | .lnkTable => 11 | .pwr | .pwrHub => 12 | .clk => 13 | .tim => 14 | .log => 15 | .dbg => 16 | .header => 0

/-- The error classes a unit uses (R556). -/
def errClasses : PageKind → List Nat
  | .blk => [0, 1, 2, 3] | .mxc => [4, 5, 6, 7] | .vxc => [8, 9, 10, 11] | .log => [0, 12] | .rtr => [13, 14, 15, 16]
  | .hbm => [17, 18, 19, 20] | .lnk => [21, 22, 23] | .pwr | .pwrHub => [24, 25, 26] | .clk => [27] | .tim => [28]
  | .edg => [29] | .hubMain => [30] | _ => []

/-- The duty functions a unit takes part in, as a mask of bit f - 1 (R397, R419). -/
def dutyFuncs : PageKind → Nat → Nat
  | .rgn, _ | .blk, _ => ofBits [0]
  | .mxc, _ | .vxc, _ => ofBits [0, 8]
  | .hbm, _ => ofBits [0, 7]
  | .lnk, _ => ofBits [0, 6]
  | .hubMain, _ => ofBits [1, 4, 5, 11]
  | .gtu, _ => ofBits [2]
  | .drv, _ => ofBits [3]
  | .pwr, _ | .pwrHub, _ => ofBits [4]
  | .tim, node => if isHub node then ofBits [9] else 0
  | .log, _ => ofBits [10]
  | _, _ => 0

/-- Units that keep an event ring (R536). -/
def keepsRing : PageKind → Bool
  | .rgn | .rtr | .pwr | .pwrHub | .clk | .blk | .mxc | .vxc | .gtu | .edg | .drv | .hbm | .lnk | .hubMain | .hubHost
  | .hubFence | .fallback | .hubMgmt | .log => true
  | _ => false

/-- Units with UNIT_CTRL.RESET_REQ (R522). -/
def hasReset : PageKind → Bool
  | .rgn | .blk | .drv | .hbm => true
  | _ => false

/-- Units with TALLY_CTRL (R534). -/
def hasTally : PageKind → Bool
  | .blk | .drv => true
  | _ => false

/-- UNIT_CAP of a page (R397). -/
def unitCapWord (k : PageKind) (node : Nat) : Nat :=
  dutyFuncs k node + 2 ^ 12 * b2n (errClasses k != []) + 2 ^ 13 * b2n (hasTally k) + 2 ^ 14 * b2n (keepsRing k)
    + 2 ^ 15 * b2n (hasReset k) + 2 ^ 16 * (errClasses k).length

/-- UNIT_ID of a page (R396). -/
def unitIdWord (k : PageKind) (b node page : Nat) : Nat :=
  typeCode k + 2 ^ 8 * node + 2 ^ 16 * page +
    2 ^ 24 * (match k with
      | .blk | .mxc | .vxc | .gtu => b | .lnkTable => b + 1 | _ => 0)
    + 2 ^ 32 * Config.layoutMinor.toNat + 2 ^ 36

/-- The partner m(s) of a stack (R313). -/
def partner (s : Nat) : Nat := if s < 12 then 12 + (s + 6) % 12 else (s - 12 + 6) % 12

/-- The frequency of OPn in 25 MHz units, the same on every die (R448). -/
def opFreq : Nat → Nat
  | 0 => 24 | 1 => 28 | 2 => 32 | 3 => 35 | 4 => 38 | 5 => 40 | 6 => 42 | 7 => 44 | 8 => 46 | 9 => 48 | 10 => 50 | 11 => 52 | 12 => 54 | 13 => 56 | 14 => 58 | _ => 60

/-- The nominal voltage of OPn in mV (R448), taken for every die's fuses (log entry 3). -/
def opVolt : Nat → Nat
  | 0 => 550 | 1 => 570 | 2 => 600 | 3 => 620 | 4 => 640 | 5 => 660 | 6 => 680 | 7 => 700 | 8 => 715 | 9 => 730 | 10 => 750 | 11 => 770 | 12 => 790 | 13 => 810 | 14 => 830 | _ => 850

/-- The word the fields' reset values make. -/
def Reg.resetFields (r : Reg) : Nat := r.fields.foldl (fun w f => putBits w f.lo f.width f.reset) 0

/-- What a register holds at panel reset: its table's Reset column, or, where that names the node, the fuses or the unit,
the value for this node (R42-R43, R141, R313, R396-R397, R475; log entries 3 and 4). -/
def resetWord (r : Reg) (node b i : Nat) : Word :=
  match r with
  | .hubGeometry => BitVec.ofNat 64 (0xC + 0xFFF * 2 ^ 16 + b2n (node == 180) * 2 ^ 40)
  | .rgnSite => BitVec.ofNat 64 (node / 13 + 2 ^ 4 * (node % 13) + 2 ^ 8 * 0xFF + 2 ^ 16 * 2 + 2 ^ 20 * 15)
  | .mxcSlotMap => BitVec.ofNat 64 ((List.range 8).foldl (fun w j => putBits w (6 * j) 6 (8 * i + j)) 0)
  | .hbmStat => BitVec.ofNat 64 (2 ^ 8 * partner (node - 156))
  | .unitId => match pageKind node b with
    | some (k, c) => BitVec.ofNat 64 (unitIdWord k c node b)
    | none => 0
  | .unitCap => match pageKind node b with
    | some (k, _) => BitVec.ofNat 64 (unitCapWord k node)
    | none => 0
  | .unitCtrl => 1
  | .pwrOptable => BitVec.ofNat 64 (opFreq i + 2 ^ 6 * opVolt i)
  | .clkDroop => BitVec.ofNat 64 (0x4000 + 40)
  | _ => BitVec.ofNat 64 r.resetFields

/-- Registers that show one value in both hubs: they have one home, in HN's pages (R326, R366-R369, R420, R424, R426, R476,
R527, R533, R542). -/
def Reg.shared : Reg → Bool
  | .hubMemcfg | .hubPanel | .hubIncarnation | .hubAperture | .hubCascade | .hubCascadeB | .hubAssistCfg
  | .hubAssistStat | .hubAssistReply | .hubHostcfg | .hubMgmt | .hubBudget | .hubForecast | .hubFcHost | .hubPstate
  | .hubWake | .hubWakeTime | .hubWakeTimer | .hubBoot | .hubBootctl | .hubTally | .dbgMode => true
  | _ => false

/-- The node that holds a register's home. -/
def Reg.home (r : Reg) (node : Nat) : Nat := if r.shared && node == 181 then 180 else node

/-- The address of copy `i` of a register within the register range (R392); `b` as in `pageOf`. -/
def Reg.key (r : Reg) (node b i : Nat) : Nat :=
  r.home node * 0x40000 + pageOf r.place.kind node b * 0x1000 + r.place.off + i * r.place.stride

/-- The word a register holds. -/
def State.word (s : State) (r : Reg) (node : Nat) (b i : Nat := 0) : Word :=
  (Sparse.find? s.regs (r.key node b i)).getD (resetWord r node b i)

/-- Hold a word in a register. -/
def State.setWord (s : State) (r : Reg) (node b i : Nat) (w : Word) : State :=
  { s with regs := Sparse.set s.regs (r.key node b i) w }

/-- The value of a field. -/
def State.fld (s : State) (f : Field) (node : Nat) (b i : Nat := 0) : Nat :=
  wordField (s.word f.reg node b i) f.lo f.width

/-- A field is not 0. -/
def State.flag (s : State) (f : Field) (node : Nat) (b i : Nat := 0) : Bool := s.fld f node b i != 0

/-- Change a field; the register's other bits stay. -/
def State.put (s : State) (f : Field) (node b i v : Nat) : State :=
  s.setWord f.reg node b i (wordPut (s.word f.reg node b i) f.lo f.width v)

/-- Add `k` to a counter field, saturating. -/
def State.bump (s : State) (f : Field) (node b i : Nat) (k : Nat := 1) : State :=
  s.put f node b i (satAdd f.width (s.fld f node b i) k)

/-- Add `k` to a counter field, wrapping. -/
def State.count (s : State) (f : Field) (node b i : Nat) (k : Nat := 1) : State :=
  s.put f node b i (s.fld f node b i + k)

/-- Take a draw for a free value (log entry 2). -/
def State.draw (s : State) : Nat × State := (s.freeCount, { s with freeCount := s.freeCount + 1 })

/-- The state of a unit (R399). -/
inductive UState where
  | off | starting | running | draining | quiesced | suspect | retired
  deriving DecidableEq, Repr

/-- UNIT_STAT.STATE's code (R399). -/
def UState.code : UState → Nat
  | .off => 0 | .starting => 1 | .running => 2 | .draining => 3 | .quiesced => 4 | .suspect => 5 | .retired => 6

/-- The unit state a code names. -/
def UState.ofCode : Nat → UState
  | 1 => .starting | 2 => .running | 3 => .draining | 4 => .quiesced | 5 => .suspect | 6 => .retired | _ => .off

/-- The state of the unit at a page. -/
def State.unit (s : State) (node page : Nat) : UState := UState.ofCode (s.fld F.unitStat_state node page)

/-- Move a unit to a state. -/
def State.setUnit (s : State) (node page : Nat) (u : UState) : State := s.put F.unitStat_state node page 0 u.code

/-- The pages of a node, ascending. -/
def pagesOf (node : Nat) : List Nat := allBelow 41 fun p => (pageKind node p).isSome

/-- The panel's geometry: N of R25. -/
def State.lcols (s : State) : Nat := s.fld F.hubGeometry_lcols s.master

/-- RGN_SITE.ROLE of a region (R43). -/
def State.role (s : State) (node : Nat) : Nat := s.fld F.rgnSite_role node

/-- A refusal or a next state. -/
abbrev Out := Host.Outcome State Fault Refusal

/-- Stop with `r` unless `c` holds. -/
@[inline] def need (c : Bool) (r : Refusal) (o : Out) : Out := if c then o else .refused r

end Sys2Proof.Machine
end

