-- ==== Sys2Proof/Machine/Log.lean ====
section
/-!
DEFINITION. Errors, reports to the log, refused accesses, change records and event rings (R401-R409, R421-R423, R481,
R499-R501, R536-R538). A report waits in State.reports until LOG_REPORT takes it.
-/
namespace Sys2Proof.Machine

/-- Where an entry or event comes from: node, page, the unit within it (0x3F for none), the job tag if one is concerned. -/
structure Site where
  node : Nat
  page : Nat
  sub : Nat := 0x3F
  tag : Option Nat := none
  deriving DecidableEq, Repr

/-- Send a message to a party outside the panel. -/
def State.say (s : State) (m : OutMsg) : State := { s with outbox := s.outbox ++ [m] }

/-- Raise MSI-X vector `v` on the master hub's endpoint (R385). -/
def State.vector (s : State) (v : Nat) : State := s.say (.vector s.master v)

/-- Raise ALERT_N: set LOG_STAT.ALERT of the master hub (R508). -/
def State.alert (s : State) : State := s.put F.logStat_alert s.master 0 0 1

/-- Record an event in a unit's ring (R536-R538): class, event code, address, argument, status, engine and queue. -/
def State.event (s : State) (at' : Site) (cls code addr arg : Nat) (status : Nat := 0) (eng queue : Nat := 0) : State :=
  let k := at'.node * 64 + at'.page
  let r := Sparse.get {} s.rings k
  if !(match pageKind at'.node at'.page with | some (pk, _) => keepsRing pk | none => false) then s
  else if !s.flag F.ringCtrl_enable at'.node at'.page || !bit (s.fld F.ringCtrl_classes at'.node at'.page) cls then s
  else if r.frozen then { s with rings := Sparse.set s.rings k { r with missed := satAdd 32 r.missed 1 } }
  else
    let w1 := putBits (putBits (bits addr 0 48) 48 6 (at'.tag.getD 0)) 54 4 status
    let w2 := putBits (putBits (putBits (bits code 0 6) 6 3 eng) 9 2 queue) 16 48 arg
    let ue := cls == 5 && bits arg 5 2 == 2
    let stop := (ue && !r.sawUe && s.flag F.ringCtrl_freezeOnUe at'.node at'.page)
      || (code == 0x38 && s.flag F.ringCtrl_freezeOnBreak at'.node at'.page)
    let r' := { r with slots := Sparse.set r.slots (r.index % 256) [s.now, w1, w2, r.index % 2 ^ 32],
                       index := r.index + 1, frozen := stop, sawUe := r.sawUe || ue }
    { s with rings := Sparse.set s.rings k r' }

/-- A fault-log entry (R500), SEQ not yet assigned. -/
def faultEntry (time : Nat) (at' : Site) (kind addr errBit sev detail : Nat) (injected signal : Bool) : LogEntry :=
  { w0 := time
    w1 := putBits (putBits (putBits (putBits (putBits (bits addr 0 48) 48 6 (at'.tag.getD 0)) 54 1 (b2n at'.tag.isSome))
      55 5 errBit) 60 2 sev) 62 1 (b2n injected)
    w2 := bits detail 0 64
    w3 := putBits (putBits (putBits (putBits 0 35 4 kind) 40 8 at'.node) 48 6 at'.page) 54 6 at'.sub
    signal := signal }

/-- Send a report towards the master hub (R499). -/
def State.report (s : State) (e : LogEntry) : State := { s with reports := s.reports ++ [e] }

/-- LOG_CTRL admits an entry of a severity from a page (R406): its level, and the CE limit of the running millisecond
(4,000,000 units of 250 ps). UE entries are always logged. -/
def State.logAdmits (s : State) (node page : Nat) (sev : Severity) : Bool :=
  let lim := s.fld F.logCtrl_ceLimit node page
  let ms := s.now / 4000000
  let (m, n) := Sparse.get (0, 0) s.log.ceCounts (node * 64 + page)
  decide (2 ≤ sev.code) ||
    (decide (s.fld F.logCtrl_level node page ≤ sev.code) && (sev != .ce || lim == 0 || decide ((if m = ms then n else 0) < lim)))

/-- Count a CE entry against the page's limit (R406). -/
def State.countCe (s : State) (node page : Nat) (sev : Severity) : State :=
  if sev != .ce then s else
  let ms := s.now / 4000000
  let (m, n) := Sparse.get (0, 0) s.log.ceCounts (node * 64 + page)
  { s with log := { s.log with ceCounts := Sparse.set s.log.ceCounts (node * 64 + page) (ms, (if m = ms then n else 0) + 1) } }

/-- Report an entry under LOG_CTRL, or count it as suppressed (R401, R406). -/
def State.reportCtl (s : State) (at' : Site) (sev : Severity) (e : LogEntry) : State :=
  if s.logAdmits at'.node at'.page sev then (s.countCe at'.node at'.page sev).report e
  else s.bump F.errStat_suppressed at'.node at'.page 0

/-- An error of class `errBit` (31 for none): sets ERR_STAT (R401) and, for the first unmasked one, ERR_FIRST (R403), records
an event, and reports an entry of the given KIND under LOG_CTRL. A masked bit raises no signal, UE-panel always does (R402). -/
def State.errorWith (s : State) (at' : Site) (kind errBit : Nat) (sev : Severity) (addr detail : Nat)
    (injected : Bool := false) : State :=
  let n := at'.node
  let p := at'.page
  let masked := decide (errBit < 31) && bit (s.fld F.errMask_mask n p) errBit
  let s := if errBit < 31 then s.put F.errStat_err n p 0 (ofBits (errBit :: setBits 32 (s.fld F.errStat_err n p))) else s
  let s := if errBit < 31 && !masked && !s.flag F.errFirst_valid n p then
      ((((s.put F.errFirst_bit n p 0 errBit).put F.errFirst_valid n p 0 1).put F.errFirst_severity n p 0 sev.code).put
        F.errFirst_time n p 0 (bits s.now 2 56))
    else s
  let s := s.event at' 5 0x28 addr (errBit + 32 * sev.code)
  s.reportCtl at' sev (faultEntry s.now at' kind addr errBit sev.code detail injected (!masked || sev == .uePanel))

/-- A FAULT entry (KIND 0x8). -/
def State.error (s : State) (at' : Site) (errBit : Nat) (sev : Severity) (addr detail : Nat) : State :=
  s.errorWith at' 8 errBit sev addr detail

/-- A RETIREMENT entry (KIND 0xB): the unit's type and the count that triggered it (R501); it carries the injected mark when an
injected error decided it (R404). -/
def State.retirement (s : State) (at' : Site) (errBit : Nat) (sev : Severity) (type count : Nat) : State :=
  let k := at'.node * 64 + at'.page
  let s' := { s with log := { s.log with injected := s.log.injected.erase k } }
  s'.errorWith at' 11 errBit sev 0 (type + 256 * count) (s.log.injected.contains k)

/-- The event codes of STATE entries. The spec names the events and gives no numbers: each is a free value (log entry 2). -/
inductive StateEvent where
  | probeFinding | substitution | failover | geometryChange | debugHalt | linkPeer | readiness | other
  deriving DecidableEq, Repr

/-- A number for each STATE event. -/
def StateEvent.index : StateEvent → Nat
  | .probeFinding => 0 | .substitution => 1 | .failover => 2 | .geometryChange => 3 | .debugHalt => 4 | .linkPeer => 5
  | .readiness => 6 | .other => 7

/-- A STATE entry (KIND 0xC), of no class (R501). -/
def State.stateEntry (s : State) (at' : Site) (sev : Severity) (ev : StateEvent) (addr data : Nat) : State :=
  s.reportCtl at' sev (faultEntry s.now at' 12 addr 31 sev.code
    ((Config.stateEvent ev.index).toNat + 256 * data) false true)

/-- A SUPERSEDED entry (R31, R501). -/
def State.superseded (s : State) (at' : Site) (kind node : Nat) : State :=
  s.report (faultEntry s.now at' 10 0 31 0 (kind + 16 * node) false false)

/-- The KIND codes of ACCESS_ERR (R409). -/
inductive AccessKind where
  | narrow | misaligned | notWriter | locked | hole | value | malformed | submission | packet | peer
  deriving DecidableEq, Repr

/-- The code of an ACCESS_ERR kind. -/
def AccessKind.code : AccessKind → Nat
  | .narrow => 0 | .misaligned => 1 | .notWriter => 2 | .locked => 3 | .hole => 4 | .value => 5 | .malformed => 6
  | .submission => 7 | .packet => 8 | .peer => 9

/-- The page whose ACCESS_ERR and LOCK serve a page: LNK_ page 0 for the peer-table pages (R394); the HUB_ host page for the mailbox and the task
window, which have none (log entry 58). -/
def errPage (node page : Nat) : Nat :=
  match pageKind node page with
  | some (.lnkTable, _) => pageOf .lnk node 0
  | some (.mailbox, _) | some (.taskWindow, _) => pageOf .hubHost node 0
  | _ => page

/-- Record a refused access in a page's ACCESS_ERR (R409), set ERR_STAT.ACCESS, and report a REFUSAL entry (R421, R501). -/
def State.accessErr (s : State) (node page addr : Nat) (o : Origin) (k : AccessKind) (tag : Option Nat := none) : State :=
  let p := errPage node page
  match pageKind node p with
  | none => s
  | some (pk, _) =>
    if !hasHeader pk then s else
    let c := satAdd 7 (s.fld F.accessErr_count node p) 1
    let w := BitVec.ofNat 64 (putBits (putBits (putBits (putBits (bits addr 0 48) 48 3 o.code) 51 4 k.code) 56 7 c) 63 1 1)
    let s := (s.setWord .accessErr node p 0 w).put F.errStat_access node p 0 1
    s.reportCtl ⟨node, p, 0x3F, tag⟩ .ce (faultEntry s.now ⟨node, p, 0x3F, tag⟩ 9 addr 31 0 w.toNat false false)

/-- A change record (R423), SEQ not yet assigned. `kind` 0 register write, 1 seal, 2 lock set, 3 duty revert, 4 injection. -/
def State.change (s : State) (node page off : Nat) (o : Origin) (kind : Nat) (old new : Nat) : State :=
  s.report { w0 := s.now, w1 := old, w2 := new,
             w3 := putBits (putBits (putBits (putBits (putBits 0 32 3 o.code) 35 4 kind) 40 8 node) 48 6 page) 54 9 (off / 8) }

/-- A counted event of the unit under classification key `k` (R483), and the number of events within the last `window`. -/
def State.countEvent (s : State) (k window : Nat) : Nat × State :=
  let keep := s.events.filter fun e => e.1 != k || decide (s.now < e.2 + window)
  let evs := keep ++ [(k, s.now)]
  ((evs.filter fun e => e.1 == k).length, { s with events := evs })

/-- Forget the counted events under a key. -/
def State.clearEvents (s : State) (k : Nat) : State := { s with events := s.events.filter fun e => e.1 != k }

/-- Change a unit's state and record the event (R538 code 0x30). -/
def State.moveUnit (s : State) (node page : Nat) (u : UState) : State :=
  (s.event ⟨node, page, 0x3F, none⟩ 6 0x30 0 ((s.unit node page).code + 8 * u.code)).setUnit node page u

/-- One nanosecond, one microsecond, one millisecond, one second of panel time (R9). -/
def ns : Nat := 4
def us : Nat := 4000
def ms : Nat := 4000000
def sec : Nat := 4000000000

end Sys2Proof.Machine
end

