-- ==== Sys2Proof/Machine/Assist.lean ====
section
/-!
DEFINITION. Host-assisted functions (R418-R420): whether a function is host-assisted at a unit, and asking for an assist. ASSIST_POST posts what
is asked.
-/
namespace Sys2Proof.Machine

/-- Function `f` is host-assisted at a unit (R405, R418). -/
def State.hostDuty (s : State) (node page f : Nat) : Bool := bit (s.fld F.dutyMode_host node page) (f - 1)

/-- The deadline of a function's assists (R419), in units of 250 ps. -/
def assistTime : Nat → Nat
  | 1 => 10 * ms | 2 => 50 * ms | 3 => ms | 4 => 100 * us | 7 => sec | 12 => 10 * ms | _ => 10 * ms

/-- Ask for an assist. -/
def State.ask (s : State) (fn node page : Nat) (arg1 arg2 : Nat) (what : Ask) (deadline : Option Nat := none) : State :=
  { s with asks := s.asks ++ [{ fn := fn, node := node, page := page, deadline := deadline.getD (s.now + assistTime fn), arg1 := arg1, arg2 := arg2, what := what }] }

/-- What a retirement retires. -/
def Retire.subject : Retire → Nat × Nat × Nat × Nat
  | .matrixCell n b c .. => (0, n, b, c) | .vectorCell n b c _ => (1, n, b, c) | .block n b .. => (2, n, b, 0) | .region n .. => (3, n, 0, 0)
  | .bundle n b => (4, n, b, 0) | .stack st _ => (5, st, 0, 0) | .edge n .. => (6, n, 0, 0)

/-- The node that a retirement concerns. -/
def Retire.node : Retire → Nat
  | .matrixCell n .. | .vectorCell n .. | .block n .. | .region n .. | .edge n .. | .bundle n _ => n
  | .stack st _ => 156 + st

/-- Retirements that the cell or block level decides, and that a reset of their region overrules (R28, R31). -/
def Retire.lower : Retire → Bool
  | .matrixCell .. | .vectorCell .. | .block .. => true
  | _ => false

/-- The region drains for a reset (R31, R523). -/
def State.resetsRegion (s : State) (n : Nat) : Bool :=
  isRegion n && (Sparse.find? s.drains (n * 64) == some DrainFor.reset || Sparse.find? s.drains (n * 64) == some DrainFor.update)

/-- A retirement of a cell or block that a reset of its region overrules: logged as superseded, its record kept until the region restarts (R31, R137). -/
def State.holdBack (s : State) (r : Retire) : State :=
  { s.superseded ⟨r.node, 0, 0x3F, none⟩ 11 r.node with heldBack := s.heldBack ++ [r] }

/-- A unit's fault is detected: the first time counts (R74, R488). -/
def State.detect (s : State) (n : Nat) : State :=
  { s with detected := Sparse.set s.detected n (Sparse.get s.now s.detected n) }

/-- A unit is to be retired. -/
def State.toRetire (s : State) (r : Retire) : State :=
  if r.lower && s.resetsRegion r.node then s.holdBack r else { s.detect r.node with retiring := s.retiring ++ [r] }

/-- A verdict on the same subject is asked for already. -/
def State.awaitsVerdict (s : State) (r : Retire) : Bool :=
  (s.asks ++ s.assists).any fun a => match a.what with | .retire x => x.subject == r.subject | _ => false

/-- A unit has been classified as permanently faulty (R419 function 1, R483): in host-assisted mode it is set suspect and a verdict is asked
for, once; in hardware mode, and for a masked error, which raises no assist (R402), `act` retires it. -/
def State.classified (s : State) (node page errBit : Nat) (r : Retire) (act : State → State) : State :=
  if s.awaitsVerdict r then s
  else if r.lower && s.resetsRegion r.node then s.holdBack r
  else if s.hostDuty node page 1 && !(decide (errBit < 31) && bit (s.fld F.errMask_mask node page) errBit) then
    ((s.detect r.node).moveUnit node page .suspect).ask 1 node page page errBit (.retire r)
  else act s

/-- A key for counted events (R483): a kind and the unit's number. -/
def eventKey (kind unit : Nat) : Nat := unit * 64 + kind

end Sys2Proof.Machine
end

