-- ==== Sys2Proof/Machine/Address.lean ====
section
/-!
DEFINITION. The panel address space (R36-R41), hefts and pens over the activation stores (R198, R201, R205), stack placement
(R312-R313), and reading and writing a location with poison and error correction (R190-R192, R318).
-/
namespace Sys2Proof.Machine

/-- Where an access lands. -/
inductive Loc where
  /-- stack and stack offset -/
  | stack (st off : Nat)
  /-- region node, block, offset in the block window of R38 -/
  | scratch (node blk off : Nat)
  /-- node, page, offset in the page -/
  | reg (node page off : Nat)
  /-- host bus address -/
  | host (a : Nat)
  /-- panel ID and offset in its aperture -/
  | peer (id off : Nat)
  deriving DecidableEq, Repr

/-- The size of a stack, and of one placement half (R312, R313). -/
def stackSize : Nat := 0x600000000
def halfStack : Nat := 0x300000000

/-- Paired placement is in force (R316). -/
def State.paired (s : State) : Bool := s.flag F.hubMemcfg_placement 180

/-- The populated rows of a block window (R38): start and end. -/
def blockRows : List (Nat × Nat) :=
  [(0, 0x600000), (0x1000000, 0x1300000), (0x2000000, 0x2200000), (0x3000000, 0x30E0000), (0x3800000, 0x3840000),
   (0x3900000, 0x3910000), (0x3910000, 0x3920000)]

/-- [off, off+n) lies in one populated row of a block window. -/
def inBlockRow (off n : Nat) : Bool := blockRows.any fun r => decide (r.1 ≤ off) && decide (off + n ≤ r.2)

/-- The offset names a byte of AS, PS, WS. -/
def inAS (off : Nat) : Bool := decide (off < 0x600000)
def inPS (off : Nat) : Bool := decide (0x1000000 ≤ off) && decide (off < 0x1300000)
def inWS (off : Nat) : Bool := decide (0x2000000 ≤ off) && decide (off < 0x2200000)

/-- The offset of a scratchpad address in its block's window (R38). -/
def windowOff (a : Nat) : Nat := a % 0x4000000

/-- The range reaches the shadow partial-sum region (R259). -/
def inShadow (off n : Nat) : Bool := decide (off < 0x1300000) && decide (0x1200000 < off + n)

/-- The offset names a byte of control-core memory. -/
def inCC (off : Nat) : Bool := decide (0x3900000 ≤ off) && decide (off < 0x3920000)

/-- An entry of a byte-wide bank: byte `i` of the words of register `r` (R68, R364, R394). -/
def State.bankByte (s : State) (r : Reg) (node i : Nat) : Nat := bits (s.word r node 0 (i / 8)).toNat (8 * (i % 8)) 8

/-- The map-bank entry of a logical region (R68). -/
def State.mapEntry (s : State) (node epoch l : Nat) : Nat :=
  s.bankByte (if epoch = 0 then .rtrMap0 else .rtrMap1) node l

/-- The stack-map entry of a stack (R315). -/
def State.stackEntry (s : State) (node epoch st : Nat) : Nat :=
  s.bankByte (if epoch = 0 then .rtrStackMap0 else .rtrStackMap1) node st

/-- The peer-map entry of an ID group (R364): EDGE [4:0], VALID [5]. -/
def State.peerEntry (s : State) (node epoch g : Nat) : Nat :=
  s.bankByte (if epoch = 0 then .rtrPeerMap0 else .rtrPeerMap1) node g

/-- The route-bank entry of a destination (R68). -/
def State.routeEntry (s : State) (node epoch dest : Nat) : Nat :=
  bits (s.word (if epoch = 0 then .rtrRoute0 else .rtrRoute1) node 0 (dest / 4)).toNat (16 * (dest % 4)) 16

/-- The hub through whose endpoint a host bus address is reached (R371): the master's; with DUAL by bit 12, or the one that is left (log entry 136). -/
def State.hostNode (s : State) (a : Nat) : Nat :=
  if !s.flag F.hubHostcfg_dual 180 then s.master else
  let hub := if bit a 12 then 181 else 180
  if s.unit hub 0 = .retired then otherHub hub else hub

/-- The location an address names for an access of `n` bytes, as the router of `node` reads it under an epoch, and the node
it lies at; or the status the access completes with (R36-R41, R68). -/
def State.locate (s : State) (node epoch addr n : Nat) : Except Status (Nat × Loc) :=
  if addr < 0x9000000000 then
    let size := if s.paired then halfStack else stackSize
    let st := addr / size
    if 24 ≤ st ∨ size < addr % size + n then .error .accessFault
    else .ok (s.stackEntry node epoch st, .stack st (addr % size))
  else if 0x100000000000 ≤ addr ∧ addr < 0x100900000000 then
    let o := addr - 0x100000000000
    let l := o / 0x10000000
    let blk := o % 0x10000000 / 0x4000000
    let off := o % 0x4000000
    if 8 ≤ s.lcols ∧ l < 12 * s.lcols then
      if inBlockRow off n then .ok (s.mapEntry node epoch l, .scratch (s.mapEntry node epoch l) blk off)
      else .error .accessFault
    else .error .targetRetired
  else if 0x200000000000 ≤ addr ∧ addr < 0x300000000000 then
    let o := addr - 0x200000000000
    let nd := o / 0x40000
    let page := o % 0x40000 / 0x1000
    if decide (nd < 182) && (pageKind nd page).isSome && decide (o % 0x1000 + n ≤ 0x1000) then .ok (nd, .reg nd page (o % 0x1000))
    else .error .accessFault
  else if 0x300000000000 ≤ addr ∧ addr + n ≤ 0x400000000000 then .ok (s.hostNode (addr - 0x300000000000), .host (addr - 0x300000000000))
  else if 0x400000000000 ≤ addr ∧ addr < 0x800000000000 then
    let id := bits addr 34 12
    let own := s.fld F.hubPanel_panelId 180
    if 2 ^ 34 < addr % 2 ^ 34 + n then .error .accessFault
    else if id = 0xFFF ∨ own = 0xFFF then .error .routeNone
    else if id = own then .error .accessFault
    else
      let e := s.peerEntry node epoch (id / 16)
      if bit e 5 && decide (e % 32 < 24) then .ok (156 + e % 32, .peer id (addr % 2 ^ 34)) else .error .routeNone
  else .error .accessFault

/-- An address of the peer range (R36). -/
def inPeer (a : Nat) : Bool := decide (0x400000000000 ≤ a) && decide (a < 0x800000000000)

/-- The storage key of a location, where it has one. -/
def Loc.key : Loc → Option Nat
  | .stack st off => some (st * stackSize + off)
  | .scratch node blk off => some (0x100000000000 + node * 0x10000000 + blk * 0x4000000 + off)
  | .host a => some (0x300000000000 + a)
  | _ => none

/-- The key of a byte of a block's window. -/
def blkKeyAt (node blk off : Nat) : Nat := 0x100000000000 + node * 0x10000000 + blk * 0x4000000 + off

/-- Bytes to write, each with its enable. -/
abbrev Lanes := List (Byte × Bool)

/-- All bytes enabled. -/
def allOn (bs : List Byte) : Lanes := bs.map fun b => (b, true)

/-- Lanes from key `a` write some byte of a granule, or all of it. -/
def Lanes.touch (ls : Lanes) (a g : Nat) : Bool :=
  (List.range (granule a)).any fun i => match ls[g + i - a]? with
    | some (_, e) => e && decide (a ≤ g + i)
    | none => false
def Lanes.cover (ls : Lanes) (a g : Nat) : Bool :=
  (List.range (granule a)).all fun i => match ls[g + i - a]? with
    | some (_, e) => e && decide (a ≤ g + i)
    | none => false

/-- The granules with a latent error that lanes from key `a` write in part: a read-modify-write reads them first (R192, R318). -/
def Mem.torn (m : Mem) (a : Nat) (ls : Lanes) : List Nat :=
  if m.latent.isEmpty then [] else
  (granulesOf a ls.length).filter fun g => m.latent.any (·.1 == g) && ls.touch a g && !ls.cover a g

/-- The granule bases of [a, a+n) that stay or become poisoned when the enabled lanes are written there (R190, R192, R318):
a poisoned write marks every granule it touches, a clean write of a whole granule clears its mark, a clean write of part of
a granule leaves its mark. -/
def Mem.store (m : Mem) (a : Nat) (ls : Lanes) (poison : Bool) : Mem :=
  let touched := (granulesOf a ls.length).filter (ls.touch a)
  let full := touched.filter (ls.cover a)
  let bad := touched.filter fun g =>
    poison || (!full.contains g && (m.poison.contains g || m.latent.contains (g, true)))
  let m := m.writeMasked a ls
  { m with poison := m.poison.filter (fun g => !touched.contains g) ++ bad
           latent := m.latent.filter (fun l => !touched.contains l.1) }

/-- What a read finds: the bytes, whether any is marked poisoned, and the granules found with a latent single or double error. -/
structure Found where
  data : List Byte
  poison : Bool
  single : List Nat
  double : List Nat
  deriving DecidableEq, Repr

/-- Read [a, a+n): a single error is corrected in place, a double error is rewritten with the poison mark (R192, R318). -/
def Mem.fetch (m : Mem) (a n : Nat) : Found × Mem :=
  let gs := granulesOf a n
  let one := gs.filter fun g => m.latent.contains (g, false)
  let two := gs.filter fun g => m.latent.contains (g, true)
  let m' := { m with poison := m.poison ++ two.filter (fun g => !m.poison.contains g)
                     latent := m.latent.filter (fun l => !gs.contains l.1) }
  (⟨m.read a n, m'.poisoned a n, one, two⟩, m')

/-- Store, bank and row of a scratchpad offset: 0 AS, 1 PS, 2 WS (R186). -/
def bankOf (off : Nat) : Nat × Nat × Nat :=
  if off < 0x600000 then (0, 8 * (off / 512 % 6) + bits off 6 3, off / (512 * 6))
  else if off < 0x1300000 then
    let o := off - 0x1000000
    (1, 8 * (o / 512 % 3) + bits o 6 3, o / (512 * 3))
  else
    let o := off - 0x2000000
    (2, 8 * (o / 0x100000) + bits o 6 3, o % 0x100000 / 512)

/-- A block. -/
def State.block (s : State) (node b : Nat) : Block := Sparse.get {} s.blocks (blockKey node b)

/-- Replace a block. -/
def State.setBlock (s : State) (node b : Nat) (x : Block) : State := { s with blocks := Sparse.set s.blocks (blockKey node b) x }

/-- Change a block. -/
def State.modBlock (s : State) (node b : Nat) (f : Block → Block) : State := s.setBlock node b (f (s.block node b))

/-- Remap a row of a block's bank while a spare is free (R193): bank 0-87 by store. A row that its spare serves already takes the next spare. -/
def State.remapRow (s : State) (node blk bank row : Nat) : State :=
  let b := s.block node blk
  let site : Site := ⟨node, pageOf .blk node blk, bank % 64, none⟩
  if 32 ≤ Sparse.get 0 b.spares bank then (s.put F.blkSramErr_spareExhausted node blk 0 1).error site 2 .ce 0 (bank + 2 ^ 8 * row + 2 ^ 32)
  else
    let s := s.modBlock node blk fun b =>
      { b with spares := Sparse.upd 0 b.spares bank (· + 1), remapped := if b.remapped.contains (bank * 2048 + row) then b.remapped else (bank * 2048 + row) :: b.remapped, singles := Sparse.del b.singles (bank * 2048 + row) }
    (s.bump F.blkSramErr_sparesUsed node blk 0).error site 2 .ce 0 (bank + 2 ^ 8 * row)

/-- A bank's number in its block: 48 of AS, 24 of PS, 16 of WS (R186). -/
def bankNumber (st bank : Nat) : Nat := match st with | 0 => bank | 1 => 48 + bank | _ => 72 + bank

/-- Log an error a scratchpad read found (R192, R216): CE for a corrected word, DE for a double-bit one. What corrects or poisons a cell's own storage has no
class (R28, R556). -/
def State.sramFound (s : State) (node blk off : Nat) (double : Bool) : State :=
  if 0x2200000 ≤ off then s else
  let (st, bank, row) := bankOf off
  let page := pageOf .blk node blk
  let s := if double then s.bump F.blkSramErr_deCount node blk 0 else s.bump F.blkSramErr_ceCount node blk 0
  let s := ((s.put F.blkSramErr_lastStore node blk 0 st).put F.blkSramErr_lastBank node blk 0 bank).put
    F.blkSramErr_lastRow node blk 0 row
  let detail := st + 4 * bank + 256 * row
  if double then s.error ⟨node, page, bank % 64, none⟩ 1 .de 0 detail
  else s.error ⟨node, page, bank % 64, none⟩ 0 .ce 0 detail

/-- The rows, by bank number, that hold some words of a block's stores. -/
def rowsOf (offs : List Nat) : List (Nat × Nat) :=
  ((offs.filter fun o => decide (o < 0x2200000)).map fun o => let (st, bank, row) := bankOf o; (bankNumber st bank, row)).eraseDups

/-- The stack has failed (R325). -/
def State.stackFailed (s : State) (st : Nat) : Bool := s.fld F.hbmStat_state (156 + st) == 4

/-- The pseudo-channel of a stack offset (R314). -/
def pseudoChannel (off : Nat) : Nat := off / 512 % 32

/-- An uncorrectable sector counts towards the stack's classification (R484): 256 in 1 s, or 8 distinct pseudo-channels within 10 s. -/
def State.countSector (s : State) (st off : Nat) : State :=
  let (c, s) := s.countEvent (eventKey 9 st) sec
  let (_, s) := s.countEvent (eventKey 10 (32 * st + pseudoChannel off)) (10 * sec)
  let pcs := allBelow 32 fun pc => s.events.any fun e => e.1 == eventKey 10 (32 * st + pc) && decide (s.now < e.2 + 10 * sec)
  let r : Retire := .stack st c
  let known := s.retiring.any fun x => match x with | .stack k _ => k == st | _ => false
  if (256 ≤ c ∨ 8 ≤ pcs.length) ∧ !known ∧ !s.stackFailed st ∧ s.unit (156 + st) (pageOf .hbm (156 + st) 0) = .running then
    s.classified (156 + st) (pageOf .hbm (156 + st) 0) 20 r fun s => s.toRetire r
  else s

/-- Log the errors a stack read found (R318, R328): kind 1 corrected, 2 uncorrectable, 3 repaired from the other copy. -/
def State.stackFound (s : State) (st off kind : Nat) : State :=
  let n := 156 + st
  let s := if kind = 2 then s.bump F.hbmErr_deCount n 0 0 else s.bump F.hbmErr_ceCount n 0 0
  let s := (s.put F.hbmErr_lastSector n 0 0 (off / 32)).put F.hbmErr_lastKind n 0 0 kind
  let s := s.error ⟨n, pageOf .hbm n 0, 0x3F, none⟩ (if kind = 2 then 18 else 17) (if kind = 2 then .de else .ce) off kind
  if kind = 1 then s else s.countSector st off

/-- Read [off, off+n) of a block window (R192): errors are logged, and each row with a double-bit one remapped to a spare row while one is free (R193). -/
def State.readBlk (s : State) (node blk off n : Nat) : List Byte × Bool × State :=
  let (f, m) := s.mem.fetch (blkKeyAt node blk off) n
  let back := fun g => g - blkKeyAt node blk 0
  let s := { s with mem := m }
  let s := f.single.foldl (fun s g => s.sramFound node blk (back g) false) s
  let s := f.double.foldl (fun s g => s.sramFound node blk (back g) true) s
  (f.data, f.poison, (rowsOf (f.double.map back)).foldl (fun s r => s.remapRow node blk r.1 r.2) s)

/-- A store to a range ends a reservation that SX holds on bytes of it (R177). -/
def State.breakReservation (s : State) (node blk off n : Nat) : State :=
  match Sparse.find? s.blocks (blockKey node blk) with
  | some b => match b.sx with
    | some x => match x.reserved with
      | some (a, k) => if a < off + n ∧ off < a + k then
          { s with blocks := Sparse.set s.blocks (blockKey node blk) { b with sx := some { x with reserved := none } } } else s
      | none => s
    | none => s
  | none => s

/-- Write lanes into a block window, poisoned or clean (R190-R192); a latent error that the write's reading meets is reported as a read's. -/
def State.writeBlk (s : State) (node blk off : Nat) (ls : Lanes) (poison : Bool := false) : State :=
  let s := (s.mem.torn (blkKeyAt node blk off) ls).foldl (fun s g => (s.readBlk node blk (g - blkKeyAt node blk 0) 8).2.2) s
  { s with mem := s.mem.store (blkKeyAt node blk off) ls poison }.breakReservation node blk off ls.length

/-- The mirror location of a primary stack location (R313). -/
def mirrorOf (st off : Nat) : Nat × Nat := (partner st, halfStack + off)

/-- Repair the sectors with a double error of a paired range from the other copy where that is good (R318), else mark
them. -/
def State.readStack (s : State) (st off n : Nat) : List Byte × Bool × State :=
  let a := st * stackSize + off
  let mir := if off < halfStack then mirrorOf st off else (partner st, off - halfStack)
  let b := mir.1 * stackSize + mir.2
  let bad := (granulesOf a n).filter fun g => s.mem.latent.contains (g, true)
  let fixable := bad.filter fun g => s.paired && !s.stackFailed mir.1 &&
    !s.mem.latent.contains (g - a + b, true) && !s.mem.poison.contains (g - a + b)
  let m := fixable.foldl (fun (m : Mem) g => m.store g (allOn (m.read (g - a + b) 32)) false) s.mem
  let s := fixable.foldl (fun s g => s.stackFound st (g - st * stackSize) 3) { s with mem := m }
  let (f, m) := s.mem.fetch a n
  let s := { s with mem := m }
  let s := f.single.foldl (fun s g => s.stackFound st (g - st * stackSize) 1) s
  let s := f.double.foldl (fun s g => s.stackFound st (g - st * stackSize) 2) s
  (f.data, f.poison, s)

/-- Write lanes to one copy of a stack location; a sector written in part that carries an error is read first (R318). -/
def State.writeStackCopy (s : State) (st off : Nat) (ls : Lanes) (poison : Bool) : State :=
  let s := (s.mem.torn (st * stackSize + off) ls).foldl (fun s g => (s.readStack st (g - st * stackSize) 32).2.2) s
  { s with mem := s.mem.store (st * stackSize + off) ls poison }

/-- Who makes an access: source node, SRC_UNIT, job tag, and the origin class where R410 gives one. Units 0-3 of a region
node are its blocks' engines and cells (log entry 8), 0x40 + b the control core of block b. -/
structure Requester where
  node : Nat
  unit : Nat
  tag : Nat
  deriving DecidableEq, Repr

/-- The origin class of a requester (R410). -/
def Requester.origin (r : Requester) : Option Origin :=
  if isHub r.node then
    if r.unit ≤ 0x10 then some .H else if r.unit = 0x11 then some .F else if r.unit = 0x12 then some .M
    else if r.unit = 0x13 then some .D else if 0xF0 ≤ r.unit then some .G else none
  else if isRegion r.node then (if 0x40 ≤ r.unit ∧ r.unit < 0x44 then some .C else none)
  else if isEdge r.node && r.unit == 0xFF then some .P else none

/-- The requester is a unit of block `blk` of `node` itself. -/
def Requester.own (r : Requester) (node blk : Nat) : Bool := r.node == node && (r.unit == blk || r.unit == 0x40 + blk)

/-- The requester acts as hub firmware or the debug port. -/
def Requester.firmware (r : Requester) : Bool := r.origin == some .F || r.origin == some .D

/-- The heft holds bytes of [off, off+n) of a block's AS (R196). -/
def Heft.covers (h : Heft) (l blk off n : Nat) : Bool :=
  decide (h.first ≤ l) && decide (l ≤ h.last) && bit h.blocks blk
    && decide (off < (h.offset + h.units) * 4096) && decide (h.offset * 4096 < off + n)

/-- The hefts that hold bytes of a range of a block's AS. -/
def State.heftsAt (s : State) (node blk off n : Nat) : List Heft :=
  s.hefts.filter fun h => h.covers (s.fld F.rgnSite_lnum node) blk off n

/-- The pen unit of a block. -/
def State.penUnit (s : State) (node blk : Nat) : PenUnit := Sparse.get {} s.pens (blockKey node blk)

/-- Change the pen unit of a block. -/
def State.setPenUnit (s : State) (node blk : Nat) (u : PenUnit) : State :=
  { s with pens := Sparse.set s.pens (blockKey node blk) u }

/-- First AS offset of the pen pool (R201). -/
def State.poolBase (s : State) (node blk : Nat) : Nat := 0x600000 - s.fld F.blkPenCfg_poolUnits node blk * 0x1000

/-- The granted pens that hold bytes of a range of a block's AS. -/
def State.pensAt (s : State) (node blk off n : Nat) : List Pen :=
  (s.penUnit node blk).pens.filter fun p => decide (off < (p.first + p.units) * 4096) && decide (p.first * 4096 < off + n)

/-- R198, R205: may the requester read this range of a block's activation store. -/
def State.mayReadAS (s : State) (r : Requester) (node blk off n : Nat) : Bool :=
  r.firmware || ((s.heftsAt node blk off n).all (fun h => h.tag == r.tag) &&
    (s.pensAt node blk off n).all (fun p => p.tag == r.tag || r.own node blk))

/-- R198, R205: may the requester write this range of a block's activation store. Outside hefts and pens its job must own a heft in this block (log
entry 126). -/
def State.mayWriteAS (s : State) (r : Requester) (node blk off n : Nat) : Bool :=
  r.firmware || (r.own node blk && (s.pensAt node blk off n).isEmpty &&
    (s.heftsAt node blk off n).all (fun h => h.tag == r.tag) &&
    ((s.heftsAt node blk off n) != [] || (s.heftsAt node blk 0 0x600000).any (fun h => h.tag == r.tag)))

/-- R38, R198, R259: may the requester read a location (register pages have their own rules). -/
def State.mayRead (s : State) (r : Requester) (l : Loc) (n : Nat) : Bool :=
  match l with
  | .scratch node blk off =>
    if inAS off then s.mayReadAS r node blk off n else if inShadow off n then r.firmware else true
  | _ => true

/-- R38, R198, R259: may the requester write a location. -/
def State.mayWrite (s : State) (r : Requester) (l : Loc) (n : Nat) : Bool :=
  match l with
  | .scratch node blk off =>
    if inAS off then s.mayWriteAS r node blk off n
    else if inShadow off n then false
    else if inCC off then r.firmware || (r.node == node && r.unit == 0x40 + blk)
    else true
  | _ => true

/-- What a region answers in place of its blocks (R69, R414): nothing while it runs or is idle. `none` inside the result
means the request is held and a wake raised (Nap). -/
inductive Answer where
  | serves
  | holds
  | status (st : Status)
  deriving DecidableEq, Repr

/-- A region is in Region Idle, Region Nap or the entry to it (R462-R463, R471). -/
def State.idles (s : State) (node : Nat) : Bool :=
  let x := s.fld F.pwrStat_state node
  decide (1 ≤ x) && decide (x ≤ 3)

/-- The core clock of a region is gated: it idles or naps, or its frequency changes (R430). -/
def State.coreGated (s : State) (node : Nat) : Bool := s.idles node || s.flag F.clkStat_changing node

/-- The answer of a region's router for requests to its block (R69, R400). -/
def State.regionAnswer (s : State) (node blk : Nat) : Answer :=
  if 3 ≤ s.role node then .status .targetRetired
  else match s.unit node 0, s.unit node (pageOf .blk node blk) with
    | .retired, _ | _, .retired => .status .targetRetired
    | .suspect, _ | _, .suspect => .status .timeout
    | .running, .running | .quiesced, _ =>
      if s.coreGated node then .holds else if s.unit node 0 = .running then .serves else .status .targetResetting
    | _, _ => .status .targetResetting

/-- A unit goes on with the work it has (R70, R400): it runs, drains, or is suspect. -/
def State.goesOn (s : State) (node page : Nat) : Bool :=
  s.unit node page == .running || s.unit node page == .draining || s.unit node page == .suspect

/-- The work in flight of a block goes on (R208, R400): its units go on, and the core clock runs. -/
def State.works (s : State) (node blk : Nat) : Bool :=
  isRegion node && decide (blk < 4) && decide (s.role node < 3) && s.goesOn node 0 && s.goesOn node (pageOf .blk node blk) && !s.coreGated node

/-- The core clock reaches a block's cells (R131, R170): the block has left its start and is not gated; a quiesced one is clocked too. -/
def State.clocked (s : State) (node blk : Nat) : Bool :=
  let on := fun (page : Nat) => s.goesOn node page || s.unit node page == .quiesced
  isRegion node && decide (blk < 4) && decide (s.role node < 3) && on 0 && on (pageOf .blk node blk) && !s.coreGated node

/-- The panel power states of HUB_PSTATE (R476). -/
def State.pstate (s : State) : Nat := s.fld F.hubPstate_state 180

/-- The answer of a stack's controller (R323, R325, R494): requests wait in Standby, and meet TARGET_RESETTING during a
panel stop and during the controller's own reset. -/
def State.stackAnswer (s : State) (st : Nat) : Answer :=
  if s.stackFailed st then .status .targetRetired
  else match s.unit (156 + st) (pageOf .hbm (156 + st) 0) with
    | .retired => .status .targetRetired
    | .suspect => .status .timeout
    | .running => if s.fld F.hbmStat_state (156 + st) != 3 then .serves else if s.pstate = 4 then .status .targetResetting else .holds
    | _ => .status .targetResetting

end Sys2Proof.Machine
end

