-- ==== Sys2Proof/Machine/Header.lean ====
section
/-!
DEFINITION. How a packet lies in flits and a flit on a flit-lane (R49, R53-R54): the header's bits with its two CRCs, the 558 bits of a lane.
-/
namespace Sys2Proof.Machine

/-- OP's code (R54). -/
def PktOp.code : PktOp → Nat
  | .write => 0 | .readReq => 1 | .readData => 2 | .completion => 3 | .penReq => 4 | .penGrant => 5 | .penPut => 6 | .penRelease => 7
  | .atomicAdd => 8 | .droveTile => 9 | .foldPart => 10 | .hurdleArrive => 11 | .hurdleRelease => 12 | .control => 13 | .mgmt => 14 | .mgmtReply => 15

/-- The header's immutable fields at their places (R53); both CRC fields and the mutable fields are 0. -/
def Packet.fixedBits (p : Packet) : Nat :=
  packFields [(0, 4, p.op.code), (4, 3, p.cls), (8, 1, p.epoch), (9, 4, p.len), (13, 1, b2n p.mcast), (14, 1, b2n p.poison), (16, 8, p.dest), (24, 8, p.src),
    (32, 6, p.jobTag), (38, 2, p.prio), (40, 8, p.srcUnit), (48, 16, p.txn), (64, 48, p.addr), (112, 4, p.status), (128, 13, p.mcMask), (141, 1, p.mcAxis),
    (142, 1, p.mcDir), (160, 64, p.oparg0), (224, 64, p.oparg1), (288, 64, p.injTime), (352, 64, p.byteMask)]

/-- A CRC of the fabric: the polynomials are the spec's, the value it starts from and the final XOR are not given (log entry 7); bytes go in ascending
order, each most significant bit first, as in R74. -/
def fabricCrc (w poly : Nat) (bs : List Byte) : Nat := Nat.xor (crcMsb w poly (Config.crcStart poly % 2 ^ w) bs) (Config.crcFinish poly % 2 ^ w)

/-- E2E_CRC (R53): over the header with the mutable fields and both CRC fields taken as 0, then the payload flits in order. -/
def Packet.e2eCrc (p : Packet) : Nat := fabricCrc 32 0x04C11DB7 (leBytes 64 p.fixedBits ++ p.payload)

/-- HDR_CRC (R53): over header bits [447:0] with the mutable fields and E2E_CRC taken as 0. -/
def Packet.hdrCrc (p : Packet) : Nat := fabricCrc 16 0x1021 (leBytes 56 p.fixedBits)

/-- The header flit (R53), as it leaves a router. -/
def Packet.headerFlit (p : Packet) : Nat :=
  p.fixedBits + packFields [(7, 1, p.vch), (144, 8, p.hops), (152, 1, b2n p.detoured), (416, 32, p.e2eCrc), (448, 16, p.hdrCrc)]

/-- Flits of a packet: the header and LEN of payload (R52). -/
def Packet.size (p : Packet) : Nat := p.len + 1

/-- The flits themselves. -/
def Packet.flits (p : Packet) : List Nat := p.headerFlit :: (chunks 64 p.len p.payload).map leNat

/-- What a flit-lane carries of one flit in a cycle (R49): the flit, its CRC-16 over the flit and the 30 bits that follow, the link sequence number, the
virtual channel, the kind (1 header, 2 payload), and 16 bits for the reverse direction. The fields stand in the table's order, the first lowest
(DEDUCED, log entry 7). -/
def laneBits (flit seq cls vch kind time : Nat) : Nat :=
  let rest := packFields [(0, 8, seq), (8, 3, cls), (11, 1, vch), (12, 2, kind), (14, 16, (Config.reverseBits time).toNat)]
  let crc := crcMsb 16 0x8BB7 (Config.crcStart 0x8BB7 % 2 ^ 16) (leBytes 64 flit)
  let crc := (List.range 30).reverse.foldl (fun c i => crcBit 16 0x8BB7 c (bit rest i)) crc
  bits flit 0 512 + 2 ^ 512 * Nat.xor crc (Config.crcFinish 0x8BB7 % 2 ^ 16) + 2 ^ 528 * rest

end Sys2Proof.Machine
end

