-- ==== Sys2Proof/Machine/Fabric.lean ====
section
/-!
DEFINITION. The fabric: adjacency (R12, R45), routing by the banks (R67-R69, R81), staleness (R72), injection (R55, R68, R76-R77)
and the requests a router times (R70). A packet that the fabric accepts goes from buffer to buffer as cycles pass (Transport.lean) and stands in
State.fabric from its delivery until its arrival is commanded.
-/
namespace Sys2Proof.Machine

/-- The router of a node. -/
def State.router (s : State) (n : Nat) : Router := Sparse.get {} s.routers n

/-- Change the router of a node. -/
def State.modRouter (s : State) (n : Nat) (f : Router → Router) : State := { s with routers := Sparse.upd {} s.routers n f }

/-- The panel time of a node's router (R434-R435), 64 bits. -/
def State.timeAt (s : State) (n : Nat) : Nat := wrapInt 64 ((s.now : Int) + (s.router n).timeOff)

/-- The clock and power controller of a region. -/
def State.pow (s : State) (node : Nat) : RegionPower := Sparse.get {} s.power node

/-- Change it. -/
def State.modPow (s : State) (node : Nat) (f : RegionPower → RegionPower) : State := { s with power := Sparse.upd {} s.power node f }

/-- PWR_DEFICIT.ACCUM now: the shortfall of the whole microseconds since it was last counted is in it (R451, R472). -/
def State.accumNow (s : State) (node : Nat) : Nat :=
  satAdd 48 (s.fld F.pwrDeficit_accum node) ((s.now - (s.pow node).computed) / us * s.fld F.pwrDeficit_steps node)

/-- How long each reason of R451 has stood since panel reset, in ps. -/
def State.heldNow (s : State) (node : Nat) : Sparse Nat :=
  Sparse.upd 0 (s.pow node).held (s.fld F.pwrDeficit_reason node) (· + (s.now - (s.pow node).reasonAt))

/-- The live routers of R73: all but those of regions with ROLE 0b100, retired edge dies and failed hubs. -/
def State.live (s : State) (n : Nat) : Bool :=
  if isRegion n then s.role n != 4
  else if isEdge n then s.unit n 0 != .retired
  else decide (n < 182) && s.unit n 0 != .retired

/-- The die a port leads to (R12, R45): 0 N, 1 E, 2 S, 3 W, 5 P1, 6 P2; 4 is the local port. -/
def neighbour (n port : Nat) : Option Nat :=
  if isRegion n then
    let r := n / 13
    let c := n % 13
    match port with
    | 0 => if 0 < r then some (n - 13) else if 5 ≤ c ∧ c ≤ 7 then some 180 else none
    | 1 => if c < 12 then some (n + 1) else some (168 + r)
    | 2 => if r < 11 then some (n + 13) else if 5 ≤ c ∧ c ≤ 7 then some 181 else none
    | 3 => if 0 < c then some (n - 1) else some (156 + r)
    | _ => none
  else if isEdge n then
    let r := (n - 156) % 12
    match port with
    | 0 => if 0 < r then some (n - 1) else none
    | 2 => if r < 11 then some (n + 1) else none
    | 1 => if n < 168 then some (13 * r) else none
    | 3 => if n < 168 then none else some (13 * r + 12)
    | _ => none
  else match n, port with
    | 180, 2 => some 5 | 180, 5 => some 6 | 180, 6 => some 7
    | 181, 0 => some 148 | 181, 5 => some 149 | 181, 6 => some 150
    | _, _ => none

/-- The joins that carry the sideband alone, through the substrate (R12): HN with W0 and E0, HS with W11 and E11. -/
def sidebandOnly : List (Nat × Nat) := [(180, 156), (180, 168), (181, 167), (181, 179)]

/-- Two dies are joined by the management sideband (R12): every bridge carries it, and the hubs have two joins of it alone. -/
def sidebandJoin (a b : Nat) : Bool := (List.range 7).any (fun p => neighbour a p == some b) || sidebandOnly.contains (a, b) || sidebandOnly.contains (b, a)

/-- Row and column of a node, the columns counted from 0 for the west edge dies to 14 for the east ones (R67). -/
def rowOf (n : Nat) : Nat := if isRegion n then n / 13 else if isEdge n then (n - 156) % 12 else if n = 180 then 0 else 11
def colOf (n : Nat) : Nat := if isRegion n then n % 13 + 1 else if n < 168 then 0 else 14

/-- One direction of a bridge by number: its sending node and output port. -/
def bridgeKey (node port : Nat) : Nat := node * 8 + port

/-- East-west bridges have 36 wire groups a direction, north-south bridges 18 (R49). -/
def bridgeGroups (node port : Nat) : Nat := if (isRegion node || isEdge node) && (port == 1 || port == 3) then 36 else 18

/-- The widths of R50. -/
inductive Width where
  | full | half | down
  deriving DecidableEq, Repr

/-- The width of a bridge direction by its groups (R50); the router shows it in its port status. -/
def State.width (s : State) (node port : Nat) : Width :=
  let b := Sparse.get {} s.bridges (bridgeKey node port)
  if b.failed || decide (bridgeGroups node port - b.retired.length < bridgeGroups node port / 2) then .down
  else if b.retired.isEmpty then .full else .half

/-- RTR_EPOCH's state of a bank: 0 FREE, 1 LOADED, 2 ACTIVE, 3 DRAINING (R71). -/
def State.bankState (s : State) (node bank : Nat) : Nat :=
  if bank = 0 then s.fld F.rtrEpoch_bank0State node else s.fld F.rtrEpoch_bank1State node

/-- A router drops the packet as older than both banks (R72). -/
def State.stale (s : State) (node : Nat) (p : Packet) : Bool :=
  s.bankState node p.epoch == 0 ||
    decide (p.injTime < (if p.epoch = 0 then (s.router node).activation0 else (s.router node).activation1))

/-- Requests, which a router may have to answer; replies and control packets are not answered. -/
def PktOp.isRequest : PktOp → Bool
  | .write | .readReq | .penReq | .penPut | .penRelease | .atomicAdd | .mgmt => true
  | _ => false

/-- What one look-up at a router decides for a packet (R66-R69, R72, R496). -/
inductive Hop where
  /-- this is its destination -/
  | here
  /-- it leaves over a port; `turn` moves it to channel B -/
  | out (port : Nat) (turn : Bool)
  /-- the router answers for the destination -/
  | answered (st : Status)
  /-- it is older than both banks (R72) -/
  | stale
  /-- it is discarded for its HDR_CRC (R66) -/
  | badHeader
  /-- it is lost, and no one is told -/
  | lost
  deriving DecidableEq, Repr

/-- Operations that a router answers for a destination that cannot (R69): requests, and partials of folds, whose sender waits. -/
def PktOp.answered (o : PktOp) : Bool := o.isRequest || o == .foldPart

/-- One look-up at router `n`; `first` at the injecting router. RETIRED is looked at before SUSPECT (R69 gives no order: log entry 111). A hub never
forwards transit packets (R45). -/
def State.hop (s : State) (n : Nat) (first : Bool) (p : Packet) : Hop :=
  if !s.live n then .lost
  else if (s.router n).fenced == some p.src then .lost
  else if !first && !p.hdrOk then .badHeader
  else if s.stale n p then .stale
  else if 182 ≤ p.dest then .answered .routeNone
  else if (s.router n).fenced == some p.dest then .answered .targetRetired
  else if p.dest = n then .here
  else
    let e := s.routeEntry n p.epoch p.dest
    let port := if p.vch = 1 then bits e 4 3 else bits e 0 3
    if !bit e 7 || port == 7 || (isHub n && !first) then .answered .routeNone
    else if bit e 9 then .answered .targetRetired
    else if first && bit e 8 && p.op.answered then .answered .timeout
    else if (neighbour n port).isNone then .answered .routeNone
    else .out port (p.vch != 1 && bit e 3)

/-- A packet as it stands at the next router (R53, R81). -/
def Packet.onward (p : Packet) (turn : Bool) : Packet :=
  { p with hops := (p.hops + 1) % 256, vch := if turn then 1 else p.vch, detoured := p.detoured || turn }

/-- The condition a request meets on its way from router `n`, where it does not arrive (R69); a bridge that is down, or a discard, is met as a timeout. -/
def State.meets (s : State) : Nat → Nat → Bool → Packet → Option Status
  | 0, _, _, _ => some .timeout
  | fuel + 1, n, first, p =>
    match s.hop n first p with
    | .here => none
    | .answered st => some st
    | .stale => some .epochStale
    | .badHeader | .lost => some .timeout
    | .out port turn => match neighbour n port with
      | none => some .routeNone
      | some n' => if s.width n port = .down then some .timeout else s.meets fuel n' false (p.onward turn)

/-- The routers a packet passes under the route bank of its epoch, from its source to its destination (R485). -/
def State.path (s : State) : Nat → Nat → Nat → Packet → List Nat
  | 0, _, _, _ => []
  | fuel + 1, n, vch, p =>
    if p.dest = n then [n] else
    let e := s.routeEntry n p.epoch p.dest
    let port := if vch = 1 then bits e 4 3 else bits e 0 3
    n :: match neighbour n port with
      | some m => s.path fuel m (if vch = 1 ∨ bit e 3 then 1 else 0) p
      | none => []

/-- A CRC failure is charged to routers (R485): the eighth within 1 s makes a router suspect (R484). -/
def State.chargeRouters (s : State) (l : List Nat) : State :=
  l.foldl (fun s n =>
    let (c, s) := s.countEvent (15 + 64 * n) sec
    if 8 ≤ c ∧ !s.suspects.contains n ∧ !s.probes.any (fun p => p.node == n) then { s with suspects := s.suspects ++ [n] } else s) s

/-- The router upstream of an arrival, to which a header failure is charged (R485). -/
def upstreamOf (l : List Nat) (n : Nat) : List Nat := ((l.takeWhile (· != n)).getLast?).toList

/-- An input buffer of a router (R56): its port, a class, a channel. -/
def inputKey (port cls vch : Nat) : Nat := port * 16 + cls * 2 + vch

/-- A packet enters its own router's local input and takes the injection time of R61. -/
def State.send (s : State) (p : Packet) : State :=
  s.modRouter p.src fun r => { r with inputs := Sparse.upd [] r.inputs (inputKey 4 p.cls p.vch) (· ++ [⟨p, s.fabricTime + 4, none⟩]) }

/-- A router's local port delivers a packet. -/
def State.deliver (s : State) (p : Packet) : State := { s with fabric := s.fabric ++ [p] }

/-- A COMPLETION for a request, from the node that answers (R69). -/
def answerPacket (s : State) (node : Nat) (p : Packet) (st : Status) : Packet :=
  { op := .completion, cls := 1, epoch := s.fld F.rtrEpoch_injEpoch node, dest := p.src, src := node, srcUnit := p.srcUnit,
    txn := p.txn, jobTag := p.jobTag, addr := p.addr, status := st.code, injTime := s.timeAt node }

/-- Answer a request with a status: at the requester's own router at once, else over the fabric. -/
def State.answer (s : State) (node : Nat) (p : Packet) (st : Status) : State :=
  if node = p.src then s.deliver (answerPacket s node p st) else s.send (answerPacket s node p st)

/-- The bytes an access names: whole payload flits, and the enabled part of the last one (R36, R53). -/
def Packet.extent (p : Packet) : Nat :=
  match p.op with
  | .readReq | .mgmt => p.oparg0
  | .atomicAdd => if p.oparg1 = 2 then 8 else 4
  | .write | .penPut => if p.len = 0 then 0 else 64 * (p.len - 1) + ((List.range 64).filter (bit p.byteMask)).foldl (fun a i => max a (i + 1)) 0
  | _ => 1

/-- The node an addressed request goes to (R68), or the status it is refused with (R36). -/
def State.destOf (s : State) (node : Nat) (p : Packet) : Except Status Nat :=
  if p.op.isRequest then
    match s.locate node p.epoch p.addr (max 1 p.extent) with
    | .ok (d, _) => .ok d
    | .error st => .error st
  else .ok p.dest

/-- R55: the packet is one the injecting router refuses. -/
def Packet.malformed (p : Packet) : Bool :=
  p.cls != p.op.cls || (p.cls == 0 && decide (1 < p.len)) || p.reserved != 0 || decide (8 < p.len)
    || p.payload.length != 64 * p.len || (p.link.isSome && !(isEdge p.src && isEdge p.dest))

/-- A region's logical number under the map bank of an epoch, and N of that bank (R68, R78). -/
def State.lnumIn (s : State) (node epoch : Nat) : Nat := (firstBelow 144 fun l => s.mapEntry node epoch l == node).getD 0xFF
def State.lcolsIn (s : State) (node epoch : Nat) : Nat := (allBelow 144 fun l => s.mapEntry node epoch l != 0xFF).length / 12

/-- The node of position `m` of a fold's line, seen from region `node` in the map bank of the partial's epoch: along its row (axis 0) or column (R78). -/
def State.foldNode (s : State) (node epoch axis m : Nat) : Nat :=
  let n := s.lcolsIn node epoch
  let l := s.lnumIn node epoch
  s.mapEntry node epoch (if axis = 0 then l / n * n + m else n * m + l % n)

/-- A router drops a stale packet (R72): EPOCH_STALE to SRC, and for a FOLD_PART to the fold's destination, the node of its DEST, as well. -/
def State.dropStale (s : State) (n : Nat) (p : Packet) : State :=
  let s := (s.bump F.rtrEpoch_staleCount n 0 0).answer n p .epochStale
  if p.op == .foldPart then
    match s.locate n (s.fld F.rtrEpoch_injEpoch n) p.addr 1 with
    | .ok (d, _) => s.send { answerPacket s n p .epochStale with dest := d }
    | .error _ => s
  else s

/-- The port of `n` that leads to `m`; 4 where none does. -/
def portTo (n m : Nat) : Nat := (firstBelow 7 fun q => neighbour n q == some m).getD 4

/-- A router discards a packet whose header does not check, logged with the node and the port it came over (R66), charged upstream (R485). -/
def State.dropHeader (s : State) (n port : Nat) (p : Packet) : State :=
  (s.error ⟨n, pageOf .rtr n 0, port, none⟩ 15 .de p.addr p.src).chargeRouters (neighbour n port).toList

/-- What the injecting router does with one copy: the conditions it can see are answered at once (R69, R72), else the copy enters its local input. -/
def State.launch (s : State) (node : Nat) (p : Packet) : State :=
  let p := { p with src := node }
  match s.hop node true p with
  | .answered st => if p.op.answered then s.answer node p st else s
  | .stale => s.dropStale node p
  | .lost => s
  | _ => s.send p

/-- The node `n`'s position along a line: its column on a row (axis 0), its row on a column (R76). -/
def linePos (axis n : Nat) : Nat := if axis = 0 then n % 13 else n / 13

/-- The port of `n` along a multicast's line and direction; a hub's by the column of the line (R76). -/
def linePort (p : Packet) (n : Nat) : Nat :=
  if isHub n then (match p.dest % 13 with | 5 => (if n = 180 then 2 else 0) | 6 => 5 | _ => 6)
  else if p.mcAxis = 0 then (if p.mcDir = 0 then 1 else 3) else (if p.mcDir = 0 then 2 else 0)

/-- What a CONTROL packet tells (log entry 11): OPARG1 [7:0] which. Of a drove, OPARG0 [15:0] DROVE_SEQ, [16] SIDE, [17] buffer or empty; of a suspect
destination (R70), OPARG0 its node. -/
inductive Notice where
  | bufFree | commit | cancel | ack | suspect | other
  deriving DecidableEq, Repr

/-- The codes of the notices (log entry 11). -/
def Notice.code : Notice → Nat | .bufFree => 1 | .commit => 2 | .cancel => 3 | .ack => 4 | .suspect => 5 | .other => 0

/-- A timeout against a destination is counted at the requester's router (R70): with SUSPECT_COUNT of them in SUSPECT_WINDOW the router reports the
destination to the master hub on C0. -/
def State.countTimeout (s : State) (node dest : Nat) : State :=
  let window := s.fld F.rtrTimeout_suspectWindow node * us
  let ts := ((s.router node).timeouts.filter fun e => decide (s.now ≤ e.2 + window)) ++ [(dest, s.now)]
  if max 1 (s.fld F.rtrTimeout_suspectCount node) ≤ (ts.filter fun e => e.1 == dest).length then
    (s.modRouter node fun x => { x with timeouts := ts.filter fun e => e.1 != dest }).launch node
      { op := .control, cls := 0, epoch := s.fld F.rtrEpoch_injEpoch node, dest := s.master, jobTag := 64, src := node, oparg0 := dest,
        oparg1 := Notice.suspect.code, injTime := s.timeAt node }
  else s.modRouter node fun x => { x with timeouts := ts }

/-- No dead router and no bridge that is down lies on the line from `n` to `m` (R77, R81-R82). -/
def State.lineOpen (s : State) (p : Packet) : Nat → Nat → Nat → Bool
  | 0, _, _ => false
  | fuel + 1, n, m =>
    if n = m then s.live n else match neighbour n (linePort p n) with
      | none => false
      | some k => s.width n (linePort p n) != .down && s.live k && s.lineOpen p fuel k m

/-- A region on the physical line of a multicast, that the line leads to from its source (R76-R77). -/
def State.onLine (s : State) (p : Packet) (m : Nat) : Bool := isRegion m && s.lineOpen p 20 p.src m

/-- The nodes that a multicast's MC_MASK names by logical position on a logical line (R76). -/
def State.lineMembers (s : State) (p : Packet) (line : Nat) : List Nat :=
  let n := s.lcols
  (setBits 13 p.mcMask).filterMap fun m =>
    if p.mcAxis = 0 then (if m < n ∧ line < 12 then some (s.mapEntry p.src p.epoch (n * line + m)) else none)
    else (if m < 12 ∧ line < n then some (s.mapEntry p.src p.epoch (n * m + line)) else none)

/-- A multicast to nodes is injected (R76-R77): one packet with the physical positions of those the line leads to, DEST the last of them; each other
member gets a unicast copy of the same class, and for DROVE_TILE none. -/
def State.multicast (s : State) (p : Packet) (members : List Nat) : State :=
  let on := members.filter (s.onLine p)
  let off := members.filter fun m => !s.onLine p m
  let last := on.foldl (fun a m => if a = 255 then m else if (decide (linePos p.mcAxis a < linePos p.mcAxis m)) == (p.mcDir == 0) then m else a) 255
  let s := if on.isEmpty then s else
    s.launch p.src { p with mcast := true, mcMask := ofBits (on.map (linePos p.mcAxis)), dest := last }
  if p.op == .droveTile then s else off.foldl (fun s m => s.launch p.src { p with mcast := false, mcMask := 0, dest := m }) s

/-- Inject a packet at a router (R55, R68, R70, R76-R77): checked, addressed, stamped with epoch and time, its request recorded
under `purpose`, sent on its way. The entry in State.outstanding is the reply space a requester reserves (R83). A multicast names its members by logical
position and `line` the row or column. -/
def State.inject (s : State) (node : Nat) (p : Packet) (purpose : Purpose) (line : Nat := 0) : State :=
  let p := { p with src := node, epoch := s.fld F.rtrEpoch_injEpoch node, injTime := s.timeAt node, vch := 0, hops := 0,
                    detoured := false }
  let req : Request := ⟨node, p.txn, purpose, p.op, p.dest, p.srcUnit, p.jobTag, p.addr, s.now⟩
  if p.malformed then
    let o := (Requester.mk node p.srcUnit p.jobTag).origin.getD .C
    let s := s.accessErr node (pageOf .rtr node 0) p.addr o .packet (some p.jobTag)
    if p.op.isRequest then { (s.answer node p .accessFault) with outstanding := s.outstanding ++ [req] } else s
  else if p.mcast then s.multicast p (s.lineMembers p line)
  else
    match s.destOf node p with
    | .error st =>
      let s := if p.op.isRequest then { s with outstanding := s.outstanding ++ [req] } else s
      s.answer node p st
    | .ok d =>
      let s := if p.op.isRequest then { s with outstanding := s.outstanding ++ [{ req with dest := d }] } else s
      s.launch node { p with dest := d }

/-- A fresh transaction number (R53). -/
def State.freshTxn (s : State) : Nat × State := (s.nextTxn % 65536, { s with nextTxn := s.nextTxn + 1 })

/-- Build and inject a request with a fresh transaction number. -/
def State.request (s : State) (node : Nat) (p : Packet) (purpose : Purpose) : State :=
  let (t, s) := s.freshTxn
  s.inject node { p with txn := t } purpose

/-- Send `bs` to a panel address in one packet (R53): WRITE, or PEN_PUT into a held pen. -/
def State.sendBytes (s : State) (node unit tag addr : Nat) (bs : List Byte) (poison pen : Bool) (purpose : Purpose) : State :=
  let n := (bs.length + 63) / 64
  s.request node { op := if pen then .penPut else .write, cls := 2, len := n, poison := poison, srcUnit := unit, jobTag := tag, addr := addr,
                   byteMask := 2 ^ (bs.length - 64 * (n - 1)) - 1, payload := bs ++ List.replicate (64 * n - bs.length) 0 } purpose

/-- A packet without what the fabric may change on it: R53's mutable fields, and the outcomes of its checks. -/
def Packet.fixed (p : Packet) : Packet := { p with vch := 0, hops := 0, detoured := false, hdrOk := true, e2eOk := true, poison := false }

/-- The packet of an arrival is the packet in flight `q`. -/
def Packet.inFlight (p : Packet) (q : Packet) : Bool := decide (p.fixed = q.fixed)

/-- Take an arriving packet out of those delivered. -/
def State.take (s : State) (p : Packet) : State := { s with fabric := s.fabric.eraseP fun q => p.inFlight q }

/-- Two packets are of one flow (R60). -/
def Packet.sameFlow (p q : Packet) : Bool := p.src == q.src && p.dest == q.dest && p.cls == q.cls && p.epoch == q.epoch

/-- The packets that stand in a router's input buffers or in its reservoir. -/
def Router.waiting (r : Router) : List Packet := r.inputs.flatMap (fun e => e.2.map Buffered.pkt) ++ r.reservoir

/-- Keep of the packets in flight those that satisfy `f`. -/
def State.sift (s : State) (f : Packet → Bool) : State :=
  { s with fabric := s.fabric.filter f,
           routers := s.routers.map fun e => (e.1, { e.2 with inputs := e.2.inputs.map (fun b => (b.1, b.2.filter fun x => f x.pkt)), reservoir := e.2.reservoir.filter f }) }

/-- An older packet of its flow has been delivered and not yet been dealt with (R60). -/
def State.flowAhead (s : State) (p : Packet) : Bool := (s.fabric.takeWhile fun q => !p.inFlight q).any p.sameFlow

/-- A request that a stack controller serves at edge die `p.dest`. -/
def Packet.forStack (p : Packet) : Bool :=
  isEdge p.dest && p.link.isNone && p.hdrOk && (p.op == .write || p.op == .readReq || p.op == .atomicAdd) && decide (p.addr < 0x9000000000)

/-- The priority of a request at a stack controller (R319): 0 reads of a drove engine, 1 what comes in through a hub, 2 the others. A mirror write takes that
of the write that caused it. -/
def State.stackRank (s : State) (p : Packet) : Nat :=
  let cause := s.outstanding.findSome? fun r => match r.purpose with
    | .mirror orig => if r.node == p.src && r.txn == p.txn && r.unit == p.srcUnit then some orig else none
    | _ => none
  let q := cause.getD p
  if isHub q.src then 1 else if isEdge q.src && q.op == .readReq && q.srcUnit != 0xFF then 0 else 2

/-- Another request on the same pseudo-channel of the stack is served before `p` (R314, R319): one of a higher priority, or of the same and older by INJ_TIME. -/
def State.stackAhead (s : State) (p : Packet) : Bool :=
  p.forStack && s.fabric.any fun q =>
    q.forStack && q.dest == p.dest && pseudoChannel q.addr == pseudoChannel p.addr && !p.inFlight q && !s.flowAhead q &&
      (decide (s.stackRank q < s.stackRank p) || (s.stackRank q == s.stackRank p && decide (q.injTime < p.injTime)))

/-- The arrival of `p` is not due: an older packet of its flow (R60), or at a stack controller a request that goes first (R319), has been delivered and not
yet been dealt with, or the fabric still carries `p`. -/
def State.ahead (s : State) (p : Packet) : Bool :=
  if s.fabric.any (p.inFlight ·) then s.flowAhead p || s.stackAhead p
  else s.routers.any fun e => e.2.waiting.any fun q => p.inFlight { q with dest := if q.mcast then p.dest else q.dest }

/-- Take the outstanding request a reply answers, if there is one. -/
def State.takeRequest (s : State) (node unit txn : Nat) : Option Request × State :=
  let mine := fun (r : Request) => r.node == node && r.unit == unit && r.txn == txn
  (s.outstanding.find? mine, { s with outstanding := s.outstanding.eraseP mine })

/-- The weights of RTR_ARB (R75); 0 acts as 1. -/
def State.weights (s : State) (n : Nat) : List Nat :=
  [F.rtrArb_wC1, F.rtrArb_wC2, F.rtrArb_wC3, F.rtrArb_wC4, F.rtrArb_wC5].map fun f => max 1 (s.fld f n)

/-- wrr of R59: the next class, in order from the one after the class served last, whose deficit covers its head packet; a round adds weight × 9 flits to
each class with an eligible head. `len` gives each class's head packet, if it has one; a class without one has its deficit cleared. -/
def OutPort.wrr (o : OutPort) (w : List Nat) (len : List (Option Nat)) : Option Nat × OutPort :=
  let pick := fun (d : List Nat) => ((List.range 5).map fun i => (o.served + 1 + i) % 5).find? fun c => match len.getD c none with
    | some k => decide (k ≤ d.getD c 0)
    | none => false
  let d := (o.deficit.zip len).map fun x => if x.2.isNone then 0 else x.1
  let (c, d) := match pick d with
    | some c => (some c, d)
    | none =>
      let d := ((d.zip len).zip w).map fun x => if x.1.2.isNone then x.1.1 else x.1.1 + 9 * x.2
      (pick d, d)
  (c, { o with deficit := d, served := c.getD o.served })

/-- Flits in the ejection reservoir, and its size (R46). -/
def Router.held (r : Router) : Nat := r.reservoir.foldl (fun a p => a + p.size) 0
def reservoirFlits : Nat := 4096

/-- A held packet raises a wake of its region's Nap (R69, R465). -/
def State.raiseWake (s : State) (node : Nat) : State :=
  if isRegion node && decide (2 ≤ s.fld F.pwrStat_state node) && decide (s.fld F.pwrStat_state node ≤ 3) then
    s.modPow node fun p => { p with wake := some (p.wake.getD s.now) }
  else s

/-- The port of its destination that a packet comes in by under the route bank of its epoch; 4 where it comes from the node itself. -/
def State.inPort (s : State) (p : Packet) : Nat :=
  match upstreamOf (s.path 64 p.src 0 p) p.dest with
  | m :: _ => portTo p.dest m
  | [] => 4

/-- The checks every arriving packet passes first (R66, R496): a bad header discards it and logs DE at the router; a bad
end-to-end check delivers the payload poisoned and logs DE. `none`: discarded. -/
def State.arrive (s : State) (node : Nat) (p : Packet) : Option Packet × State :=
  let s := s.take p
  if (s.router node).fenced == some p.src then (none, s)
  else if !p.hdrOk then (none, s.dropHeader node (s.inPort p) p)
  else if s.stale node p then
    (none, s.dropStale node p)
  else if !p.e2eOk then
    (some { p with poison := true }, (s.error ⟨node, pageOf .rtr node 0, 0x3F, some p.jobTag⟩ 16 .de p.addr p.src).chargeRouters (s.path 64 p.src 0 p))
  else (some p, s)

/-- The lanes a payload writes: all bytes of every flit but the last, the enabled bytes of the last (R53). -/
def Packet.lanes (p : Packet) : Lanes :=
  (p.payload.zip (List.range p.payload.length)).map fun (b, i) =>
    (b, if i < 64 * (p.len - 1) then true else bit p.byteMask (i % 64))

/-- The enabled lanes only, up to the last one the packet names. -/
def Packet.named (p : Packet) : Lanes := p.lanes.take p.extent

end Sys2Proof.Machine
end

