-- ==== Sys2Proof/Machine/Links.lean ====
section
/-!
DEFINITION. Bundles and trunks (R330-R343, R348-R349): queueing a frame, sending it under credit and retry, choosing the bundle,
discarding held frames. The panels' own side of the links; what arrives is in LinkRows.
-/
namespace Sys2Proof.Machine

/-- Bundles by number: five to an edge die (R17). -/
def linkKey (node b : Nat) : Nat := node * 8 + b

/-- A bundle. -/
def State.link (s : State) (node b : Nat) : Bundle := Sparse.get {} s.links (linkKey node b)

/-- Replace a bundle. -/
def State.setLink (s : State) (node b : Nat) (x : Bundle) : State := { s with links := Sparse.set s.links (linkKey node b) x }

/-- Change a bundle. -/
def State.modLink (s : State) (node b : Nat) (f : Bundle → Bundle) : State := s.setLink node b (f (s.link node b))

/-- LNK_STAT.STATE (R361). -/
inductive LState where
  | off | listen | train | align | exchange | up | linger | retired
  deriving DecidableEq, Repr

/-- The code of a link state (R361). -/
def LState.code : LState → Nat
  | .off => 0 | .listen => 1 | .train => 2 | .align => 3 | .exchange => 4 | .up => 5 | .linger => 6 | .retired => 7

/-- The link state a code names. -/
def LState.ofCode : Nat → LState
  | 0 => .off | 1 => .listen | 2 => .train | 3 => .align | 4 => .exchange | 5 => .up | 6 => .linger | _ => .retired

/-- The state of a bundle. -/
def State.linkState (s : State) (node b : Nat) : LState := LState.ofCode (s.fld F.lnkStat_state node 0 b)

/-- Move a bundle to a state, with its event (R538 code 0x30). -/
def State.setLinkState (s : State) (node b : Nat) (l : LState) : State :=
  (s.event ⟨node, pageOf .lnk node 0, b, none⟩ 6 0x30 0 ((s.linkState node b).code + 8 * l.code)).put F.lnkStat_state node 0 b l.code

/-- The site of a bundle. -/
def linkSite (node b : Nat) (tag : Option Nat := none) : Site := ⟨node, pageOf .lnk node 0, b, tag⟩

/-- The panel's own ID (R347). -/
def State.panelId (s : State) : Nat := s.fld F.hubPanel_panelId 180

/-- The credit class of a sequenced frame: index 0-4 for C1-C5, 5 for the control kinds (R336). -/
def FrameBody.creditIdx : FrameBody → Nat
  | .data c _ => c - 1
  | _ => 5

/-- HURDLE, PACE and DOWN frames go ahead of every DATA frame (R334). -/
def FrameBody.control : FrameBody → Bool
  | .data .. => false
  | _ => true

/-- Put a frame into a transmit queue: control kinds ahead of DATA (R334). -/
def queueFrame (l : List FrameBody) (f : FrameBody) : List FrameBody :=
  if f.control then l.filter FrameBody.control ++ [f] ++ l.filter (fun x => !x.control) else l ++ [f]

/-- The bytes of a link packet (R331, R335), and the bytes of packets that a frame carries (R331). -/
def LinkPacket.bytes (p : LinkPacket) : Nat := 64 + 64 * p.pkt.len
def frameRoom : Nat := 244

/-- Fill a frame from the packets of its class (R334): it is not padded while another waits. `off` bytes of the first have been sent. The packets that end in
the frame, those that are left, the bytes of the first of these that have been sent. -/
def fillFrame : Nat → Nat → List LinkPacket → List LinkPacket × List LinkPacket × Nat
  | _, _, [] => ([], [], 0)
  | room, off, p :: rest =>
    if p.bytes - off ≤ room then
      let (ends, left, n) := fillFrame (room - (p.bytes - off)) 0 rest
      (p :: ends, left, n)
    else ([], p :: rest, off + room)

/-- Send one frame on a bundle: straight, or in a datagram of an Ethernet bundle (R345). -/
def State.emit (s : State) (node b : Nat) (f : Frame) : State :=
  if s.flag F.lnkCtrl_mode node 0 b then
    let peer := s.fld F.lnkStat_peerId node 0 b
    let entry := fun (f : Field) (id : Nat) => s.fld f node (id / 128) (id % 128)
    let ip := fun id => entry F.lnkTable2_ipv6Lo id + 2 ^ 64 * entry F.lnkTable3_ipv6Hi id
    s.say (.datagram node b { mac := s.fld F.lnkEth_nextHopMac node 0 b
                              vlan := if s.flag F.lnkEth_vlanEn node 0 b then some (s.fld F.lnkEth_pcp node 0 b, s.fld F.lnkEth_vlanId node 0 b) else none
                              srcIp := ip s.panelId, destIp := ip peer, flowLabel := Config.flowLabel (s.fld F.lnkStat_session node 0 b)
                              srcPort := entry F.lnkTable0_udpPort s.panelId, destPort := entry F.lnkTable0_udpPort peer
                              src := s.panelId, dest := peer,
                              incarnation := s.fld F.hubIncarnation_incarnation 180, frames := [f] })
  else s.say (.frame node b f)

/-- The acknowledgement and credit fields of the next frame, and the bundle once they are sent (R333, R336). -/
def Bundle.stamp (x : Bundle) (f : Frame) : Frame × Bundle :=
  let c := (firstBelow 6 fun i => x.owed.getD i 0 != 0)
  match c with
  | some i =>
    let n := min 63 (x.owed.getD i 0)
    ({ f with ack := wrapInt 24 ((x.expect : Int) - 1), creditClass := i + 1, creditCount := n }, { x with owed := setAt x.owed i (x.owed.getD i 0 - n) })
  | none => ({ f with ack := wrapInt 24 ((x.expect : Int) - 1) }, x)

/-- The packets of a class that wait for a bundle. -/
def Bundle.waiting (x : Bundle) (c : Nat) : List LinkPacket :=
  (x.queue.filterMap fun f => match f with | .data k ps => if k = c then some ps else none | _ => none).flatten

/-- The next DATA frame of a bundle (R334, R336), and the bundle without it: of the class that the weights choose among those that have packets and credit. -/
def Bundle.nextData (x : Bundle) (weights : List Nat) : Option (FrameBody × Bundle) :=
  let len := (List.range 5).map fun i => if (x.waiting (i + 1)).isEmpty || x.credit.getD i 0 == 0 then none else some 4
  match x.arb.wrr weights len with
  | (some i, o) =>
    let (ends, left, n) := fillFrame frameRoom (x.part.getD i 0) (x.waiting (i + 1))
    some (.data (i + 1) ends, { x with
      queue := (x.queue.filter fun f => match f with | .data k _ => k != i + 1 | _ => true) ++ left.map fun p => .data (i + 1) [p]
      part := setAt x.part i n
      credit := setAt x.credit i (x.credit.getD i 0 - 1)
      arb := { o with deficit := setAt o.deficit i (o.deficit.getD i 0 - 4) } })
  | (none, _) => none

/-- The next frame of a bundle: a control frame that has credit goes ahead of every DATA frame (R334, R336). -/
def Bundle.nextFrame (x : Bundle) (weights : List Nat) : Option (FrameBody × Bundle) :=
  match x.queue.find? FrameBody.control, x.credit.getD 5 0 with
  | some f, c + 1 => some (f, { x with queue := x.queue.erase f, credit := setAt x.credit 5 c })
  | _, _ => x.nextData weights

/-- An UP bundle sends what it has credit and retry space for (R334, R336-R337). -/
def State.pump (s : State) (node b : Nat) : Nat → State
  | 0 => s
  | fuel + 1 =>
    let x := s.link node b
    if s.linkState node b != .up || decide (4096 ≤ x.retry.length) then s else
    match x.nextFrame (s.weights node) with
    | none => s
    | some (f, x) =>
      let x := { x with retry := x.retry ++ [(x.nextSeq, f)], nextSeq := (x.nextSeq + 1) % 2 ^ 24, ackAt := if x.retry.isEmpty then s.now else x.ackAt }
      let (fr, x) := x.stamp { seq := wrapInt 24 ((x.nextSeq : Int) - 1), body := f }
      ((s.setLink node b x).emit node b fr).pump node b fuel

/-- Send what can be sent: a link packet takes at most four frames. -/
def State.pumpAll (s : State) (node b : Nat) : State := s.pump node b (4 * (s.link node b).queue.length + 1)

/-- A frame for a bundle: sent, held while it lingers or trains, or held with a knock where it listens (R338, R340, R343). -/
def State.queueOn (s : State) (node b : Nat) (f : FrameBody) : State :=
  let s := s.modLink node b fun x => { x with queue := queueFrame x.queue f }
  match s.linkState node b with
  | .up => s.pumpAll node b
  | .listen =>
    let s := if s.flag F.lnkCtrl_mode node 0 b then s else s.say (.knock node b)
    (s.modLink node b fun x => { x with wakeSince := some (x.wakeSince.getD s.now), full := !x.saved }).setLinkState node b .train
  | _ => s

/-- The trunk or alternate bundles of a mask. -/
def maskBundles (m : Nat) : List Nat := setBits 5 m

/-- The bundle a flow takes of a mask (R332): by its hash among those UP or lingering; where there is none, among those that can still
train. -/
def State.pickBundle (s : State) (node mask hash : Nat) : Option Nat :=
  let open' := (maskBundles mask).filter fun b => s.linkState node b == .up || (s.link node b).linger.isSome
  let can := (maskBundles mask).filter fun b => s.linkState node b != .off && s.linkState node b != .retired
  let l := if open'.isEmpty then can else open'
  if l.isEmpty then none else l[hash % l.length]?

/-- The hash of a packet's flow (R332); the read requests of a drove engine are spread line by line. -/
def LinkPacket.hash (lp : LinkPacket) : Nat :=
  if lp.pkt.op == .readReq && isEdge lp.pkt.src && lp.pkt.srcUnit != 0xFF && lp.transit == 0 then lp.pkt.addr / 512
  else Config.bundleHash lp.pkt.src lp.pkt.srcUnit lp.pkt.cls

/-- The hash of what a body carries. -/
def FrameBody.hash : FrameBody → Nat
  | .data _ (p :: _) => p.hash
  | _ => Config.bundleHash 0 0 6

/-- The peer-table entry of a panel ID (R365): page index and entry. -/
def State.peerTable (s : State) (f : Field) (node id : Nat) : Nat := s.fld f node (id / 128) (id % 128)

/-- Where an edge die sends a packet towards a peer panel (R332, R348-R349), or the status it is refused with. `again`: it has been redirected. -/
def State.linkRoute (s : State) (node : Nat) (lp : LinkPacket) (again : Bool) : Except Status State :=
  if s.peerTable F.lnkTable0_valid node lp.dest = 0 then .error .routeNone
  else if s.peerTable F.lnkTable0_redirectEn node lp.dest = 1 then
    let d := 156 + s.peerTable F.lnkTable0_redirect node lp.dest
    if again || !isEdge d then .error .routeNone
    else .ok (s.launch node { lp.pkt with dest := d, link := some (lp.dest, lp.src, lp.transit), epoch := s.fld F.rtrEpoch_injEpoch node,
                                          injTime := s.timeAt node, vch := 0 })
  else
    let alt := ofBits ((maskBundles (s.peerTable F.lnkTable0_alt node lp.dest)).filter fun c => s.linkState node c == .up)
    match (s.pickBundle node (s.peerTable F.lnkTable0_primary node lp.dest) lp.hash).orElse fun _ => s.pickBundle node alt lp.hash with
    | some b => .ok (s.queueOn node b (.data lp.pkt.cls [lp]))
    | none => .error .lingerExpired

/-- A packet that goes no further (R340-R341, R348-R349): the issuer of a request learns the status, over the links where it is another panel's; a reply counts
as an orphan. -/
def State.linkRefuse (s : State) (node : Nat) (lp : LinkPacket) (st : Status) : State :=
  let orphan := fun (_ : Unit) => s.modRouter node fun r => { r with orphans := r.orphans + 1 }
  if !lp.pkt.op.isRequest then orphan ()
  else if lp.src = s.panelId then s.answer node lp.pkt st
  else match s.linkRoute node ⟨answerPacket s node lp.pkt st, lp.src, s.panelId, 0⟩ false with
    | .ok s => s
    | .error _ => orphan ()

/-- An edge die sends a packet towards a peer panel, or refuses it. -/
def State.linkSend (s : State) (node : Nat) (lp : LinkPacket) (again : Bool) : State :=
  match s.linkRoute node lp again with
  | .ok s => s
  | .error st => s.linkRefuse node lp st

/-- Discard held frames (R340-R341). -/
def State.discardFrames (s : State) (node : Nat) (fs : List FrameBody) (st : Status) : State :=
  fs.foldl (fun s f => match f with
    | .data _ ps => ps.foldl (fun s p => s.linkRefuse node p st) s
    | _ => s) s

/-- Linger expiry and its like (R338, R340, R343): what was never sent moves to other UP bundles of the trunk or the alternate mask; every
other held frame is discarded with LINGER_EXPIRED. -/
def State.expireHeld (s : State) (node b : Nat) : State :=
  let x := s.link node b
  let s := s.setLink node b { x with queue := [], retry := [], part := [0, 0, 0, 0, 0], wakeSince := none, linger := none }
  let place := fun (s : State) (f : FrameBody) =>
    let dest := match f with
      | .data _ (p :: _) => p.dest | .hurdle d .. | .pace d .. => d | _ => 0xFFF
    let up := fun m => ofBits ((maskBundles m).filter fun c => c != b && s.linkState node c == .up)
    let p := up (s.peerTable F.lnkTable0_primary node dest)
    let a := up (s.peerTable F.lnkTable0_alt node dest)
    match s.pickBundle node (if p = 0 then a else p) f.hash with
    | some c => s.queueOn node c f
    | none => s.discardFrames node [f] .lingerExpired
  let s := s.discardFrames node (x.retry.map (·.2)) .lingerExpired
  x.queue.foldl place s

/-- A packet that has arrived at an edge die on its way to a peer goes on to the links (R348-R349). -/
def State.towardsPeer (s : State) (p : Packet) : Option State :=
  if !isEdge p.dest then none
  else match p.link with
    | some (dest, src, transit) => some (s.linkSend p.dest ⟨{ p with link := none }, dest, src, transit⟩ true)
    | none =>
      if p.op.cls != 2 then none
      else match s.locate p.dest p.epoch p.addr (max 1 p.extent) with
        | .ok (_, .peer id _) => some (s.linkSend p.dest ⟨p, id, s.panelId, 0⟩ false)
        | _ => none

/-- The edge die and bundle that lead to a panel (R348). -/
def State.bundleTo (s : State) (panel : Nat) : Option (Nat × Nat) :=
  let e := s.peerEntry s.master (s.fld F.rtrEpoch_injEpoch s.master) (panel / 16)
  if !(bit e 5 && decide (e % 32 < 24)) then none else
  let n := 156 + e % 32
  let n := if s.peerTable F.lnkTable0_valid n panel = 1 ∧ s.peerTable F.lnkTable0_redirectEn n panel = 1 then
    156 + s.peerTable F.lnkTable0_redirect n panel else n
  if !isEdge n || s.peerTable F.lnkTable0_valid n panel = 0 then none
  else (s.pickBundle n (s.peerTable F.lnkTable0_primary n panel) (Config.bundleHash s.master 0 6)).map fun b => (n, b)

/-- The master hub sends a HURDLE or PACE frame towards a panel (R354-R357). -/
def State.tellPanel (s : State) (panel : Nat) (f : FrameBody) : State :=
  match s.bundleTo panel with
  | some (n, b) => s.queueOn n b f
  | none => s

end Sys2Proof.Machine
end

