-- ==== Sys2Proof/Machine/RegRead.lean ====
section
/-!
DEFINITION. Register accesses: which register an offset names (R394-R395), the value software reads (R10, R399, R439, R539), how a page answers
(R414), origins (R410), and reads by the access rules of R412.
-/
namespace Sys2Proof.Machine

/-- A register lies only in some of the pages of its kind: clock and power registers in the regions' pages (R438, R469-R475), rate, 1PPS and the debug
window in the hubs' (R440, R542), breakpoints in the regions' (R540). -/
def Reg.inPage (r : Reg) (node : Nat) : Bool :=
  match r with
  | .clkStat | .clkDroop | .pwrCtrl | .pwrLimit | .pwrStat | .pwrDeficit | .pwrContact | .pwrTemp | .pwrOptable | .dbgBp | .dbgBrk => isRegion node
  | .timRate | .timPps | .timPpsCapt | .dbgMode | .dbgAcc | .dbgAccData | .dbgFreeze => isHub node
  | _ => true

/-- A header register that the unit does not have behaves as reserved (R395, R397, R404, R407). -/
def Reg.absent (r : Reg) (k : PageKind) : Bool :=
  match r with
  | .errInject => errClasses k == []
  | .tallyCtrl => !hasTally k
  | .ringCtrl => !keepsRing k
  | _ => false

/-- What an offset of a page names (R394-R395). -/
inductive Named where
  /-- a register, its index as in `Reg.key`, its copy -/
  | reg (r : Reg) (b i : Nat)
  | reserved
  /-- the HBM_TEST window (R324) -/
  | testPort
  | hole
  deriving DecidableEq, Repr

/-- Whether, and as which copy, an offset lies in a register of a page of kind `k`. -/
def Reg.copyAt (r : Reg) (node : Nat) (k : PageKind) (off : Nat) : Option Nat :=
  let p := r.place
  if (p.kind == k || (p.kind == .header && hasHeader k)) && r.inPage node && decide (p.off ≤ off)
      && decide ((off - p.off) % p.stride < 8) && decide ((off - p.off) / p.stride < p.count) then some ((off - p.off) / p.stride)
  else none

/-- The register at an offset of a page. -/
def namedAt (node page off : Nat) : Named :=
  match pageKind node page with
  | none => .hole
  | some (k, c) =>
    match allRegs.findSome? (fun r => (r.copyAt node k off).map fun i => (r, i)) with
    | some (r, i) => if r.absent k then .reserved else .reg r (if r.place.kind == .header then page else c) i
    | none => if hasHeader k && decide (0x70 ≤ off) && decide (off < 0x100) then .reserved
      else if k == .hbm && Config.testWindow off then .testPort else .hole

/-- The bits of a register that a read returns: those of its fields that are not write-only (R10), and of DUTY_MODE those of the functions the unit takes
part in (R405). -/
def Reg.readMask (r : Reg) (node b : Nat) : Nat :=
  let m := r.fields.foldl (fun m f => if f.type == .wo then m else putBits m f.lo f.width (2 ^ f.width - 1)) 0
  match r, pageKind node b with
  | .dutyMode, some (k, _) => Nat.land m (dutyFuncs k node * (1 + 2 ^ 16))
  | _, _ => m

/-- The selected entry's word of the selected ring (R539). -/
def State.ringWord (s : State) (node i : Nat) : Nat :=
  let r := Sparse.get {} s.rings (node * 64 + s.fld F.dbgRingSel_page node)
  (Sparse.get [] r.slots (s.fld F.dbgRingSel_entry node)).getD i 0

/-- The word a read of a register returns. -/
def State.regWord (s : State) (r : Reg) (node b i : Nat) : Nat :=
  match r with
  | .unitStat =>
    let pend := (List.range 32).any fun j => bit (s.fld F.errStat_err node b) j && !bit (s.fld F.errMask_mask node b) j
    (s.unit node b).code + 8 * b2n pend + 16 * s.fld F.lock_locked node b
  | .timNow => s.timeAt node
  | .lnkStat =>
    let flaps := (Sparse.get {} s.links (node * 8 + i)).flaps.filter fun t => decide (s.now < t + sec)
    putBits (Nat.land (s.word r node b i).toNat (r.readMask node b)) F.lnkStat_flaps.lo F.lnkStat_flaps.width (min 7 flaps.length)
  | .logNodestate =>
    let clears := s.events.filter fun e => e.1 == eventKey 14 i && decide (s.now < e.2 + sec)
    putBits (Nat.land (s.word r node b i).toNat (r.readMask node b)) F.logNodestate_clears.lo F.logNodestate_clears.width (min 7 clears.length)
  | .pwrDeficit => putBits (Nat.land (s.word r node b i).toNat (r.readMask node b)) F.pwrDeficit_accum.lo F.pwrDeficit_accum.width (s.accumNow node)
  | .dbgRingStat =>
    let g := Sparse.get {} s.rings (node * 64 + s.fld F.dbgRingSel_page node)
    g.index % 256 + 256 * b2n g.frozen + 512 * g.missed
  | .dbgRingData => s.ringWord node i
  | _ => Nat.land (s.word r node b i).toNat (r.readMask node b)

/-- How a page answers an access (R414): block pages follow their region, what lies in the router or always-on domain answers always. -/
def State.pageAnswer (s : State) (o : Option Origin) (node page : Nat) : Answer :=
  if isRegion node && decide (8 ≤ page) then
    if 3 ≤ s.role node then .status .targetRetired
    else match s.unit node 0 with
      | .retired => .status .targetRetired
      | .off | .starting | .draining => .status .targetResetting
      | _ => if s.fld F.pwrStat_state node = 2 ∨ s.fld F.pwrStat_state node = 3 then
          (if o == some .M then .status .targetResetting else .holds) else .serves
  else .serves

/-- May the origin read a page: the mailbox is read by G, H, F and D (R391); all other pages by every origin but P and G (R410). -/
def mayReadPage (o : Origin) (k : PageKind) : Bool :=
  match o with
  | .P => false
  | .G => k == .mailbox
  | .M | .C => k != .mailbox
  | _ => true

/-- The debug window is open to an origin (R542). -/
def State.windowOpen (s : State) (o : Origin) : Bool := o != .H || s.flag F.dbgMode_hostOk 180

/-- The test port of a stack is open to D in debug mode and to F during bring-up (R324). -/
def State.testOpen (s : State) (o : Origin) : Bool :=
  (o == .D && s.flag F.dbgMode_debug 180) || (o == .F && !s.flag F.hubBoot_ready 180)

/-- Read at most 8 bytes of a page (R412): status, number. -/
def State.readReg (s : State) (o : Option Origin) (node page off n : Nat) : Status × Nat × State :=
  let a := regAddr node page off
  match o, pageKind node page with
  | some o, some (k, _) =>
    if !mayReadPage o k then (.accessFault, 0, s.accessErr node page a o .hole)
    else if off % n ≠ 0 then (.accessFault, 0, s.accessErr node page a o .misaligned)
    else match namedAt node page (off / 8 * 8) with
      | .hole => (.accessFault, 0, s.accessErr node page a o .hole)
      | .reserved => (.done, 0, s)
      | .testPort =>
        if !s.testOpen o then (.accessFault, 0, s.accessErr node page a o .hole) else
        let (d, s) := s.draw
        (.done, bits (Config.freeWord d).toNat 0 (8 * n), s)
      | .reg r b i => (.done, bits (s.regWord r node b i) (8 * (off % 8)) (8 * n), s)
  | _, _ => (.accessFault, 0, s.accessErr node page a .C .hole)

/-- Read a register range: one access of at most 8 bytes, or aligned 64-bit reads in ascending address order (R412). -/
def State.readRegs (s : State) (o : Option Origin) (node page off : Nat) : Nat → Status × List Byte × State
  | 0 => (.done, [], s)
  | k + 1 =>
    let (x, v, s) := s.readReg o node page off 8
    let (y, bs, s) := s.readRegs o node page (off + 8) k
    (if x = .done then y else x, leBytes 8 v ++ bs, s)

/-- Read `n` bytes of a page. -/
def State.readPage (s : State) (o : Option Origin) (node page off n : Nat) : Status × List Byte × State :=
  if n ≤ 8 then
    let (x, v, s) := s.readReg o node page off n
    (x, leBytes n v, s)
  else if off % 8 ≠ 0 ∨ n % 8 ≠ 0 then
    (.accessFault, [], s.accessErr node page (regAddr node page off) (o.getD .C) .misaligned)
  else s.readRegs o node page off (n / 8)

/-- The guest port refuses what comes from it (R20): no die is live at the hub's guest site. -/
def State.guestShut (s : State) (hub : Nat) : Bool := !s.flag F.hubGeometry_guestPresent hub

end Sys2Proof.Machine
end

