-- ==== Sys2Proof/Machine/Access.lean ====
section
/-!
DEFINITION. Reading and writing panel memory on behalf of a requester: one location, and a transfer that an engine splits at
512-byte boundaries (R36). The conditions at the destination of R38, R69, R198, R317-R318, R323-R325.
-/
namespace Sys2Proof.Machine

/-- Where a stack location is served when its stack map names `d` (R315, R325): the primary copy, or the mirror copy once
the map names the partner's edge die. -/
def stackPlace (st off d : Nat) : Nat × Nat := if d = 156 + st then (st, off) else mirrorOf st off

/-- What the destination answers in place of the storage; a request that is held is served after the wake (R69, R323). -/
def State.barred (s : State) (r : Requester) (d : Nat) : Loc → Option Status
  | .stack st off => match s.stackAnswer (stackPlace st off d).1 with
    | .status x => some x
    | _ => none
  | .scratch node blk _ => if r.own node blk then none else match s.regionAnswer node blk with
    | .status x => some x
    | _ => none
  | .reg node page _ => match s.pageAnswer r.origin node page with
    | .status x => some x
    | _ => none
  | _ => none

/-- The request is held: its region naps, or its stack is in self-refresh (R69, R323). -/
def State.heldAt (s : State) (r : Requester) (d : Nat) : Loc → Bool
  | .stack st off => s.stackAnswer (stackPlace st off d).1 == .holds
  | .scratch node blk _ => !r.own node blk && s.regionAnswer node blk == .holds
  | .reg node page _ => s.pageAnswer r.origin node page == .holds
  | _ => false

/-- Read `n` bytes of a storage location: status, data, state. -/
def State.readLoc (s : State) (r : Requester) (d : Nat) (l : Loc) (n : Nat) : Status × List Byte × State :=
  match s.barred r d l with
  | some st => (st, [], s)
  | none =>
    if !s.mayRead r l n then (.accessFault, [], s)
    else match l with
      | .stack st off =>
        let (st, off) := stackPlace st off d
        let (bs, p, s) := s.readStack st off n
        (if p then .poisoned else .done, bs, s)
      | .scratch node blk off =>
        let (bs, p, s) := s.readBlk node blk off n
        (if p then .poisoned else .done, bs, s)
      | .host a => (.done, s.mem.read (0x300000000000 + a) n, s)
      | .reg node page off => s.readPage r.origin node page off n
      | .peer .. => (.accessFault, [], s)

/-- The change record of a write by F or D into an activation store (R198, R205): the first eight bytes before and after. -/
def State.asChange (s : State) (r : Requester) (node blk off : Nat) (ls : Lanes) : State :=
  if r.firmware && inAS off then
    s.change node (pageOf .blk node blk) 0 (r.origin.getD .F) 0 (s.mem.num (blkKeyAt node blk off) 8)
      (leNat ((ls.take 8).map (·.1)))
  else s

/-- The mirror copy of a paired write is still to be made: paired placement, the primary serves, the partner stands (R317). -/
def State.mirrored (s : State) (st d : Nat) : Bool := s.paired && d == 156 + st && !s.stackFailed (partner st)

/-- Write lanes to one copy of a storage location: status, state. -/
def State.writeLoc (s : State) (r : Requester) (d : Nat) (l : Loc) (ls : Lanes) (poison : Bool) : Status × State :=
  match s.barred r d l with
  | some st => (st, s)
  | none =>
    if !s.mayWrite r l ls.length then (.accessFault, s)
    else
      let st' : Status := if poison then .poisoned else .done
      match l with
      | .stack st off =>
        let (st, off) := stackPlace st off d
        (st', s.writeStackCopy st off ls poison)
      | .scratch node blk off => (st', (s.asChange r node blk off ls).writeBlk node blk off ls poison)
      | .host a =>
        let s := { s with mem := s.mem.writeMasked (0x300000000000 + a) ls }
        (st', if poison then s.say (.hostPoison d a ls.length) else s)
      | _ => (.accessFault, s)

/-- Write lanes to a storage location and, in paired placement, to its mirror at once (R317). -/
def State.writeBoth (s : State) (r : Requester) (d : Nat) (l : Loc) (ls : Lanes) (poison : Bool) : Status × State :=
  let (x, s) := s.writeLoc r d l ls poison
  match l with
  | .stack st off =>
    if (x == .done || x == .poisoned) && s.mirrored st d then
      (x, s.writeStackCopy (partner st) (halfStack + off) ls poison)
    else (x, s)
  | _ => (x, s)

/-- The status an engine's transfer to another node meets on its way, where it does not arrive (R69). A timeout is counted (R70); a transfer that finds its
region napping raises a wake (R69). That both are met at once, and not in time, is log entry 27. -/
def State.unreachable (s : State) (node tag dest : Nat) : Option Status × State :=
  if dest = node then (none, s) else
  let p : Packet := { op := .write, cls := 2, src := node, dest := dest, jobTag := tag,
                      epoch := s.fld F.rtrEpoch_injEpoch node, injTime := s.timeAt node }
  match s.meets 400 node true p with
  | none => (none, s.raiseWake dest)
  | some .timeout => (some .timeout, s.countTimeout node dest)
  | st => (st, s)

/-- The first condition detected is reported (R7). -/
def Status.first (a b : Status) : Status := if a = .done then b else a

/-- The page of the unit whose record reports a requester's conditions: its block's, or the drove engine's of an edge die. -/
def Requester.page (r : Requester) : Nat := if isEdge r.node then pageOf .drv r.node 0 else pageOf .blk r.node (r.unit % 4)

/-- Of two conditions of one transfer the first detected is reported, another counts in the unit's ERR_STAT (R7, R401). -/
def State.twoConditions (s : State) (r : Requester) (x y : Status) : State :=
  if x = .done ∨ y = .done ∨ x = y ∨ isHub r.node then s else s.bump F.errStat_suppressed r.node r.page 0

/-- The length of the first packet of a transfer of `n` bytes at `a`: up to the next 512-byte boundary (R36). -/
def firstPart (a n : Nat) : Nat := min n (512 - a % 512)

/-- Read a range packet by packet; the data of a packet that fails reads as zeros and the status says so. -/
def State.readRange (s : State) (r : Requester) : Nat → Nat → Nat → Status × List Byte × State
  | 0, _, _ => (.done, [], s)
  | fuel + 1, a, n =>
    if n = 0 then (.done, [], s) else
    let k := firstPart a n
    let (x, bs, s) := match s.locate r.node (s.fld F.rtrEpoch_injEpoch r.node) a k with
      | .error st => (st, [], s)
      | .ok (d, l) => match s.unreachable r.node r.tag d with
        | (some st, s) => (st, [], s)
        | (none, s) => s.readLoc r d l k
    let bs := if bs.length = k then bs else List.replicate k 0
    let (y, rest, s) := s.readRange r fuel (a + k) (n - k)
    (x.first y, bs ++ rest, s.twoConditions r x y)

/-- Write a range packet by packet, each judged on its own (R36). -/
def State.writeRange (s : State) (r : Requester) : Nat → Nat → Lanes → Bool → Status × State
  | 0, _, _, _ => (.done, s)
  | fuel + 1, a, ls, poison =>
    if ls.length = 0 then (.done, s) else
    let k := firstPart a ls.length
    let (x, s) := match s.locate r.node (s.fld F.rtrEpoch_injEpoch r.node) a k with
      | .error st => (st, s)
      | .ok (d, l) => match s.unreachable r.node r.tag d with
        | (some st, s) => (st, s)
        | (none, s) => s.writeBoth r d l (ls.take k) poison
    let (y, s) := s.writeRange r fuel (a + k) (ls.drop k) poison
    (x.first y, s.twoConditions r x y)

/-- The parts of an access, cut at 512-byte boundaries (R36): address and length. -/
def accessParts : Nat → Nat → Nat → List (Nat × Nat)
  | 0, _, _ => []
  | fuel + 1, a, n => if n = 0 then [] else (a, firstPart a n) :: accessParts fuel (a + firstPart a n) (n - firstPart a n)

/-- A transfer's number of packets, with room for the ends. -/
def packets (n : Nat) : Nat := n / 512 + 2

/-- Read `n` bytes at a panel address. -/
def State.get (s : State) (r : Requester) (a n : Nat) : Status × List Byte × State := s.readRange r (packets n) a n

/-- Write bytes at a panel address. -/
def State.putBytes (s : State) (r : Requester) (a : Nat) (bs : List Byte) (poison : Bool := false) : Status × State :=
  s.writeRange r (packets bs.length) a (allOn bs) poison

/-- The destination range of a multi-packet command that ends with one of these statuses is undefined (R6). -/
def Status.leavesUndefined : Status → Bool
  | .epochStale | .lingerExpired | .peerChanged | .timeout => true
  | _ => false

/-- The storage key of a panel address, if it names storage. -/
def State.keyOf (s : State) (node a : Nat) : Option Nat :=
  match s.locate node (s.fld F.rtrEpoch_injEpoch node) a 1 with
  | .ok (d, .stack st off) => some ((stackPlace st off d).1 * stackSize + (stackPlace st off d).2)
  | .ok (_, l) => l.key
  | .error _ => none

/-- Make `n` bytes at a panel address a free value (R6). -/
def State.undefineRange (s : State) (node a n : Nat) : State :=
  match s.keyOf node a with
  | some k => { s with mem := s.mem.undefine k n s.freeCount, freeCount := s.freeCount + 1 }
  | none => s

end Sys2Proof.Machine
end

