-- ==== Sys2Proof/Machine/Banks.lean ====
section
/-!
DEFINITION. Geometry and the two-bank switch: the choice of spares (R13, R22-R27), the banks hub firmware builds (R67, R81),
seal, flip and drain (R71-R74), LOADED_DIGEST.
-/
namespace Sys2Proof.Machine

/-- The die at (row, column) can serve: not fused bad and not retired (R25). -/
def State.usable (s : State) (n : Nat) : Bool := !s.flag F.rgnSite_fusedBad n && decide (s.role n < 3)

/-- The usable columns of a row. -/
def State.usableCols (s : State) (r : Nat) : List Nat := allBelow 13 fun c => s.usable (13 * r + c)

/-- The smallest number of usable dies in any row, at most 12 (R25). -/
def State.smallestRow (s : State) : Nat := (List.range 12).foldl (fun a r => min a (s.usableCols r).length) 12

/-- The die the order of R13 picks of some columns of a row: the lowest grade, and of equals the highest column. -/
def State.pickSpare (s : State) (r : Nat) : List Nat → Option Nat
  | [] => none
  | c :: rest => match s.pickSpare r rest with
    | none => some c
    | some d =>
      let gc := s.fld F.rgnSite_grade (13 * r + c)
      let gd := s.fld F.rgnSite_grade (13 * r + d)
      if gc < gd ∨ (gc = gd ∧ d < c) then some c else some d

/-- Set columns aside by the order of R13 until `n` are left: those set aside in order of picking, and those that serve. -/
def State.setAside (s : State) (r n : Nat) : Nat → List Nat → List Nat × List Nat
  | 0, cols => ([], cols)
  | fuel + 1, cols =>
    if cols.length ≤ n then ([], cols) else
    match s.pickSpare r cols with
    | none => ([], cols)
    | some c =>
      let (a, b) := s.setAside r n fuel (cols.filter (· != c))
      (c :: a, b)

/-- The dies of a row that serve, in ascending column order, at N = `n` (R22, R26). -/
def State.serving (s : State) (r n : Nat) : List Nat := (s.setAside r n 13 (s.usableCols r)).2

/-- The dies of a row set aside at N = `n`: the first is the spare, the others are held (R26). -/
def State.aside (s : State) (r n : Nat) : List Nat := (s.setAside r n 13 (s.usableCols r)).1

/-- The whole map at N = `n` (R22, R26): node of each logical region; empty below 8 (R27). -/
def State.freshMap (s : State) (n : Nat) : List Nat :=
  if n < 8 then [] else (List.range 12).flatMap fun r => (s.serving r n).map fun c => 13 * r + c

/-- 144 map bytes, 0xFF for unmapped (R68). -/
def mapBytes (m : List Nat) : List Nat := m ++ List.replicate (144 - m.length) 0xFF

/-- The way from `n` over a port is closed: a dead router, or a port whose status is down (R50, R81). -/
def State.closed (s : State) (n port : Nat) : Bool :=
  match neighbour n port with
  | none => false
  | some m => !s.live m || Sparse.get 0 (s.router n).ports port == 2

/-- The dead routers of the panel (R81). -/
def State.deadRouters (s : State) : List Nat := allBelow 182 fun n => !s.live n

/-- A gap in a line (R50, R81): along row `line` (or column, `row` false), between the routers at positions `a` and `b` of it; columns are counted from 0 for the
west edge dies, as in colOf. A dead router lies between two routers that are two apart; a bridge that is down between neighbours. -/
structure Gap where
  row : Bool
  line : Nat
  a : Nat
  b : Nat
  deriving DecidableEq, Repr

/-- The gaps of a panel: of every dead router its row's and its column's, and of every closed way between live routers. -/
def State.gaps (s : State) : List Gap :=
  (s.deadRouters.filter fun g => decide (g < 180)).flatMap (fun g =>
    (if 0 < colOf g ∧ colOf g < 14 then [⟨true, rowOf g, colOf g - 1, colOf g + 1⟩] else []) ++
    (if 0 < rowOf g ∧ rowOf g < 11 then [⟨false, colOf g, rowOf g - 1, rowOf g + 1⟩] else [])) ++
  (s.routers.filter fun e => decide (e.1 < 180) && s.live e.1).flatMap fun e =>
    ([(1, true), (2, false)].filter fun x => s.closed e.1 x.1 && (neighbour e.1 x.1).any fun m => s.live m && decide (m < 180)).map fun x =>
      if x.2 then ⟨true, rowOf e.1, colOf e.1, colOf e.1 + 1⟩ else ⟨false, colOf e.1, rowOf e.1, rowOf e.1 + 1⟩

/-- The ports of a hub by column (R12, R67): columns 5, 6 and 7, with colOf's 6, 7 and 8. -/
def hubPort (hub col : Nat) : Nat := if col ≤ 6 then (if hub = 180 then 2 else 0) else if col = 7 then 5 else 6

/-- Of a hub's columns, the one its traffic uses in place of `want` (R67, R81): that one, or where its port router is dead or its bridge down the first of the
others. -/
def State.hubCol (s : State) (hub want : Nat) : Nat :=
  (([want, 6, 7, 8].filter fun c => let port := hubPort hub c
    !s.closed hub port && !(neighbour hub port).any fun m => s.closed m (portTo m hub)).head?).getD want

/-- The column a packet for `d` turns in, from column `c` (R67): hubs are reached through columns 5-7, the nearest of them. -/
def State.turnCol (s : State) (c d : Nat) : Nat := if isHub d then s.hubCol d (max 6 (min 8 c)) else colOf d

/-- The port of dimension-ordered routing, east-west first (R67). -/
def State.portA (s : State) (n d : Nat) : Nat :=
  if n = d then 4
  else if isHub n then hubPort n (s.hubCol n (if isHub d then 7 else max 6 (min 8 (colOf d))))
  else
    let c := colOf n
    let t := s.turnCol c d
    if c < t then 1 else if t < c then 3
    else if isHub d then (if d = 180 then 0 else 2)
    else if rowOf d < rowOf n then 0 else 2

/-- The detour turn taken at a router whose dimension-ordered way is closed (R81): early into the packet's own north-south
direction where it would have turned at the dead router, else south (north in row 11); in a column, east (west in column 12). -/
def State.detourPort (s : State) (n d port : Nat) : Nat :=
  if port = 1 ∨ port = 3 then
    let gapCol := if port = 1 then colOf n + 1 else colOf n - 1
    let dead := (neighbour n port).any fun m => !s.live m
    if dead ∧ s.turnCol gapCol d = gapCol ∧ rowOf d ≠ rowOf n then (if rowOf d < rowOf n then 0 else 2)
    else if rowOf n = 11 then 0 else 2
  else if colOf n = 13 ∨ colOf n = 14 then 3 else 1

/-- Channel B's port beside a gap, where the gap governs it (R81). Beside a gap in a row, on the detour's row, a packet for a column beyond the gap passes it and
then turns back onto its line, unless its column begins there and leads away from the line. Beside a gap in a column, a packet for that column passes it and
turns back. -/
def State.besideGap (s : State) (n d : Nat) (g : Gap) : Option Nat :=
  let t := s.turnCol (colOf n) d
  let dr := if isHub d then (if d = 180 then -1 else 12) else (rowOf d : Int)
  let r : Int := rowOf n
  if g.row then
    let down := decide (g.line ≠ 11)
    let back := if down then 0 else 2
    let away := if down then decide ((g.line : Int) < dr) else decide (dr < (g.line : Int))
    if rowOf n ≠ (if down then g.line + 1 else g.line - 1) ∨ colOf n < g.a ∨ g.b < colOf n then none
    else if g.b ≤ t then (if colOf n < g.b then some 1 else if t = g.b ∧ away then none else some back)
    else if t ≤ g.a then (if g.a < colOf n then some 3 else if t = g.a ∧ away then none else some back)
    else none
  else
    let side := if g.line = 13 ∨ g.line = 14 then g.line - 1 else g.line + 1
    if t ≠ g.line ∨ colOf n ≠ side ∨ rowOf n < g.a ∨ g.b < rowOf n then none
    else if (g.b : Int) ≤ dr ∧ r < g.b then some 2
    else if dr ≤ (g.a : Int) ∧ (g.a : Int) < r then some 0
    else none

/-- Channel B's port (R81): as the first gap it lies beside has it; elsewhere dimension-ordered. -/
def State.portB (s : State) (gaps : List Gap) (n d : Nat) : Nat :=
  if isHub n then s.portA n d else (gaps.findSome? (s.besideGap n d)).getD (s.portA n d)

/-- Hub firmware's route entry of router `n` for destination `d` (R67-R69, R81). -/
def State.buildRoute (s : State) (gaps : List Gap) (n d : Nat) : Nat :=
  let a := s.portA n d
  let turn := n != d && s.closed n a && !isHub n
  let a' := if turn then s.detourPort n d a else a
  let b := if n = d then 4 else s.portB gaps n d
  let retired := if isRegion d then decide (3 ≤ s.role d) else s.unit d 0 == .retired
  a' + 8 * b2n turn + 16 * b + 128 + 512 * b2n retired

/-- The outputs a packet for `d` takes on channel B from router `n` on, in order, under some banks (R81, R83). -/
def walkB (route : Nat → Nat → Nat) : Nat → Nat → Nat → List Nat
  | 0, _, _ => []
  | fuel + 1, n, d =>
    let port := bits (route n d) 4 3
    if n = d then [] else match neighbour n port with
      | some m => bridgeKey n port :: walkB route fuel m d
      | none => []

/-- The waits of one buffer for the next that the detours toward `d` cause on channel B (R83). -/
def waitsB (route : Nat → Nat → Nat) (live : List Nat) (d : Nat) : List (Nat × Nat) :=
  (live.flatMap fun n =>
    let e := route n d
    if !bit e 3 || !bit e 7 || bit e 9 || n == d then [] else match neighbour n (bits e 0 3) with
      | some m => let l := bridgeKey n (bits e 0 3) :: walkB route 64 m d
        l.zip (l.drop 1)
      | none => []).eraseDups

/-- What is left of a dependency graph once every wait for a buffer that itself waits for nothing is taken out: empty where there is no cycle. -/
def cycleCore : Nat → List (Nat × Nat) → List (Nat × Nat)
  | 0, es => es
  | fuel + 1, es =>
    let es' := es.filter fun e => es.any fun f => f.1 == e.2
    if es'.length = es.length then es else cycleCore fuel es'

/-- The destinations that hub firmware marks VALID 0 (R73 step 1): those whose detours take part in a cycle of channel-B waits. -/
def cyclicDests (route : Nat → Nat → Nat) (live : List Nat) : List Nat :=
  let waits := (List.range 182).map fun d => (d, waitsB route live d)
  let all := (waits.flatMap (·.2)).eraseDups
  let core := cycleCore all.length all
  if core.isEmpty then [] else (waits.filter fun w => w.2.any core.contains).map (·.1)

/-- Route banks, the destinations whose detours would close a cycle of waits marked VALID 0 (R73 step 1). -/
def withoutCycles (live : List Nat) (banks : List (Nat × List Nat)) : List (Nat × List Nat) :=
  let bad := cyclicDests (fun n d => match banks.find? fun b => b.1 == n with | some b => b.2.getD d 0 | none => 0) live
  banks.map fun b => (b.1, (b.2.zip (List.range 182)).map fun e => if bad.contains e.2 then e.1 - 128 * b2n (bit e.1 7) else e.1)

/-- Little-endian words of a list of entries of `w` bits. -/
def packWords (w : Nat) (es : List Nat) : List Word :=
  (chunks (64 / w) ((es.length * w + 63) / 64) es).map fun g =>
    BitVec.ofNat 64 (g.foldr (fun e acc => e % 2 ^ w + 2 ^ w * acc) 0)

/-- Write consecutive words of a register's copies. -/
def State.setWords (s : State) (r : Reg) (node : Nat) (ws : List Word) : State :=
  let base := r.key node 0 0
  { s with regs := Sparse.splice base (base + 8 * ws.length) ((List.range ws.length).zip ws |>.map fun (i, w) => (base + 8 * i, w)) s.regs }

/-- The bytes of a bank in the order LOADED_DIGEST runs over them (R74). -/
def State.bankBytes (s : State) (node bank : Nat) : List Byte :=
  let bytes := fun (r : Reg) (n : Nat) => ((List.range ((n + 7) / 8)).flatMap fun i => leBytes 8 (s.word r node 0 i).toNat).take n
  if bank = 0 then bytes .rtrMap0 144 ++ bytes .rtrRoute0 364 ++ bytes .rtrStackMap0 24 ++ bytes .rtrPeerMap0 256
  else bytes .rtrMap1 144 ++ bytes .rtrRoute1 364 ++ bytes .rtrStackMap1 24 ++ bytes .rtrPeerMap1 256

/-- LOADED_DIGEST of a bank (R74). -/
def State.bankDigest (s : State) (node bank : Nat) : Nat := crcMsb 16 0x1021 0xFFFF (s.bankBytes node bank)

/-- Move a bank to a state (R71). -/
def State.setBank (s : State) (node bank st : Nat) : State :=
  if bank = 0 then s.put F.rtrEpoch_bank0State node 0 0 st else s.put F.rtrEpoch_bank1State node 0 0 st

/-- Record a bank's activation (R72). -/
def State.activate (s : State) (node bank t : Nat) : State :=
  s.modRouter node fun r => if bank = 0 then { r with activation0 := t } else { r with activation1 := t }

/-- SEAL (R71, R74): the FREE bank becomes LOADED; with both FREE, bank 0 becomes ACTIVE at once. Its digest is set and one
change record left (R422). With no bank FREE nothing is sealed. -/
def State.seal (s : State) (node : Nat) (o : Origin) : State :=
  let f0 := s.bankState node 0 == 0
  let f1 := s.bankState node 1 == 0
  if !f0 && !f1 then s
  else
    let bank := if f0 then 0 else 1
    let d := s.bankDigest node bank
    let s := s.put F.rtrEpoch_loadedDigest node 0 0 d
    let s := if f0 && f1 then (s.setBank node 0 2).activate node 0 (s.timeAt node) else s.setBank node bank 1
    s.change node (pageOf .rtr node 0) 0x100 o 1 bank d

/-- A write to RTR_FLIP_AT (R74): 0 cancels a scheduled flip, or leaves the time of the last one; a time less than 2 µs ahead
is dropped and recorded; otherwise the flip is scheduled. Each accepted write is recorded (R422). -/
def State.flipAt (s : State) (node : Nat) (o : Origin) (t : Nat) : State :=
  let page := pageOf .rtr node 0
  let old := s.fld F.rtrFlipAt_flipAt node
  if t = 0 then
    let s := if (s.router node).flipPending then (s.put F.rtrFlipAt_flipAt node 0 0 0).modRouter node fun r => { r with flipPending := false } else s
    s.change node page 0x108 o 0 old (s.fld F.rtrFlipAt_flipAt node)
  else if t < s.timeAt node + 2 * us then s.accessErr node page (regAddr node page 0x108) o .value
  else ((s.put F.rtrFlipAt_flipAt node 0 0 t).modRouter node fun r => { r with flipPending := true }).change node page 0x108 o 0 old t

/-- A switch is in progress: some live router has a flip scheduled or a bank LOADED or DRAINING (R74). -/
def State.switchBusy (s : State) : Bool :=
  (List.range 182).any fun n => s.live n && ((s.router n).flipPending || s.bankState n 0 == 3 || s.bankState n 1 == 3
    || s.bankState n 0 == 1 || s.bankState n 1 == 1)

/-- The map the next switch seals: the active map with the substitutions, or one built anew (R74 steps 2-3). -/
def State.nextMap (s : State) (c : Switch) (bank : Nat) : List Nat :=
  if c.rebuild then mapBytes (s.freshMap (c.newN.getD s.smallestRow))
  else c.subs.foldl (fun m x => setAt m x.1 x.2) ((List.range 144).map (s.mapEntry s.master bank))

/-- The tables of one bank: routes, map, stack map, peer map (R68, R364, R394). -/
structure Tables where
  routes : List Nat
  map : List Nat
  stack : List Nat
  peer : List Nat
  deriving DecidableEq, Repr

/-- Write, seal and schedule a bank of one router (R73 steps 2-3). -/
def State.loadRouter (s : State) (bank : Nat) (b : Tables) (t : Nat) (first : Bool) (n : Nat) : State :=
  let s := s.setWords (if bank = 0 then .rtrRoute0 else .rtrRoute1) n (packWords 16 b.routes)
  let s := s.setWords (if bank = 0 then .rtrMap0 else .rtrMap1) n (packWords 8 b.map)
  let s := s.setWords (if bank = 0 then .rtrStackMap0 else .rtrStackMap1) n (packWords 8 b.stack)
  let s := s.setWords (if bank = 0 then .rtrPeerMap0 else .rtrPeerMap1) n (packWords 8 b.peer)
  let s := s.seal n .F
  if first then s else s.flipAt n .F t

/-- A bank the host has supplied for a router (R419 function 2): a page in the layout of the RTR_ page for each node, in order, from panel address `a`. -/
def State.suppliedTables (s : State) (a bank n : Nat) : Option Tables × State :=
  let r : Requester := ⟨s.master, 0x11, 64⟩
  let at' := fun (off : Nat) => a + 0x1000 * n + off
  let (w, x, s) := s.get r (at' (0x400 + 0x200 * bank)) 364
  let (y, m, s) := s.get r (at' (0x800 + 0x100 * bank)) 144
  let (z, k, s) := s.get r (at' (0x8A0 + 0x100 * bank)) 24
  let (v, p, s) := s.get r (at' (0xA00 + 0x100 * bank)) 256
  let bytes := fun (l : List Byte) => l.map BitVec.toNat
  (if w = .done ∧ y = .done ∧ z = .done ∧ v = .done then some ⟨(chunks 2 182 x).map leNat, bytes m, bytes k, bytes p⟩ else none, s)

/-- The panel's check of a supplied bank (R73 step 1): the logical regions that exist, and no others, lie each on a die of its own that serves; no
route leads into a closed way. -/
def State.tablesOk (s : State) (n : Nat) (b : Tables) : Bool :=
  let k := 12 * (s.changes.newN).getD s.lcols
  let used := b.map.take k
  used.all (fun d => isRegion d && s.role d == 0) && decide (used.eraseDups = used) && (b.map.drop k).all (· == 0xFF) &&
    (List.range 182).all fun d => let e := b.routes.getD d 0
      !bit e 7 || bits e 0 3 == 7 || bits e 0 3 == 4 || !s.closed n (bits e 0 3)

/-- The banks the host has supplied for all live routers, if every one passes the check; their detours without cycles. -/
def State.hostTables (s : State) (a bank : Nat) : Option (List (Nat × Tables)) × State :=
  let live := allBelow 182 s.live
  let (found, s) : Option (List (Nat × Tables)) × State := live.foldl (fun r n => match r.1 with
    | none => r
    | some l => let (b, s) := r.2.suppliedTables a bank n
      match b with
      | some b => if s.tablesOk n b then (some (l ++ [(n, b)]), s) else (none, s)
      | none => (none, s)) (some [], s)
  (found.map fun l => (l.zip (withoutCycles live (l.map fun b => (b.1, b.2.routes)))).map fun x => (x.1.1, { x.1.2 with routes := x.2.2 }), s)

/-- The route banks of all live routers (R67, R81), without cycles (R73 step 1). -/
def State.buildRoutes (s : State) : List (Nat × List Nat) :=
  let gaps := s.gaps
  let live := allBelow 182 s.live
  let banks := live.map fun n => (n, (List.range 182).map (s.buildRoute gaps n))
  if gaps.isEmpty then banks else
  withoutCycles live banks

/-- A router holds the new bank (R73 steps 2-3): LOADED, its digest the one hub firmware has computed, its flip scheduled at T. One that does not is taken for
one that has not acknowledged. -/
def State.acknowledges (s : State) (bank t : Nat) (b : Tables) (n : Nat) : Bool :=
  s.bankState n bank == 1 && s.fld F.rtrEpoch_loadedDigest n == crcMsb 16 0x1021 0xFFFF (digestBytes b) && (s.router n).flipPending &&
    s.fld F.rtrFlipAt_flipAt n == t
where
  /-- the bytes of a bank's tables as hub firmware has them -/
  digestBytes (b : Tables) : List Byte :=
    let ws := fun (w n : Nat) (es : List Nat) => ((packWords w es).flatMap fun x => leBytes 8 x.toNat).take n
    ws 8 144 b.map ++ ws 16 364 b.routes ++ ws 8 24 b.stack ++ ws 8 256 b.peer

/-- R73 steps 1-3 on every live router, with the changes merged (R74); banks the host has supplied, and that pass, take the place of the panel's own. Where a
router does not acknowledge, every flip is cancelled, the changes wait on, and the router is suspect. -/
def State.switchTo (s : State) (t : Nat) : State :=
  let c := s.changes
  let act := s.fld F.hubGeometry_mapBank s.master
  let bank := 1 - act
  let (host, s) := match c.tables with
    | some (some a) => s.hostTables a bank
    | _ => (none, s)
  let map := s.nextMap c act
  let stack := c.stackMap.foldl (fun m x => setAt m x.1 x.2) ((List.range 24).map (s.stackEntry s.master act))
  let peer := c.peers.foldl (fun m x => setAt m x.1 x.2) ((List.range 256).map (s.peerEntry s.master act))
  let banks := host.getD (s.buildRoutes.map fun b => (b.1, ⟨b.2, map, stack, peer⟩))
  let s := banks.foldl (fun s b => s.loadRouter bank b.2 t false b.1) s
  let silent := (banks.filter fun b => !s.acknowledges bank t b.2 b.1).map (·.1)
  if silent.isEmpty then { s with changes := {}, switching := c }
  else { banks.foldl (fun s b => s.flipAt b.1 .F 0) s with suspects := s.suspects ++ silent.filter fun n => !s.suspects.contains n }

/-- HUB_GEOMETRY's fields that follow N and the spares (R27, R42): in both hubs. -/
def State.showGeometry (s : State) (n : Nat) : State :=
  let mask := ofBits (allBelow 12 fun r => (List.range 13).any fun c => s.role (13 * r + c) == 1 && s.usable (13 * r + c) && s.unit (13 * r + c) 0 == .off)
  [180, 181].foldl (fun s h =>
    let s := s.put F.hubGeometry_lcols h 0 0 n
    let s := s.put F.hubGeometry_regions h 0 0 (if n < 8 then 0 else 12 * n)
    let s := s.put F.hubGeometry_spareMask h 0 0 (if n < 8 then 0 else mask)
    let s := s.put F.hubGeometry_reduced h 0 0 (b2n (n < 12))
    s.put F.hubGeometry_noCompute h 0 0 (b2n (n < 8))) s

/-- RGN_SITE.LNUM of a region under the active map of its router (R43). -/
def State.showLnum (s : State) (n : Nat) : State :=
  let e := s.fld F.rtrEpoch_injEpoch n
  s.put F.rgnSite_lnum n 0 0 ((firstBelow 144 fun l => s.mapEntry n e l == n).getD 0xFF)

/-- The roles N and the order of R13 give each die of the panel that is not retired (R16, R26, R27). -/
def State.assignRoles (s : State) (n : Nat) : State :=
  (List.range 12).foldl (fun s r =>
    let asd := s.aside r n
    let spare := asd.head?
    (List.range 13).foldl (fun s c =>
      let nd := 13 * r + c
      if 3 ≤ s.role nd then s
      else if s.flag F.rgnSite_fusedBad nd then s.put F.rgnSite_role nd 0 0 1
      else if n < 8 then s.put F.rgnSite_role nd 0 0 2
      else if spare = some c then s.put F.rgnSite_role nd 0 0 1
      else if asd.contains c then s.put F.rgnSite_role nd 0 0 2
      else s.put F.rgnSite_role nd 0 0 0) s) s

/-- HBM_STAT.MIRROR of every stack (R325, R327): a pair with a failed stack holds sole copies, a pair with two has lost them. -/
def State.showMirror (s : State) : State :=
  (List.range 24).foldl (fun s st =>
    let f := s.stackFailed st
    let g := s.stackFailed (partner st)
    s.put F.hbmStat_mirror (156 + st) 0 0 (if !s.paired then 0 else if f && g then 3 else if f || g then 2 else 1)) s

/-- DRV_STAT.FEED of every edge die (R270-R271, R273): 2 where the opposite edge die is retired, 1 where a dead router, or a bridge that is down (R50),
splits the row. -/
def State.showFeed (s : State) : State :=
  (List.range 24).foldl (fun s e =>
    let n := 156 + e
    let far := if e < 12 then n + 12 else n - 12
    let split := (List.range 13).any fun c => !s.onLine { op := .droveTile, cls := 3, src := n, mcDir := if e < 12 then 0 else 1 } (13 * (e % 12) + c)
    s.put F.drvStat_feed n 0 0 (if s.unit far 0 = .retired then 2 else if split then 1 else 0)) s

/-- A region whose router is dead flips no more: its LNUM reads 0xFF once the map leaves it out (R43, R81). -/
def State.unmapDead (s : State) : State :=
  (allBelow 156 fun n => s.role n == 4 &&
    (List.range 144).all fun l => s.mapEntry s.master (s.fld F.rtrEpoch_injEpoch s.master) l != n).foldl (fun s n => s.put F.rgnSite_lnum n 0 0 0xFF) s

/-- EPOCH_FLIP's effect (R73 step 4) at one router: LOADED becomes ACTIVE as of T, ACTIVE becomes DRAINING, new injections carry the
new epoch; a region's LNUM follows; at the master hub MAP_BANK flips, MAP_VERSION rises, and N and the geometry take force, and then ALERT_N and vector 50
tell of a change of N (R27 steps 2-4). -/
def State.flip (s : State) (n : Nat) : State :=
  let new := if s.bankState n 0 = 1 then 0 else 1
  let s := (s.setBank n (1 - new) 3).setBank n new 2
  let s := (s.activate n new (s.fld F.rtrFlipAt_flipAt n)).put F.rtrEpoch_injEpoch n 0 0 new
  let s := s.modRouter n fun r => { r with flipPending := false }
  let s := if isRegion n then s.showLnum n else s
  if n = s.master then
    let c := s.switching
    let s := [180, 181].foldl (fun s h => (s.put F.hubGeometry_mapBank h 0 0 new).count F.hubGeometry_mapVersion h 0 0) s
    let s := (s.showMirror.showFeed).unmapDead
    match c.newN with
    | some k => (((s.showGeometry k).stateEntry ⟨s.master, 0, 0x3F, none⟩ .ce .geometryChange 0 k).alert).vector 50
    | none => s.showGeometry s.lcols
  else s

/-- EPOCH_DRAIN_END's effect (R72, R73 step 6): packets of the old epoch that wait at this router are dropped as stale, the
DRAINING bank becomes FREE. -/
def State.drainEnd (s : State) (n : Nat) : State :=
  let old := if s.bankState n 0 = 3 then 0 else 1
  let gone := (s.router n).waiting.filter (fun p => p.epoch == old) ++ s.fabric.filter fun p => p.dest == n && p.epoch == old
  let s := { s with fabric := s.fabric.filter fun p => !(p.dest == n && p.epoch == old) }.modRouter n fun r =>
    { r with inputs := r.inputs.map (fun (e : Nat × List Buffered) => (e.1, e.2.filter fun b => b.pkt.epoch != old)), reservoir := r.reservoir.filter fun p => p.epoch != old }
  let s := gone.foldl (fun s p => s.dropStale n p) s
  let s := s.setBank n old 0
  if n = s.master then { s with switching := {} } else s

/-- Which bank a word of the RTR_ page's tables belongs to (R68, R364, R394). -/
def bankTable : Reg → Option Nat
  | .rtrRoute0 | .rtrMap0 | .rtrStackMap0 | .rtrPeerMap0 => some 0
  | .rtrRoute1 | .rtrMap1 | .rtrStackMap1 | .rtrPeerMap1 => some 1
  | _ => none

/-- EPOCH_FLIP (R73). -/
def execEpochFlip (node : Nat) (s : State) : Out :=
  need (decide (node < 182)) .noSuch <|
  need ((s.router node).flipPending && (s.bankState node 0 == 1 || s.bankState node 1 == 1)) .wrongState <|
  need (decide (s.fld F.rtrFlipAt_flipAt node ≤ s.timeAt node)) .notDue <| .next (s.flip node)

/-- EPOCH_DRAIN_END (R73). -/
def execEpochDrainEnd (node : Nat) (s : State) : Out :=
  need (decide (node < 182)) .noSuch <|
  need (s.bankState node 0 == 3 || s.bankState node 1 == 3) .wrongState <|
  need (decide (s.fld F.rtrFlipAt_flipAt node + 10 * us ≤ s.timeAt node)) .notDue <| .next (s.drainEnd node)

end Sys2Proof.Machine
end

