-- ==== Sys2Proof/Machine/Bridges.lean ====
section
/-!
DEFINITION. The bridges: link-level retry (R64), charging errors to wires and groups, width, retraining (R49-R50, R65). And
SUSPECT_MARK.
-/
namespace Sys2Proof.Machine

/-- Flit-lanes of an output port (R45, R48): 16 east-west, 8 north-south; of a local port 8, of an edge die's 16. -/
def laneCount (node port : Nat) : Nat := if port = 4 then (if isEdge node then 16 else 8) else if bridgeGroups node port = 36 then 16 else 8

/-- A bridge direction and one of its flit-lanes exist. -/
def hasLane (node port lane : Nat) : Bool := (neighbour node port).isSome && decide (lane < laneCount node port)

/-- A flit-lane by number. -/
def laneKey (node port lane : Nat) : Nat := bridgeKey node port * 16 + lane

/-- The flit-lane of an output port. -/
def State.lane (s : State) (node port lane : Nat) : FlitLane := Sparse.get {} s.lanes (laneKey node port lane)
def State.setLane (s : State) (node port lane : Nat) (l : FlitLane) : State :=
  { s with lanes := Sparse.set s.lanes (laneKey node port lane) l }

/-- The bridge direction. -/
def State.bridge (s : State) (node port : Nat) : BridgeDir := Sparse.get {} s.bridges (bridgeKey node port)
def State.setBridge (s : State) (node port : Nat) (b : BridgeDir) : State :=
  { s with bridges := Sparse.set s.bridges (bridgeKey node port) b }

/-- PORT STATUS's code of a width (R50). -/
def Width.code : Width → Nat
  | .full => 0 | .half => 1 | .down => 2

/-- A router shows the width of a port in its port status (R50); toward a dead router the port is down (R81). -/
def State.showPort (s : State) (node port : Nat) : State :=
  let code := match neighbour node port with
    | some m => if s.live m then (s.width node port).code else 2
    | none => 2
  s.modRouter node fun r => { r with ports := Sparse.set r.ports port code }

/-- The neighbours of a router show their ports toward it: down once it is dead (R81). -/
def State.showNeighbours (s : State) (n : Nat) : State :=
  (List.range 7).foldl (fun s port => match neighbour n port with
    | some m => s.showPort m (portTo m n)
    | none => s) s

/-- The site of a router's entries about one of its ports. -/
def portSite (node port : Nat) : Site := ⟨node, pageOf .rtr node 0, port, none⟩

/-- The packets on their way to router `m` over a flit-lane: each goes on as `f` has it, or is lost. -/
def State.modOnLane (s : State) (node port lane : Nat) (f : Buffered → Option Buffered) : State :=
  match neighbour node port with
  | none => s
  | some m => s.modRouter m fun r => { r with inputs := r.inputs.map fun e => (e.1, e.2.filterMap fun b => if b.via = some (node, port, lane) then f b else some b) }

/-- FLIT_CRC_ERROR (R64): the flit the receiver expects arrives differing from the copy the sender keeps. It is discarded with
every later flit of the lane, and a nak with the expected number goes back. `sent` is the flit, where no packet's stands there (an idle or
link-control flit); `received` is what arrived. -/
def execFlitCrcError (node port lane sent received : Nat) (s : State) : Out :=
  let l := s.lane node port lane
  need (hasLane node port lane) .noSuch <|
  need (!(s.bridge node port).retraining && s.width node port != .down && l.nak.isNone) .wrongState <|
  let kept := l.retry.any fun e => e.1 == l.expected
  need (kept || decide (l.retry.length < 64)) .wrongState <|
  let l := if kept then l else
    { l with retry := l.retry ++ [(l.expected, sent, s.fabricTime)], next := (l.expected + 1) % 256 }
  .next (s.setLane node port lane { l with bad := some received, nak := some l.expected })

/-- The sender resends from the flit the receiver expects (R64): the first copy arrives 3 fabric cycles after the nak, the others in the cycles that
follow; a packet comes once its last flit has. -/
def State.resendLane (s : State) (node port lane : Nat) : State :=
  let l := s.lane node port lane
  let t := s.fabricTime + 6
  let keep := l.retry.takeWhile fun e => e.1 != l.expected
  let again := l.retry.drop keep.length
  let retry := keep ++ (again.zip (List.range again.length)).map fun x => (x.1.1, x.1.2.1, t + 2 * x.2)
  (s.setLane node port lane { l with nak := none, resends := l.resends + 1, retry := retry }).modOnLane node port lane fun b =>
    some { b with ready := max b.ready (t + 2 * again.length) }

/-- NAK_RESEND (R64-R65): the nak reaches the sender, which resends from the expected flit; a flit resent 4 times without a
good copy makes the direction retrain. -/
def execNakResend (node port lane : Nat) (s : State) : Out :=
  let l := s.lane node port lane
  need (hasLane node port lane) .noSuch <|
  need (l.nak.isSome && !(s.bridge node port).retraining) .wrongState <|
  if 4 ≤ l.resends then
    .next ((s.setLane node port lane { l with nak := none, resends := 0 }).setBridge node port
      { s.bridge node port with retraining := true })
  else .next (s.resendLane node port lane)

/-- What a bridge direction loses when it goes down: the packets whose flits still wait in retry buffers (R65). -/
def State.loseLanes (s : State) (node port : Nat) : State :=
  (List.range (laneCount node port)).foldl (fun s i =>
    if (s.lane node port i).bad.isNone then s
    else (s.setLane node port i { s.lane node port i with retry := [], bad := none, nak := none, resends := 0 }).modOnLane node port i fun _ => none) s

/-- A bridge direction is down: logged UE-unit, its port status shows it, and the routes change around the gap (R50, R65, R81). -/
def State.bridgeDown (s : State) (node port : Nat) : State :=
  let s := (s.setBridge node port { s.bridge node port with retraining := false, failed := true }).showPort node port
  { (((s.loseLanes node port).error (portSite node port) 14 .ueUnit 0 0).alert).showFeed with changes := { s.changes with routes := true } }

/-- A wire group is retired: the width follows (R50), logged CE (R65); below half width the bridge is down. -/
def State.retireGroup (s : State) (node port g : Nat) : State :=
  let b := s.bridge node port
  let s := (s.setBridge node port { b with retired := b.retired ++ [g] }).showPort node port
  let s := s.error (portSite node port) 13 .ce 0 g
  if s.width node port = .down then s.bridgeDown node port else s

/-- The wires in use of a group: 62 of its 64, the spares last (R49). -/
def BridgeDir.inUse (b : BridgeDir) (g : Nat) : List Nat := (allBelow 64 fun w => !b.replaced.contains (g, w)).take 62

/-- The wires in use of a bridge direction, over the groups in service (R49): (group, wire). -/
def BridgeDir.wires (b : BridgeDir) (groups : Nat) : List (Nat × Nat) :=
  (allBelow groups fun g => !b.retired.contains g).flatMap fun g => (b.inUse g).map fun w => (g, w)

/-- Charge one bit error to a wire and its group, and apply the thresholds of R65: 4 errors of a wire within 1 µs replace it by
one of its group's two spares, with a pause of 64 fabric cycles, or retire the group; 16 errors of a group within 1 ms retire it. -/
def State.chargeWire (s : State) (node port : Nat) (g w : Nat) : State :=
  let b := s.bridge node port
  if b.retired.contains g then s else
  let charges := b.charges ++ [(g, w, s.now)]
  let wire := (charges.filter fun c => c.1 == g && c.2.1 == w && decide (s.now < c.2.2 + us)).length
  let group := (charges.filter fun c => c.1 == g && decide (s.now < c.2.2 + ms)).length
  let s := s.setBridge node port { b with charges := charges }
  if 4 ≤ wire then
    if (b.replaced.filter fun r => r.1 == g).length < 2 then
      (s.setBridge node port
        { b with replaced := b.replaced ++ [(g, w)], charges := charges.filter fun c => !(c.1 == g && c.2.1 == w),
                 paused := s.fabricTime + 128 }).error (portSite node port) 13 .ce 0 (g * 64 + w)
    else s.retireGroup node port g
  else if 16 ≤ group then s.retireGroup node port g
  else s

/-- RESENT_FLIT_GOOD (R64-R65): the resent copy arrives good; each bit in which the bad copy differs is charged to its wire. -/
def execResentFlitGood (node port lane : Nat) (s : State) : Out :=
  let l := s.lane node port lane
  need (hasLane node port lane) .noSuch <|
  match l.bad, l.retry.find? (fun e => e.1 == l.expected) with
  | some bad, some (_, good, _) =>
    need (l.nak.isNone && decide (0 < l.resends) && !(s.bridge node port).retraining) .wrongState <|
    let wires := (s.bridge node port).wires (bridgeGroups node port)
    let s := s.setLane node port lane
      { l with expected := (l.expected + 1) % 256, bad := none, resends := 0, retry := l.retry.filter fun e => e.1 != l.expected }
    .next ((setBits 558 (Nat.xor bad good)).foldl (fun s i =>
      match wires[Config.wireOfBit wires.length lane i % max 1 wires.length]? with
      | some (g, w) => s.chargeWire node port g w
      | none => s) s)
  | _, _ => .refused .wrongState

/-- BRIDGE_RETRAIN_DONE (R65): on success traffic resumes with no loss, each lane from the flit its receiver waits for; on failure the bridge is down,
logged UE-unit, and the routes change around the gap (R50, R81). -/
def execBridgeRetrainDone (node port : Nat) (ok : Bool) (s : State) : Out :=
  need ((neighbour node port).isSome) .noSuch <|
  need (s.bridge node port).retraining .wrongState <|
  if ok then
    let s := s.setBridge node port { s.bridge node port with retraining := false }
    .next ((List.range (laneCount node port)).foldl (fun s i => if (s.lane node port i).bad.isSome then s.resendLane node port i else s) s)
  else .next (s.bridgeDown node port)

/-- Set or clear SUSPECT of a destination in every live router's banks (R68, R70, R492). R70 has hub firmware set it in every router, R71 drops writes to
a bank that is not FREE: the model writes both banks whatever their state (DESIGN CHOICE, log entry 113). -/
def State.markSuspect (s : State) (d : Nat) (on : Bool) : State :=
  (allBelow 182 s.live).foldl (fun s n =>
    [Reg.rtrRoute0, Reg.rtrRoute1].foldl (fun s r =>
      s.setWord r n 0 (d / 4) (wordPut (s.word r n 0 (d / 4)) (16 * (d % 4) + 8) 1 (b2n on))) s) s

/-- SUSPECT_MARK (R70, R400, R491): SUSPECT is set in every router, the node's units that run, drain or are quiesced become
suspect, and the two-path probe starts. The destination has been reported to the master hub. -/
def execSuspectMark (node : Nat) (s : State) : Out :=
  need (decide (node < 182)) .noSuch <|
  need (s.suspects.contains node && !s.probes.any (fun p => p.node == node)) .wrongState <|
  let s := s.markSuspect node true
  let s := match s.unit node 0 with
    | .running | .draining | .quiesced => s.moveUnit node 0 .suspect
    | _ => s
  .next { s with probes := s.probes ++ [{ node := node, since := s.now }], suspects := s.suspects.filter (· != node) }

end Sys2Proof.Machine
end

