-- ==== Sys2Proof/Machine/Pens.lean ====
section
/-!
DEFINITION. Pens (R201-R211): the pen unit's decision, grants, expiry, release, revocation, zeroing, the holder tables.
-/
namespace Sys2Proof.Machine

/-- A requester's holder table: a block's under its number, a hub's under 1000 + node; 64 entries and 256 (R202). -/
def holderKey (node unit : Nat) : Nat := if isHub node then 1000 + node else blockKey node (unit % 4)
def holderCap (node : Nat) : Nat := if isHub node then 256 else 64

/-- The holder table of a requester. -/
def State.holderUnit (s : State) (node unit : Nat) : PenUnit := Sparse.get {} s.pens (holderKey node unit)

/-- The logical panel address of an AS offset of a block (R204). -/
def State.penBase (s : State) (node blk off : Nat) : Nat :=
  0x100000000000 + s.fld F.rgnSite_lnum node * 0x10000000 + blk * 0x4000000 + off

/-- BLK_PEN_STAT shows the pen unit's and holder table's contents (R214). HELD counts a revoked entry until it is released (log entry 127). -/
def State.showPens (s : State) (node blk : Nat) : State :=
  let u := s.penUnit node blk
  let s := s.put F.blkPenStat_grantedUnits node blk 0 (u.pens.foldl (fun a p => a + p.units) 0)
  let s := s.put F.blkPenStat_pending node blk 0 u.pending.length
  let s := s.put F.blkPenStat_held node blk 0 (u.holders.filter (·.granted)).length
  s.put F.blkPenStat_draining node blk 0 (b2n u.drainStart.isSome)

/-- Replace a block's pen unit and show it. -/
def State.updPens (s : State) (node blk : Nat) (u : PenUnit) : State := (s.setPenUnit node blk u).showPens node blk

/-- Replace a requester's holder table. -/
def State.updHolders (s : State) (node unit : Nat) (u : PenUnit) : State :=
  let s := { s with pens := Sparse.set s.pens (holderKey node unit) u }
  if isHub node then s else s.showPens node (unit % 4)

/-- Pool unit `i` (in 4 KiB units of the AS) is free. -/
def unitFree (pens : List Pen) (i : Nat) : Bool := !pens.any fun p => decide (p.first ≤ i) && decide (i < p.first + p.units)

/-- The lowest first unit at which `n` free units lie in the pool, which starts at unit `lo` and ends at unit 1,536. -/
def firstFit (pens : List Pen) (lo n : Nat) : Option Nat :=
  (List.range (1536 - lo)).map (· + lo) |>.find? fun i =>
    decide (i + n ≤ 1536) && (List.range n).all fun j => unitFree pens (i + j)

/-- Units a requester holds in a block. -/
def heldBy (pens : List Pen) (p : Packet) : Nat :=
  (pens.filter fun q => q.node == p.src && q.unit == p.srcUnit).foldl (fun a q => a + q.units) 0

/-- The units a PEN_REQ asks for (R202). -/
def penUnits (p : Packet) : Nat := bits p.oparg0 0 9

/-- One pending request comes before another: higher priority, then older INJ_TIME, then lower SRC node (R203). -/
def penBefore (a b : PenWait) : Bool :=
  decide (b.pkt.prio < a.pkt.prio) || (a.pkt.prio == b.pkt.prio && (decide (a.pkt.injTime < b.pkt.injTime) ||
    (a.pkt.injTime == b.pkt.injTime && decide (a.pkt.src ≤ b.pkt.src))))

/-- The head of the pending table, passing over requesters at REQ_CAP while one below it waits (R203). -/
def penHead (cap : Nat) (pens : List Pen) (l : List PenWait) : Option PenWait :=
  let free := l.filter fun w => cap == 0 || decide (heldBy pens w.pkt < cap)
  (if free.isEmpty then l else free).foldl (fun best w => match best with
    | none => some w
    | some b => if penBefore b w then some b else some w) none

/-- Grant a pending request at pool unit `i` (R204, R207): units last held under another tag, or with no recorded holder, are
zeroed first, and then the grant is PEN_LATE. `fresh` is the transaction of the request that has just arrived. -/
def State.grantPen (s : State) (node blk : Nat) (w : PenWait) (i : Nat) (fresh : Option (Nat × Nat)) : State :=
  let u := s.penUnit node blk
  let n := penUnits w.pkt
  let dirty := (List.range n).filter fun j => match Sparse.find? u.lastTag (i + j) with
    | some t => t != 64 && t != w.pkt.jobTag
    | none => true
  let s := { s with mem := dirty.foldl (fun m j => m.zero (blkKeyAt node blk ((i + j) * 4096)) 4096) s.mem }
  let late := !dirty.isEmpty || fresh != some (w.pkt.src, w.pkt.txn)
  let base := s.penBase node blk (i * 4096)
  let pen : Pen := ⟨i, n, w.pkt.src, w.pkt.srcUnit, w.pkt.jobTag, base⟩
  let s := s.updPens node blk { u with pens := u.pens ++ [pen], pending := u.pending.filter (· != w),
                                       lastTag := dirty.foldl (fun m j => Sparse.set m (i + j) 64) u.lastTag }
  let s := if late then s.bump F.blkPenCount_late node blk 0 else s
  let s := s.event ⟨node, pageOf .blk node blk, 0x3F, some w.pkt.jobTag⟩ 2 0x10 base n (if late then 3 else 0)
  s.send { answerPacket s node w.pkt (if late then .penLate else .done) with op := .penGrant, oparg0 := base, oparg1 := n }

/-- The pen unit decides until the head does not fit (R203). No grants while draining (R208). -/
def State.penDecide (s : State) (node blk : Nat) (fresh : Option (Nat × Nat)) : Nat → State
  | 0 => s
  | fuel + 1 =>
    let u := s.penUnit node blk
    if u.drainStart.isSome then s else
    match penHead (s.fld F.blkPenCfg_reqCap node blk) u.pens u.pending with
    | none => s
    | some w =>
      match firstFit u.pens (s.poolBase node blk / 4096) (penUnits w.pkt) with
      | none => s
      | some i => (s.grantPen node blk w i fresh).penDecide node blk fresh fuel

/-- Decide with room for every pending request. -/
def State.penRound (s : State) (node blk : Nat) (fresh : Option (Nat × Nat) := none) : State :=
  s.penDecide node blk fresh ((s.penUnit node blk).pending.length + 1)

/-- Refuse a pending or arriving request with PEN_FULL. -/
def State.penFull (s : State) (node blk : Nat) (p : Packet) : State :=
  (s.event ⟨node, pageOf .blk node blk, 0x3F, some p.jobTag⟩ 2 0x11 p.addr (penUnits p) 2).answer node p .penFull

/-- What an arriving packet for a block's pen unit meets: the block, or the answer given for it. -/
def State.blockOf (s : State) (p : Packet) : Option (Nat × Nat) :=
  match s.locate p.dest p.epoch p.addr 1 with
  | .ok (_, .scratch node blk off) => if inAS off || p.op == .penReq then some (node, blk) else none
  | _ => none

/-- Hold a packet in its destination's reservoir, which raises a wake (R46, R69); with the reservoir full it waits in its input buffer. -/
def State.hold (s : State) (node : Nat) (p : Packet) : State :=
  (s.raiseWake node).modRouter node fun r =>
    if r.held + p.size ≤ reservoirFlits then { r with reservoir := r.reservoir ++ [p] }
    else { r with inputs := Sparse.upd [] r.inputs (inputKey (s.inPort p) p.cls p.vch) (⟨p, s.fabricTime, none⟩ :: ·) }

/-- PEN_REQ (R203): answered TARGET_RESETTING or the like by the router (R69, R208); PEN_FULL at once when the table is full or the
size exceeds the pool; else tabled, and the pen unit decides. -/
def execPenReq (p : Packet) (s : State) : Out :=
  need (p.op == .penReq && decide (p.dest < 182)) .noSuch <|
  need (!s.ahead p) .notDue <|
  match s.arrive p.dest p with
  | (none, s) => .next s
  | (some p, s) =>
    match s.towardsPeer p with
    | some s => .next s
    | none =>
    match s.blockOf p with
    | none => .next (s.answer p.dest p .accessFault)
    | some (node, blk) =>
      match s.regionAnswer node blk with
      | .status st => .next (s.answer node p st)
      | .holds => .next (s.hold node p)
      | .serves =>
        let u := s.penUnit node blk
        if 128 ≤ u.pending.length ∨ s.fld F.blkPenCfg_poolUnits node blk < penUnits p ∨ penUnits p = 0 then
          .next ((s.bump F.blkPenCount_tableFull node blk 0).penFull node blk p)
        else
          .next ((s.updPens node blk { u with pending := u.pending ++ [⟨p, s.now⟩] }).penRound node blk (some (p.src, p.txn)))

/-- The pen of a list that a holder's packet names by an address inside it. -/
def penFor (l : List Pen) (p : Packet) (off n : Nat) : Option Pen :=
  l.find? fun q => q.node == p.src && q.unit == p.srcUnit && q.tag == p.jobTag && decide (q.first * 4096 ≤ off)
    && decide (off + n ≤ (q.first + q.units) * 4096)

/-- PEN_PUT (R205, R208, R209): written when the whole range lies in one pen of its sender and job tag, also while the region drains;
after a revocation TARGET_RESETTING; otherwise ACCESS_FAULT. A put of F or D may write any AS range (R198). -/
def execPenPut (p : Packet) (s : State) : Out :=
  need (p.op == .penPut && decide (p.dest < 182)) .noSuch <|
  need (!s.ahead p) .notDue <|
  match s.arrive p.dest p with
  | (none, s) => .next s
  | (some p, s) =>
    match s.towardsPeer p with
    | some s => .next s
    | none =>
    match s.locate p.dest p.epoch p.addr (max 1 p.extent) with
    | .ok (_, .scratch node blk off) =>
      let u := s.penUnit node blk
      let r : Requester := ⟨p.src, p.srcUnit, p.jobTag⟩
      match s.regionAnswer node blk, penFor u.pens p off p.extent with
      | .status .targetRetired, _ => .next (s.answer node p .targetRetired)
      | .holds, _ => .next (s.hold node p)
      | _, some _ => .next (((s.asChange r node blk off p.named).writeBlk node blk off p.named p.poison).answer node p (if p.poison then .poisoned else .done))
      | .status st, none =>
        .next (s.answer node p (if (penFor u.revoked p off p.extent).isSome then .targetResetting else st))
      | .serves, none =>
        if (penFor u.revoked p off p.extent).isSome then .next (s.answer node p .targetResetting)
        else if r.firmware && inAS off then
          .next (((s.asChange r node blk off p.named).writeBlk node blk off p.named p.poison).answer node p (if p.poison then .poisoned else .done))
        else .next (s.answer node p .accessFault)
    | .ok (_, _) => .next (s.answer p.dest p .accessFault)
    | .error st => .next (s.answer p.dest p st)

/-- Free a pen's units, which keep its tag as their last holder's (R207). -/
def freePen (u : PenUnit) (q : Pen) : PenUnit :=
  { u with pens := u.pens.filter (· != q),
           lastTag := (List.range q.units).foldl (fun m j => Sparse.set m (q.first + j) q.tag) u.lastTag }

/-- PEN_RELEASE (R206, R211): the pen's units become free and the pen unit decides; a release after the revocation is ignored,
counted and answered DONE; a release of a pen its sender does not hold completes ACCESS_FAULT. -/
def execPenRelease (p : Packet) (s : State) : Out :=
  need (p.op == .penRelease && decide (p.dest < 182)) .noSuch <|
  need (!s.ahead p) .notDue <|
  match s.arrive p.dest p with
  | (none, s) => .next s
  | (some p, s) =>
    match s.towardsPeer p with
    | some s => .next s
    | none =>
    match s.blockOf p with
    | none => .next (s.answer p.dest p .accessFault)
    | some (node, blk) =>
      let u := s.penUnit node blk
      let mine := fun (q : Pen) => q.base == p.addr && q.node == p.src && q.unit == p.srcUnit
      match u.pens.find? mine, s.regionAnswer node blk with
      | _, .holds => .next (s.hold node p)
      | some q, _ => .next (((s.updPens node blk (freePen u q)).answer node p .done).penRound node blk)
      | none, a =>
        if u.revoked.any mine then
          .next (((s.updPens node blk { u with revoked := u.revoked.filter fun q => !mine q }).bump
            F.blkPenCount_revokedReleases node blk 0).answer node p .done)
        else match a with
          | .status st => .next (s.answer node p st)
          | _ => .next (s.answer node p .accessFault)

/-- PEN_UNIT_ZEROED (R207): the free pool units with no recorded holder are zeroed and recorded as zeroed. -/
def execPenUnitZeroed (node blk : Nat) (s : State) : Out :=
  need (isRegion node && decide (blk < 4)) .noSuch <|
  let u := s.penUnit node blk
  let lo := s.poolBase node blk / 4096
  let free := (List.range (1536 - lo)).map (· + lo) |>.filter fun i => unitFree u.pens i && (Sparse.find? u.lastTag i).isNone
  need (!free.isEmpty && s.unit node (pageOf .blk node blk) == .running) .wrongState <|
  .next ({ s with mem := free.foldl (fun m i => m.zero (blkKeyAt node blk (i * 4096)) 4096) s.mem }.updPens node blk
    { u with lastTag := free.foldl (fun m i => Sparse.set m i 64) u.lastTag })

/-- PEN_WAIT_EXPIRY (R204): a request pending for WAIT_NS since its arrival, which the decision of this instant does not grant, is removed
and completes PEN_FULL. The request is named by its source node and transaction. -/
def execPenWaitExpiry (node blk src txn : Nat) (s : State) : Out :=
  need (isRegion node && decide (blk < 4)) .noSuch <|
  match (s.penUnit node blk).pending.find? (fun w => w.pkt.src == src && w.pkt.txn == txn) with
  | none => .refused .noSuch
  | some w =>
    need (decide (w.arrived + max 1 (s.fld F.blkPenCfg_waitNs node blk) * ns ≤ s.now)) .notDue <|
    let s := s.penRound node blk
    let u := s.penUnit node blk
    if u.pending.contains w then
      .next ((((s.updPens node blk { u with pending := u.pending.filter (· != w) }).bump F.blkPenCount_expired node blk 0).penFull
        node blk w.pkt).penRound node blk)
    else .next s

/-- The pen unit enters draining (R208): every pending request completes with the status; grants stop. -/
def State.penDrain (s : State) (node blk : Nat) (st : Status) : State :=
  let u := s.penUnit node blk
  let s := u.pending.foldl (fun s w => s.answer node w.pkt st) s
  s.updPens node blk { u with pending := [], drainStart := some (u.drainStart.getD s.now) }

/-- Revoke every pen still held in a block (R208, R209): the holder is told with the base address. -/
def State.penRevoke (s : State) (node blk : Nat) (st : Status) : State :=
  let u := s.penUnit node blk
  let s := u.pens.foldl (fun s q =>
    let note : Packet := { op := .completion, cls := 1, epoch := s.fld F.rtrEpoch_injEpoch node, dest := q.node, src := node,
                           srcUnit := q.unit, jobTag := q.tag, status := st.code, oparg0 := q.base, injTime := s.timeAt node }
    let s := (s.bump F.blkPenCount_revoked node blk 0).event ⟨node, pageOf .blk node blk, 0x3F, some q.tag⟩ 2 0x12 q.base q.units st.code
    s.send note) s
  let u' := u.pens.foldl freePen u
  s.updPens node blk { u' with revoked := u.revoked ++ u.pens }

/-- PEN_REVOKE (R208): 100 µs after draining began each pen still held is revoked with TARGET_RESETTING. -/
def execPenRevoke (node blk : Nat) (s : State) : Out :=
  need (isRegion node && decide (blk < 4)) .noSuch <|
  let u := s.penUnit node blk
  match u.drainStart with
  | none => .refused .wrongState
  | some t =>
    need (!u.pens.isEmpty) .wrongState <| need (decide (t + 100 * us ≤ s.now)) .notDue <|
    .next (s.penRevoke node blk .targetResetting)

/-- Take a holder-table entry and send the request (R202), or wait for an entry. -/
def State.penAsk (s : State) (node : Nat) (p : Packet) (purpose : Purpose) (handle : Option Nat := none) : State :=
  let u := s.holderUnit node p.srcUnit
  if holderCap node ≤ u.holders.length then
    s.updHolders node p.srcUnit { u with waiting := u.waiting ++ [⟨p, purpose, handle, s.now⟩] }
  else
    let (t, s) := s.freshTxn
    let s := s.updHolders node p.srcUnit { u with holders := u.holders ++ [{ txn := t, unit := p.srcUnit, tag := p.jobTag, dest := 0, units := penUnits p, handle := handle }] }
    s.inject node { p with txn := t } purpose

/-- A holder entry has freed: the oldest waiting request takes it (R202). -/
def State.penNext (s : State) (node unit : Nat) : State :=
  let u := s.holderUnit node unit
  match u.waiting with
  | [] => s
  | w :: rest => if holderCap node ≤ u.holders.length then s else (s.updHolders node unit { u with waiting := rest }).penAsk node w.pkt w.purpose w.handle

/-- Holder entries have freed: waiting requests take them, the oldest first (R202). -/
def State.penNextAll (s : State) (node unit : Nat) : State :=
  (s.holderUnit node unit).waiting.foldl (fun s _ => s.penNext node unit) s

/-- Free the holder entries that satisfy `p`. -/
def State.dropHolder (s : State) (node unit : Nat) (p : Holder → Bool) : State :=
  let u := s.holderUnit node unit
  (s.updHolders node unit { u with holders := u.holders.filter fun h => !p h }).penNextAll node unit

/-- Send PEN_RELEASE for a pen by its base address. -/
def State.sendRelease (s : State) (node unit tag base : Nat) (purpose : Purpose) : State :=
  s.request node { op := .penRelease, cls := 2, srcUnit := unit, jobTag := tag, addr := base } purpose

/-- A grant that answers no request its requester still has is dropped as an orphan reply, and its pen is released at once (R69, R202, R210). -/
def State.orphanGrant (s : State) (node unit tag base : Nat) : State :=
  (s.modRouter node fun r => { r with orphans := r.orphans + 1 }).sendRelease node unit tag base .penOrphan

/-- The router of a region that resets releases the pens its blocks still hold; releases for revoked entries are not sent
(R210). -/
def State.releaseHolders (s : State) (node blk : Nat) : State :=
  let u := s.penUnit node blk
  let s := s.updPens node blk { u with holders := [], waiting := [] }
  u.holders.foldl (fun s h => if h.granted && !h.revoked then s.sendRelease node h.unit h.tag h.base .penOrphan else s) s

/-- POOL_UNITS may take the value (R201, R213): no pen granted or pending, no declared heft in the new pool, at most 384. -/
def State.poolOk (s : State) (node blk v : Nat) : Bool :=
  let u := s.penUnit node blk
  decide (v ≤ 384) && u.pens.isEmpty && u.pending.isEmpty && (s.heftsAt node blk (0x600000 - v * 4096) (v * 4096)).isEmpty

/-- After an accepted change of POOL_UNITS the units outside the old pool have no recorded holder (R207). -/
def State.poolChanged (s : State) (node blk old : Nat) : State :=
  let u := s.penUnit node blk
  s.updPens node blk { u with lastTag := u.lastTag.filter fun e => decide (1536 - old ≤ e.1) }

/-- A pen unit runs again (R208, R400): it may grant. -/
def State.penResume (s : State) (node blk : Nat) : State := s.updPens node blk { s.penUnit node blk with drainStart := none }

/-- A pen unit after a reset of its block (R207, R210): nothing granted, no recorded holder. -/
def State.penReset (s : State) (node blk : Nat) : State := s.updPens node blk {}

end Sys2Proof.Machine
end

