-- ==== Sys2Proof/Machine/Hurdles.lean ====
section
/-!
DEFINITION. Hurdles (R231-R234): identities, instances, homes, counting an arrival at its home, releasing a generation, and who
is told.
-/
namespace Sys2Proof.Machine

/-- The scope of a hurdle identity (R231). -/
def hurdleScope (id : Nat) : Nat := id / 0x2000 % 8

/-- A well-formed identity (R232); `zero` says whether 0x0000, no hurdle, is allowed. -/
def hurdleOk (zero : Bool) (id : Nat) : Bool :=
  decide (id < 65536) && bits id 6 7 == 0 &&
    match hurdleScope id with
    | 0 => zero && id == 0
    | 1 | 5 | 6 => true
    | 2 | 3 | 4 => decide (id % 64 < 32)
    | _ => false

/-- The logical region of a node, as RGN_SITE shows it. -/
def State.lnum (s : State) (node : Nat) : Nat := s.fld F.rgnSite_lnum node

/-- The instance (number and block) of a hurdle for a unit, where the unit lies in its extent (R231). An edge die lies in the
extents of its row's, the panel's and the job's hurdles, a hub in the last two. -/
def State.instanceAt (s : State) (node blk id : Nat) : Option (Nat × Nat) :=
  let l := s.lnum node
  match hurdleScope id with
  | 1 => if isRegion node then some (l, blk) else none
  | 2 => if isRegion node then some (l, 0) else none
  | 3 => if isRegion node then some (l / s.lcols, 0) else if isEdge node then some ((node - 156) % 12, 0) else none
  | 4 => if isRegion node then some (l % s.lcols, 0) else none
  | 5 | 6 => some (0, 0)
  | _ => none

/-- The node of a logical region under a router's injection epoch. -/
def State.nodeOf (s : State) (l : Nat) : Nat := s.mapEntry s.master (s.fld F.rtrEpoch_injEpoch s.master) l

/-- The node whose router (or control core, or hub) holds an instance's counters (R231). -/
def State.hurdleHome (s : State) (id inst : Nat) : Nat :=
  match hurdleScope id with
  | 1 | 2 => s.nodeOf inst
  | 3 => s.nodeOf (inst * s.lcols)
  | 4 => s.nodeOf inst
  | _ => s.master

/-- The live job of a tag. -/
def State.job? (s : State) (tag : Nat) : Option Job := Sparse.find? s.jobs tag

/-- Hold a job. -/
def State.setJob (s : State) (tag : Nat) (j : Job) : State := { s with jobs := Sparse.set s.jobs tag j }

/-- The hurdle of a job's table for an identity and instance. -/
def Job.hurdle? (j : Job) (id : Nat) (at' : Nat × Nat) : Option Hurdle :=
  j.hurdles.find? fun h => h.id == id && h.inst == at'.1 && h.blk == at'.2

/-- Replace an instance. -/
def Job.setHurdle (j : Job) (h : Hurdle) : Job :=
  { j with hurdles := j.hurdles.map fun g => if g.id == h.id && g.inst == h.inst && g.blk == h.blk then h else g }

/-- The hurdle a unit names, of a job. -/
def State.hurdleFor (s : State) (node blk tag id : Nat) : Option Hurdle :=
  match s.job? tag, s.instanceAt node blk id with
  | some j, some at' => j.hurdle? id at'
  | _, _ => none

/-- The unit may name the hurdle: it lies in its extent and the job's table has its instance (R227, R231). -/
def State.hurdleKnown (s : State) (node blk tag id : Nat) : Bool := (s.hurdleFor node blk tag id).isSome

/-- The edge die at the other end of the row. -/
def farEnd (node : Nat) : Nat := if node < 168 then node + 12 else node - 12

/-- The die that walks an edge die's queues and runs its drove engine: the other end of the row once the die is lost (R271). -/
def State.servedBy (s : State) (node : Nat) : Nat :=
  if isEdge node && s.fld F.drvStat_feed (farEnd node) == 2 then farEnd node else node

/-- What a wait on generation `gen` finds at a unit: the status it is satisfied with, or nothing yet (R231, R233, R239). -/
def State.released (s : State) (node blk tag id gen : Nat) : Option Status :=
  match s.hurdleFor node blk tag id with
  | none => some .accessFault
  | some h => match h.aborted with
    | some st => some st
    | none => if gen ≤ Sparse.get 0 h.told (s.servedBy node) then h.results[gen - 1]? else none

/-- What becomes of an arrival at a generation (R233). -/
inductive Arrival where
  /-- counted, or on its way -/
  | admitted
  /-- for a generation already released, or beyond its count -/
  | refused
  /-- for a generation after the next: it waits at the arriving unit -/
  | later
  deriving DecidableEq, Repr

/-- Judge an arrival at generation `gen` (R233). -/
def Hurdle.judge (h : Hurdle) (gen : Nat) : Arrival :=
  if h.aborted.isSome then .admitted
  else if gen ≤ h.gen then .refused
  else if h.gen + 2 < gen then .later
  else
    let have' := (if gen = h.gen + 1 then h.count1 else h.count2) + Sparse.get 0 h.coming gen
    if have' < h.need then .admitted else .refused

/-- The nodes a release of an instance goes to: those of the extent that run a list of the job or hold its launches (R231). -/
def State.extentNodes (s : State) (j : Job) (id inst : Nat) : List Nat :=
  let ns := (j.lists.map fun l => s.servedBy l.q.node).eraseDups
  ns.filter fun n => match hurdleScope id with
    | 1 | 2 => isRegion n && s.lnum n == inst
    | 3 => (isRegion n && s.lnum n / s.lcols == inst) || (isEdge n && (n - 156) % 12 == inst)
    | 4 => isRegion n && s.lnum n % s.lcols == inst
    | _ => true

/-- A HURDLE_RELEASE packet (R231): OPARG0 the identity [15:0], instance [23:16], block [25:24]; OPARG1 the generation [31:0] and the
status [35:32] (log entry 9). -/
def State.releasePacket (s : State) (src dest tag : Nat) (h : Hurdle) (gen : Nat) (st : Status) : Packet :=
  { op := .hurdleRelease, cls := 0, epoch := s.fld F.rtrEpoch_injEpoch src, dest := dest, src := src, jobTag := tag,
    oparg0 := h.id + h.inst * 65536 + h.blk * 2 ^ 24, oparg1 := gen + st.code * 2 ^ 32, injTime := s.timeAt src }

/-- Tell the extent of a released generation: the home's own node at once, the others by packets (R231). -/
def State.tellRelease (s : State) (tag : Nat) (h : Hurdle) (st : Status) : State :=
  match s.job? tag with
  | none => s
  | some j =>
    let home := s.hurdleHome h.id h.inst
    let h := { h with told := Sparse.set h.told home h.gen }
    let s := s.setJob tag (j.setHurdle h)
    (s.extentNodes j h.id h.inst).foldl (fun s n => if n = home then s else s.send (s.releasePacket home n tag h h.gen st)) s

/-- An instance's next generation is released with a status (R231, R233): its successor's counts become the oldest, and the extent is
told. -/
def State.releaseNext (s : State) (tag id : Nat) (at' : Nat × Nat) (st : Status) : State :=
  match s.job? tag with
  | none => s
  | some j => match j.hurdle? id at' with
    | none => s
    | some h =>
      let h' : Hurdle := { h with gen := h.gen + 1, results := h.results ++ [st], count1 := h.count2, cancel1 := h.cancel2,
                                  count2 := 0, cancel2 := false }
      (s.setJob tag (j.setHurdle h')).tellRelease tag h' st

/-- A member's arrival at a job hurdle reaches the bellwether (R355). -/
def State.markMember (s : State) (tag id gen panel : Nat) (cancel : Bool) : State :=
  match s.job? tag with
  | none => s
  | some j => match j.hurdle? id (0, 0) with
    | none => s
    | some h =>
      let h := { h with marks := Sparse.set h.marks gen (panel :: (Sparse.get [] h.marks gen).filter (· != panel)),
                        cancelled := if cancel then gen :: h.cancelled else h.cancelled }
      let heard := fun (m : Member) => if m.panel == panel then { m with heard := s.now } else m
      s.setJob tag { j.setHurdle h with members := j.members.map heard }

/-- What the home of an instance does with the counts it holds: release a complete generation; for a job hurdle, report it to the
bellwether, which releases it once every member has joined and arrived (R231, R233, R354-R355). -/
def State.releaseRound (s : State) (tag id : Nat) (at' : Nat × Nat) : Nat → State
  | 0 => s
  | fuel + 1 =>
    match s.job? tag with
    | none => s
    | some j => match j.hurdle? id at' with
      | none => s
      | some h =>
        let own := s.panelId
        if hurdleScope id = 6 then
          if h.need ≤ h.count1 ∧ h.reported < h.gen + 1 then
            let s := s.setJob tag (j.setHurdle { h with reported := h.gen + 1 })
            let s := if j.bell = own then s.markMember tag id (h.gen + 1) own h.cancel1
              else s.tellPanel j.bell (.hurdle j.bell own tag (.arrive id (h.gen + 1) h.cancel1))
            s.releaseRound tag id at' fuel
          else if j.bell = own ∧ j.members.all (fun m => m.joined && (Sparse.get [] h.marks (h.gen + 1)).contains m.panel) then
            let st : Status := if h.cancelled.contains (h.gen + 1) then .cancelled else .done
            let s := j.members.foldl (fun s m => if m.panel = own then s else
              s.tellPanel m.panel (.hurdle m.panel own tag (.release id (h.gen + 1) st))) s
            (s.releaseNext tag id at' st).releaseRound tag id at' fuel
          else s
        else if h.count1 < h.need then s
        else (s.releaseNext tag id at' (if h.cancel1 then .cancelled else .done)).releaseRound tag id at' fuel

/-- Count an arrival at its home (R231, R233). -/
def State.countArrival (s : State) (tag id : Nat) (at' : Nat × Nat) (gen : Nat) (cancel : Bool) : State :=
  match s.job? tag with
  | none => s
  | some j => match j.hurdle? id at' with
    | none => s
    | some h =>
      if h.aborted.isSome then s else
      let h' := if gen = h.gen + 1 then { h with count1 := h.count1 + 1, cancel1 := h.cancel1 || cancel }
        else { h with count2 := h.count2 + 1, cancel2 := h.cancel2 || cancel }
      (s.setJob tag (j.setHurdle h')).releaseRound tag id at' 6

/-- A HURDLE_ARRIVE packet (log entry 9): OPARG0 as in a release; OPARG1 the generation [31:0] and bit 32 for CANCELLED. -/
def State.arrivePacket (s : State) (src dest tag id : Nat) (at' : Nat × Nat) (gen : Nat) (cancel : Bool) : Packet :=
  { op := .hurdleArrive, cls := 0, epoch := s.fld F.rtrEpoch_injEpoch src, dest := dest, src := src, jobTag := tag,
    oparg0 := id + at'.1 * 65536 + at'.2 * 2 ^ 24, oparg1 := gen + b2n cancel * 2 ^ 32, injTime := s.timeAt src }

/-- A unit makes an admitted arrival: counted at once where it stands at the home, else sent on C0 (R231). -/
def State.arriveHurdle (s : State) (node blk tag id gen : Nat) (cancel : Bool) : State :=
  match s.job? tag, s.instanceAt node blk id with
  | some j, some at' =>
    let home := s.hurdleHome id at'.1
    let node := s.servedBy node
    if home = node then s.countArrival tag id at' gen cancel
    else
      let s := match j.hurdle? id at' with
        | some h => s.setJob tag (j.setHurdle { h with coming := Sparse.upd 0 h.coming gen (· + 1) })
        | none => s
      s.launch node (s.arrivePacket node home tag id at' gen cancel)
  | _, _ => s

/-- Whether a unit's arrival at a generation is admitted; a hurdle it may not name refuses it (R231). -/
def State.judgeArrival (s : State) (node blk tag id gen : Nat) : Arrival :=
  match s.hurdleFor node blk tag id with
  | none => .refused
  | some h => h.judge gen

end Sys2Proof.Machine
end

