-- ==== Sys2Proof/Machine/Blocks.lean ====
section
/-!
DEFINITION. Blocks and queues as held in the state, the end of a command's work, pens of a block's engines, and the end of a
vector or scalar launch (R149, R166, R173-R174, R233).
-/
namespace Sys2Proof.Machine

/-- The unit page of a queue's owner: the block's, or the drove engine's on an edge die. -/
def QueueRef.page (q : QueueRef) : Nat := if isEdge q.node then pageOf .drv q.node 0 else pageOf .blk q.node q.blk

/-- The site of a queue's unit. -/
def QueueRef.site (q : QueueRef) (tag : Option Nat) : Site := ⟨q.node, q.page, 0x3F, tag⟩

/-- The queue exists: 20 per block, 4 per edge die (R217). -/
def QueueRef.ok (q : QueueRef) : Bool :=
  decide (q.queue < 4) && ((isRegion q.node && decide (q.blk < 4) && decide (q.eng < 5)) || (isEdge q.node && q.blk == 0 && q.eng == 5))

/-- The queues of a block, or of an edge die, lowest number first. -/
def unitQueues (node blk : Nat) : List QueueRef :=
  if isEdge node then (List.range 4).map fun i => ⟨node, 0, 5, i⟩
  else (List.range 20).map fun i => ⟨node, blk, i / 4, i % 4⟩

/-- A queue. -/
def State.queue (s : State) (q : QueueRef) : Queue := Sparse.get {} s.queues q.key

/-- Replace a queue. -/
def State.setQueue (s : State) (q : QueueRef) (x : Queue) : State := { s with queues := Sparse.set s.queues q.key x }

/-- Change a queue. -/
def State.modQueue (s : State) (q : QueueRef) (f : Queue → Queue) : State := s.setQueue q (f (s.queue q))

/-- Change the command in flight of a queue. -/
def State.modCur (s : State) (q : QueueRef) (f : InFlight → InFlight) : State :=
  s.modQueue q fun x => { x with cur := x.cur.map f }

/-- The tag of a queue's running list. -/
def State.queueTag (s : State) (q : QueueRef) : Nat := (s.queue q).tag.getD 0

/-- A hurdle event of the unit that runs a queue (R538): 0x08 an arrival, 0x09 a wait begun, with the descriptor of the queue's command in flight. -/
def State.hurdleEvent (s : State) (q : QueueRef) (code tag id gen : Nat) : State :=
  s.event (q.site (some tag)) 1 code (((s.queue q).cur.map InFlight.addr).getD 0) (id + gen * 2 ^ 16) 0 q.eng q.queue

/-- The requester a queue's engine is (log entry 8). -/
def State.engine (s : State) (q : QueueRef) : Requester := ⟨q.node, q.blk, s.queueTag q⟩

/-- The control core (or edge-die walker) as a requester (R410). -/
def State.walker (s : State) (q : QueueRef) : Requester :=
  if isEdge q.node then ⟨s.servedBy q.node, 0, s.queueTag q⟩ else ⟨q.node, 0x40 + q.blk, s.queueTag q⟩

/-- A condition of a command that its record does not report counts in its unit's ERR_STAT (R7, R401). One equal to the reported one is no other
condition (log entry 114). -/
def State.unreported (s : State) (q : QueueRef) (reported st : Status) : State :=
  if reported = .done ∨ st = .done ∨ reported = st then s else s.bump F.errStat_suppressed q.node q.page 0

/-- A condition of the command in flight is detected: the first one stands, another is counted (R7). -/
def State.condition (s : State) (q : QueueRef) (st : Status) : State :=
  match (s.queue q).cur with
  | some c => match c.status with
    | some x => s.unreported q x st
    | none => (s.unreported q c.found st).modCur q fun c => { c with found := c.found.first st }
  | none => s

/-- The command in flight ends its work with this status, whatever it has met before: a cancel or an abort (R234, R239, R261). -/
def State.endAs (s : State) (q : QueueRef) (st : Status) : State :=
  match (s.queue q).cur with
  | some c => if c.status.isSome then s else (s.unreported q st c.found).modCur q fun c => { c with status := some st, wait := .none }
  | none => s

/-- The command in flight of a queue ends its work with a status, or with a condition detected before it (R7); its completion is due. -/
def State.endCmd (s : State) (q : QueueRef) (st : Status) : State :=
  if st = .cancelled then s.endAs q st
  else (s.condition q st).modCur q fun c => if c.status.isSome then c else { c with status := some c.found, wait := .none }

/-- The list stops whatever status its command has (R238, R557). -/
def State.stopList (s : State) (q : QueueRef) : State := s.modCur q fun c => { c with stops := true }

/-- The command ends because a control read failed or it is malformed: its list stops (R238, R557). -/
def State.stopCmd (s : State) (q : QueueRef) (st : Status) : State := (s.endCmd q st).stopList q

/-- The holder entry of a pen handle of a block (R225). -/
def State.handle? (s : State) (node blk h : Nat) : Option Holder :=
  (s.holderUnit node blk).holders.find? fun e => e.handle == some h

/-- The handle is held: granted and not revoked. -/
def State.handleHeld (s : State) (node blk h : Nat) : Bool :=
  match s.handle? node blk h with
  | some e => e.granted && !e.revoked
  | none => false

/-- The address range [a, a+n) lies in a pen that was granted to the block, and revoked since or not (R208). -/
def State.inGrantedPen (s : State) (node blk a n : Nat) (revoked : Bool) : Bool :=
  (s.holderUnit node blk).holders.any fun e => e.granted && e.revoked == revoked && e.unit % 64 == blk && decide (e.base ≤ a)
    && decide (a + n ≤ e.base + e.units * 4096)

/-- The address range [a, a+n) lies in a pen the block holds (R154, R177, R267). -/
def State.inHeldPen (s : State) (node blk a n : Nat) : Bool := s.inGrantedPen node blk a n false

/-- The address range [a, a+n) lies in a pen of the block that was revoked (R208). -/
def State.inRevokedPen (s : State) (node blk a n : Nat) : Bool := s.inGrantedPen node blk a n true

/-- The matrix cell out of service and its state (R140). -/
def State.outCell (s : State) (node blk : Nat) : Nat := s.fld F.mxcRoundsStat_outCell node blk
def State.outState (s : State) (node blk : Nat) : Nat := s.fld F.mxcRoundsStat_outState node blk

/-- MXC_ROUNDS_STAT shows what the cell out of service does (R118, R138, R140): 3 RECOMPUTE while a recompute is with it, 2 ROUNDS_STANDBY once its test
is passed or with the rounds off, 1 ROUNDS_TEST, 0 where no cell is out. -/
def State.showOut (s : State) (node blk : Nat) : State :=
  let out := s.outCell node blk
  let b := s.block node blk
  let st := if 33 ≤ out then 0 else if b.recomputes.any (·.helper == out) then 3
    else if b.passed || !s.flag F.mxcRoundsCtrl_enable node blk then 2 else 1
  (s.put F.mxcRoundsStat_outState node blk 0 st).modBlock node blk fun b => { b with paused := st == 3 && !b.passed }

/-- The cell out of service is `c`, or none (0x3F). -/
def State.setOut (s : State) (node blk c : Nat) : State := (s.put F.mxcRoundsStat_outCell node blk 0 c).showOut node blk

/-- The places a group takes: one cell's, or both of a pair's (R168). -/
def Group.spots (g : Group) : List Spot := g.spot :: g.twin.toList

/-- VXC_STAT shows the cells that hold threads, the scalar cell, and the free granules over cells not retired (R173). -/
def State.showVec (s : State) (node blk : Nat) : State :=
  let b := s.block node blk
  let retired := s.fld F.vxcStat_retired node blk
  let cells := b.groups.flatMap fun g => g.spots.map fun p => (p.cell, g.granules)
  let s := s.put F.vxcStat_busy node blk 0 (ofBits (cells.map (·.1)))
  let s := s.put F.vxcStat_sxBusy node blk 0 (b2n b.sx.isSome)
  s.put F.vxcStat_freeGranules node blk 0 ((List.range 14).foldl (fun a c => if bit retired c then a else
    a + (256 - (cells.filter (·.1 == c)).foldl (fun x e => x + e.2) 0)) 0)

/-- The largest count of two maps by identity (R233). -/
def maxCounts (a b : Sparse Nat) : Sparse Nat := b.foldl (fun m e => Sparse.upd 0 m e.1 (max e.2)) a

/-- Free a launch's groups, threads, image and masks (R166). -/
def Block.dropLaunch (b : Block) (id : Nat) : Block :=
  { b with launches := b.launches.filter (·.id != id), groups := b.groups.filter (·.launch != id),
           threads := b.threads.filter fun e => e.2.launch != id,
           sx := match b.sx with | some x => if x.launch = id then none else some x | none => none }

/-- The largest numbers of arrivals and waits of one thread of a launch, those of ended threads among them (R233). -/
def Block.launchCounts (b : Block) (l : Launch) : Sparse Nat × Sparse Nat :=
  let ths := (b.threads.map (·.2)).filter fun t => t.launch == l.id
  let c := ths.foldl (fun (c : Sparse Nat × Sparse Nat) t => (maxCounts c.1 t.arrivals, maxCounts c.2 t.waits)) (l.arrivals, l.waits)
  match b.sx with
  | some x => if x.launch = l.id then (maxCounts c.1 x.arrivals, maxCounts c.2 x.waits) else c
  | none => c

/-- A launch ends: its resources are freed, its queue's counts advance by the largest numbers of arrivals and waits of one thread
(R233), its command ends with a status and detail. -/
def State.endLaunch (s : State) (node blk : Nat) (l : Launch) (st : Status) (cause : Nat) : State :=
  let (ar, wt) := (s.block node blk).launchCounts l
  let s := (s.modBlock node blk fun b => b.dropLaunch l.id).showVec node blk
  let s := s.modQueue l.q fun x => { x with arrivals := ar.foldl (fun m e => Sparse.upd 0 m e.1 (· + e.2)) x.arrivals,
                                            waits := wt.foldl (fun m e => Sparse.upd 0 m e.1 (· + e.2)) x.waits }
  (s.modCur l.q fun c => { c with detail := cause }).endCmd l.q st

/-- Record the first fault since VXC_FAULT was last cleared (R174). -/
def State.vecFault (s : State) (node blk cell thread cause : Nat) (st : Status) (tag pc : Nat) : State :=
  if s.flag F.vxcFault_valid node blk then s else
  s.setWord .vxcFault node blk 0 (BitVec.ofNat 64 (packFields
    [(0, 1, 1), (1, 4, cell), (5, 8, thread), (13, 4, cause), (17, 4, st.code), (21, 6, tag), (27, 16, pc)]))

/-- The launch of a number. -/
def Block.launch? (b : Block) (id : Nat) : Option Launch := b.launches.find? (·.id == id)

/-- Replace a launch. -/
def Block.setLaunch (b : Block) (l : Launch) : Block :=
  { b with launches := b.launches.map fun x => if x.id == l.id then l else x }

/-- A stopped launch ends once its threads' remote writes have completed (R166 steps 2-4). -/
def State.settleLaunch (s : State) (node blk id : Nat) : State :=
  let b := s.block node blk
  match b.launch? id with
  | some l => match l.fault with
    | some (st, cause) =>
      let open' := b.threads.any (fun e => e.2.launch == id && e.2.writes != 0) || (match b.sx with
        | some x => x.launch == id && x.writes != 0 | none => false)
      if open' then s else s.endLaunch node blk l st cause
    | none => s
  | none => s

/-- A launch stops with a status (R166): its threads issue no more; the first stop decides. -/
def State.stopLaunch (s : State) (node blk : Nat) (l : Launch) (st : Status) (cause : Nat := 0) : State :=
  if l.fault.isSome then s
  else ((s.modBlock node blk fun b => b.setLaunch { l with fault := some (st, cause) }).condition l.q
    (if st = .cancelled then .done else st)).settleLaunch node blk l.id

/-- A launch stops with a thread's fault (R166): VXC_FAULT and an event record it. -/
def State.faultLaunch (s : State) (node blk cell thread : Nat) (l : Launch) (cause : Nat) (st : Status) (pc group : Nat) : State :=
  if l.fault.isSome then s else
  let s := s.vecFault node blk cell thread cause st l.tag pc
  let s := s.event ⟨node, pageOf .vxc node blk, 0x3F, some l.tag⟩ 4 0x21 l.imageAddr (group % 2 ^ 20 + cause * 2 ^ 20) st.code
  s.stopLaunch node blk l st cause

end Sys2Proof.Machine
end

