-- ==== Sys2Proof/Machine/Fetch.lean ====
section
/-!
DEFINITION. The walk of a command list: its lines in the fetch buffer (R180, R237, R557), the head and what its wait finds (R219, R222, R233), the head
taken, and the report of what comes next to the thermal forecaster (R236).
-/
namespace Sys2Proof.Machine

/-- The number q of a queue in R237. -/
def QueueRef.number (q : QueueRef) : Nat := 4 * q.eng + q.queue

/-- The place of a line in the control core's data memory (R180, R237): 512 bytes, two to a queue (log entry 115). -/
def QueueRef.linePlace (q : QueueRef) (slot : Nat) : Nat := 0x3910000 + q.number * 1024 + slot * 512

/-- A line that has been fetched takes the place of the older of the queue's two (R180). -/
def State.keepLine (s : State) (q : QueueRef) (a : Nat) (bs : List Byte) : State :=
  let old := (s.queue q).lines.drop ((s.queue q).lines.length - 1)
  let slot := match old with | l :: _ => 1 - l.slot | [] => 0
  let s := s.modQueue q fun x => { x with lines := old ++ [⟨a, slot, bs⟩] }
  if isEdge q.node then s else s.writeBlk q.node q.blk (q.linePlace slot) (allOn bs)

/-- The line that holds address `a`: one the queue holds, else read whole (R180, R557). -/
def State.fetchLine (s : State) (q : QueueRef) (a : Nat) : Status × List Byte × State :=
  match (s.queue q).lines.find? fun l => l.addr == a / 512 * 512 with
  | some l => (.done, l.bytes, s)
  | none =>
    let (st, bs, s) := s.get (s.walker q) (a / 512 * 512) 512
    (st, bs, if st = .done then s.keepLine q (a / 512 * 512) bs else s)

/-- The descriptor of a line. -/
def lineDesc (bs : List Byte) (a : Nat) : Nat := leNat ((bs.drop (a % 512)).take 64)

/-- The descriptor at `a`, fetched with its line. -/
def State.fetchDesc (s : State) (q : QueueRef) (a : Nat) : Status × Nat × State :=
  let (st, bs, s) := s.fetchLine q a
  (st, lineDesc bs a, s)

/-- The descriptor at the head of a queue, as the walk would read it. -/
def State.headDesc (s : State) (q : QueueRef) : Option Nat :=
  match (s.queue q).walk with
  | some a => match s.fetchDesc q a with
    | (.done, d, _) => some d
    | _ => none
  | none => none

/-- What the head's wait finds: the generation after the queue's wait count (R222, R233). -/
def State.headWait (s : State) (q : QueueRef) (d : Nat) : Option Status :=
  if dWait d = 0 || (s.queue q).waited then some .done
  else s.released q.node q.blk (s.queueTag q) (dWait d) (Sparse.get 0 (s.queue q).waits (dWait d) + 1)

/-- The command is taken from the head: in flight, with the walk's next address (R220, R228). -/
def State.takeCur (s : State) (q : QueueRef) (a d : Nat) : State :=
  let latch := dTally d && isRegion q.node
  s.modQueue q fun x => { x with cur := some { addr := a, desc := d, start := s.now, after := if dLast d then none else some (a + 64),
                                               accum := if latch then s.accumNow q.node else 0, held := if latch then s.heldNow q.node else [] },
                                 passBreak := false, begun := none }

/-- PHASE and LOAD_HINT of the commands from address `a` on, up to `n` of them or the one with LAST, from the lines `(address, bytes)`. -/
def aheadHints (lines : List (Nat × List Byte)) (a : Nat) : Nat → List (Nat × Nat)
  | 0 => []
  | n + 1 => match lines.find? fun l => l.1 == a / 512 * 512 with
    | none => []
    | some l =>
      let d := lineDesc l.2 a
      (dPhase d, dLoad d) :: if dLast d then [] else aheadHints lines (a + 64) n

/-- The control core reports PHASE and LOAD_HINT of the queue's next 8 commands to the hub's thermal forecaster (R236; log entry 116). -/
def State.reportAhead (s : State) (q : QueueRef) : State :=
  match (s.queue q).walk with
  | none => { s with forecasts := Sparse.del s.forecasts q.key }
  | some a =>
    let lines := [a, a + 448].map fun x => (x / 512 * 512, (s.fetchLine q x).2.1)
    { s with forecasts := Sparse.set s.forecasts q.key (aheadHints lines a 8) }

end Sys2Proof.Machine
end

