-- ==== Sys2Proof/Machine/Jobs.lean ====
section
/-!
DEFINITION. Jobs: starting a list in a queue (R218, R233, R235), waking waiters of a hurdle (R231, R234), aborting a job on every
unit (R239), and its end (R200, R123, R298, R382).
-/
namespace Sys2Proof.Machine

/-- CTL_HURDLE makes its arrival (R226, R233): the queue's counts follow; with WAIT it waits for the generation joined, which becomes the queue's wait
count, else it ends. -/
def State.joinHurdle (s : State) (q : QueueRef) (id gen : Nat) (wait : Bool) : State :=
  let s := s.modQueue q fun x => { x with arrivals := Sparse.set x.arrivals id gen, waits := if wait then Sparse.set x.waits id gen else x.waits }
  let s := s.hurdleEvent q 0x08 (s.queueTag q) id gen
  let s := if wait then (s.hurdleEvent q 0x09 (s.queueTag q) id gen).modCur q fun c => { c with wait := .hurdle id gen } else s.endCmd q .done
  s.arriveHurdle q.node q.blk (s.queueTag q) id gen false

/-- A command that waits for a hurdle and finds its generation released ends with the release's status, or goes on (R231, R234); an arrival that waited
for its generation to be the next is made, or refused (R233). -/
def State.wakeQueue (s : State) (q : QueueRef) : State :=
  match (s.queue q).cur with
  | some c => match c.wait with
    | .hurdle id gen => match s.released q.node q.blk (s.queueTag q) id gen with
      | some st => s.endCmd q st
      | none => s
    | .arrival id gen wait => match s.judgeArrival q.node q.blk (s.queueTag q) id gen with
      | .admitted => s.joinHurdle q id gen wait
      | .refused => s.endCmd q .accessFault
      | .later => s
    | _ => s
  | none => s

/-- The cell a thread of a block runs on, and its entry. -/
def threadCell (key : Nat) : Nat := key / 256 % 14
def threadEntry (key : Nat) : Nat := key % 256

/-- A thread that waits for a hurdle goes on, or its launch stops with the release's status (R160, R234). -/
def State.wakeThread (s : State) (node blk key : Nat) : State :=
  match Sparse.find? (s.block node blk).threads key with
  | some t => match t.park, (s.block node blk).launch? t.launch with
    | .hurdle id gen, some l => match s.released node blk l.tag id gen with
      | some .done => s.modBlock node blk fun b => { b with threads := Sparse.set b.threads key { t with park := .ready } }
      | some st => s.stopLaunch node blk l st
      | none => s
    | _, _ => s
  | none => s

/-- The scalar cell's wait (R178). -/
def State.wakeScalar (s : State) (node blk : Nat) : State :=
  match (s.block node blk).sx with
  | some x => match x.park, (s.block node blk).launch? x.launch with
    | .hurdle id gen, some l => match s.released node blk l.tag id gen with
      | some .done => s.modBlock node blk fun b => { b with sx := some { x with park := .ready } }
      | some st => s.stopLaunch node blk l st
      | none => s
    | _, _ => s
  | none => s

/-- The drove engine of an edge die. -/
def State.drove (s : State) (node : Nat) : Drove := Sparse.get {} s.droves node

/-- Replace it. -/
def State.setDrove (s : State) (node : Nat) (d : Drove) : State := { s with droves := Sparse.set s.droves node d }

/-- DVE_EXPERTS makes its arrivals at the commit hurdle, each once its decision's acknowledgements are in, in order; with the last it ends,
and its table is free (R260, R298-R299). An arrival for a generation after the next waits (R233). -/
def State.flushExperts (s : State) (node : Nat) : Nat → State
  | 0 => s
  | fuel + 1 =>
    let d := s.drove node
    match d.experts with
    | none => s
    | some e =>
      let sig := match (s.queue e.q).cur with | some c => dSignal c.desc | none => 0
      match e.arrivals with
      | [] =>
        if e.decided then
          let tables := d.tables.filter fun t => !(t.tag == e.tag && t.fold == e.fold)
          ((s.setDrove node { d with experts := none, tables := tables }).put F.drvTally_tablesUsed node 0 0 tables.length).endCmd e.q .done
        else s
      | (q, cancel) :: rest =>
        if d.deciding.any fun x => x.q.isNone && x.tag == e.tag && x.seq == q && x.cancel == cancel then s else
        let s' := s.setDrove node { d with experts := some { e with arrivals := rest } }
        if sig = 0 then s'.flushExperts node fuel else
        let g := Sparse.get 0 (s.queue e.q).arrivals sig + 1
        match s.judgeArrival node 0 e.tag sig g with
        | .later => s
        | .refused => s.endCmd e.q .accessFault
        | .admitted =>
          let s' := s'.modQueue e.q fun x => { x with arrivals := Sparse.set x.arrivals sig g }
          ((s'.hurdleEvent e.q 0x08 e.tag sig g).arriveHurdle node 0 e.tag sig g cancel).flushExperts node fuel

/-- Flush with room for every arrival. -/
def State.expertArrivals (s : State) (node : Nat) : State :=
  s.flushExperts node (match (s.drove node).experts with | some e => e.arrivals.length + 1 | none => 0)

/-- Wake the waiters of a block, or of an edge die's queues. -/
def State.wakeBlock (s : State) (node blk : Nat) : State :=
  let s := (unitQueues node blk).foldl State.wakeQueue s
  let s := ((s.block node blk).threads.map (·.1)).foldl (fun s k => s.wakeThread node blk k) s
  s.wakeScalar node blk

/-- Wake every waiter of a node once. -/
def State.wakePass (s : State) (node : Nat) : State :=
  if isEdge node then
    let s := (s.expertArrivals node).wakeBlock node 0
    if s.fld F.drvStat_feed node = 2 then s.wakeBlock (farEnd node) 0 else s
  else [0, 1, 2, 3].foldl (fun s blk => s.wakeBlock node blk) s

/-- The queues of a node. -/
def nodeQueues (node : Nat) : List QueueRef :=
  if isEdge node then unitQueues node 0 ++ unitQueues (farEnd node) 0 else [0, 1, 2, 3].flatMap fun blk => unitQueues node blk

/-- The arrivals that wait in a node's queues: each may release a generation others of the node wait for. -/
def State.lateArrivals (s : State) (node : Nat) : Nat :=
  ((nodeQueues node).filter fun q => match (s.queue q).cur with
    | some c => (match c.wait with | .arrival .. => true | _ => false) | none => false).length

/-- Wake a node's waiters in so many passes. -/
def State.wakePasses (s : State) (node : Nat) : Nat → State
  | 0 => s
  | n + 1 => (s.wakePass node).wakePasses node n

/-- Wake every waiter of a node (R231), those that an arrival made on the way releases among them. -/
def State.wakeNode (s : State) (node : Nat) : State := s.wakePasses node (1 + s.lateArrivals node)

/-- The nodes of a job's lists. -/
def Job.nodes (j : Job) : List Nat := (j.lists.map fun l => l.q.node).eraseDups

/-- Change one list of a job. -/
def Job.modList (j : Job) (q : QueueRef) (f : JobList → JobList) : Job :=
  { j with lists := j.lists.map fun l => if l.q == q then f l else l }

/-- Change a job that is live. -/
def State.modJob (s : State) (tag : Nat) (f : Job → Job) : State :=
  match s.job? tag with
  | some j => s.setJob tag (f j)
  | none => s

/-- A list starts in an idle queue (R218, R233, R235): counts, loop counter and call stack read 0; the block's predicates read 0
when no list of the block runs. -/
def State.startList (s : State) (q : QueueRef) (tag addr : Nat) : State :=
  let busy := (unitQueues q.node q.blk).any fun r => (s.queue r).tag.isSome
  let s := if busy || isEdge q.node then s else s.modBlock q.node q.blk fun b => { b with preds := 0 }
  let s := s.modQueue q fun x => { x with tag := some tag, walk := some addr, calls := [], loop := 0, arrivals := [], waits := [],
                                          cur := none, requeues := 0, passBreak := false, waited := false, lines := [] }
  (s.modJob tag fun j => j.modList q fun l => { l with started := true }).reportAhead q

/-- The queue's list has ended: the oldest waiting list starts (R218). -/
def State.freeQueue (s : State) (q : QueueRef) : State :=
  let x := s.queue q
  let s := (s.setQueue q { x with tag := none, walk := none, cur := none, lines := [], backlog := x.backlog.drop 1 }).reportAhead q
  match x.backlog with
  | [] => s
  | (t, a) :: _ => s.startList q t a

/-- Hand a list to its queue: it starts, or waits for the running one (R218). -/
def State.giveList (s : State) (q : QueueRef) (tag addr : Nat) : State :=
  if (s.queue q).tag.isNone then s.startList q tag addr
  else s.modQueue q fun x => { x with backlog := x.backlog ++ [(tag, addr)] }

/-- Make a range of a block's window a free value (R6). -/
def State.undefineBlk (s : State) (node blk off n : Nat) : State :=
  { s with mem := s.mem.undefine (blkKeyAt node blk off) n s.freeCount, freeCount := s.freeCount + 1 }

/-- The rows of MVE_COPY: source, destination. -/
def copyRows (d : Nat) : List (Nat × Nat) :=
  (List.range (bits d 248 16)).map fun i => (bits d 128 48 + i * bits d 264 32, bits d 176 48 + i * bits d 296 32)

/-- The handles of MVE_BCAST: the i-th member uses PEN_FIRST + i. -/
def bcastHandles (d : Nat) : List Nat := (List.range (setBits 12 (bits d 136 12)).length).map (· + bits d 128 6)

/-- Make `n` bytes at an offset of the pens of handles a free value (R6). -/
def State.undefinePens (s : State) (q : QueueRef) (hs : List Nat) (off n : Nat) : State :=
  (hs.filterMap fun h => s.handle? q.node q.blk h).foldl (fun s e => s.undefineRange q.node (e.base + off) n) s

/-- Make the buffers of a half in every block of the members free values that hold part of a stream (R6). -/
def State.undefineFeeds (s : State) (members : List Nat) (side tag seq : Nat) : State :=
  members.foldl (fun s m => [0, 1, 2, 3].foldl (fun s blk =>
    let b := s.block m blk
    match (if side = 0 then b.west else b.east).feeds.find? fun f => f.seq == seq && f.tag == tag with
    | none => s
    | some f =>
      let s := if f.fill0.isSome then s.undefineBlk m blk (0x2000000 + side * 0x100000) 0x80000 else s
      if f.fill1.isSome then s.undefineBlk m blk (0x2080000 + side * 0x100000) 0x80000 else s) s) s

/-- The destination of a command that stops in mid-course is undefined (R6, R239): the PS lines of a draining matrix command's slots, what a move writes,
the DEST of a fold, the pens of a dispatch, the buffers of a stream. -/
def State.undefineDest (s : State) (q : QueueRef) (d : Nat) : State :=
  match dOpcode d with
  | 0x30 => (copyRows d).foldl (fun s r => s.undefineRange q.node r.2 (bits d 224 24)) s
  | 0x32 => s.undefinePens q [bits d 128 6] (bits d 208 24) (bits d 232 24)
  | 0x34 => s.undefinePens q (bcastHandles d) (bits d 208 24) (bits d 232 24)
  | 0x41 => (List.range 12).foldl (fun s r => match s.handle? q.node q.blk (bits d 140 6 + r) with
    | some e => s.undefineRange q.node e.base (e.units * 4096)
    | none => s) s
  | 0x60 => s.undefineFeeds (((s.drove (s.servedBy q.node)).streams.filter fun x => x.q == some q).flatMap (·.members)) (if q.node < 168 then 0 else 1)
      (s.queueTag q) (bits d 216 16)
  | 0x61 => s.undefineFeeds (((s.drove (s.servedBy q.node)).streams.filter fun x => x.q == some q).flatMap (·.members)) (if q.node < 168 then 0 else 1)
      (s.queueTag q) (bits d 224 16)
  | 0x11 | 0x12 => if bit d 175 && !dProvisional d then
      (setBits 32 (bits d 128 32)).foldl (fun s n => s.undefineBlk q.node q.blk (0x1000000 + (bits d 256 13 + 8 * n) * 512) 4096) s
    else s
  | 0x13 => if bit d 175 then
      (setBits 32 (bits d 128 32)).foldl (fun s n => s.undefineBlk q.node q.blk (0x1000000 + (bits d 232 13 + 8 * n) * 512) 4096) s
    else s
  | 0x35 => s.undefineRange q.node (bits d 232 48) (bits d 208 24)
  | _ => s

/-- The head of a queue waits for its HURDLE_WAIT (R222). -/
def State.headWaits (s : State) (q : QueueRef) : Bool :=
  match s.headDesc q with | some d => (s.headWait q d).isNone | none => false

/-- Stop the job's list in a queue (R239 steps 1-3): a command in flight, or a head that waits for its hurdle, ends with the abort status and the list
stops; another idle list stops at once; a waiting list does not start. -/
def State.abortQueue (s : State) (tag : Nat) (st : Status) (q : QueueRef) : State :=
  let x := s.queue q
  let s := if x.backlog.any (·.1 == tag) then
      (s.setQueue q { x with backlog := x.backlog.filter (·.1 != tag) }).modJob tag fun j => j.modList q fun l => { l with stopped := true }
    else s
  if x.tag != some tag then s else
  match x.cur with
  | some c => if c.status.isSome then s.stopList q else ((s.undefineDest q c.desc).endAs q st).stopList q
  | none =>
    if s.headWaits q && !(!isEdge q.node && (s.block q.node q.blk).stopped) then
      ((s.takeCur q (x.walk.getD 0) ((s.headDesc q).getD 0)).endAs q st).stopList q
    else (s.freeQueue q).modJob tag fun j => j.modList q fun l => { l with stopped := true }

/-- Pens of a job in a block, or a hub's (R239 step 4): pending requests are given up, their later grants released at once; held
pens are released. -/
def State.abortPens (s : State) (node unit tag : Nat) : State :=
  let u := s.holderUnit node unit
  let mine := u.holders.filter (·.tag == tag)
  let s := s.updHolders node unit { u with holders := u.holders.filter (·.tag != tag), waiting := u.waiting.filter (·.pkt.jobTag != tag) }
  let out := s.outstanding.map fun r =>
    if mine.any (fun h => !h.granted && h.txn == r.txn && r.node == node) then { r with purpose := .penOrphan } else r
  let s := { s with outstanding := out }
  (mine.foldl (fun s h => if h.granted && !h.revoked then s.sendRelease node h.unit h.tag h.base .penOrphan else s) s).penNextAll node unit

/-- Drop the streams and decisions of a job from a half. -/
def Half.dropTag (h : Half) (tag : Nat) : Half :=
  { feeds := h.feeds.filter fun f => f.tag != tag, table := h.table.filter fun e => e.2.1 != tag }

/-- Stop a job's work in a block (R239, R541). -/
def State.abortBlock (s : State) (tag : Nat) (node blk : Nat) : State :=
  let b := s.block node blk
  let gone := (b.launches.filter (·.tag == tag)).map (·.id)
  let mine := fun (q : QueueRef) => s.queueTag q == tag
  let b := gone.foldl Block.dropLaunch { b with west := b.west.dropTag tag, east := b.east.dropTag tag }
  let b := { b with runs := b.runs.filter fun r => !mine r.q, recomputes := b.recomputes.filter fun r => !mine r.q }
  let unhold := match b.held with | some q => mine q | none => false
  let s := (s.setBlock node blk (if unhold then { b with held := none, stepping := none } else b)).showVec node blk
  let s := s.showOut node blk
  let s := if unhold then s.put F.dbgBrk_state node 0 blk 0 else s
  s.abortPens node blk tag

/-- The half of an edge die's own drove: 0 for the west end (R248). -/
def edgeSide (node : Nat) : Nat := if node < 168 then 0 else 1

/-- The stream's lines carry PROVISIONAL (R253). -/
def Stream.provisional (x : Stream) : Bool := x.prov && x.decision != some .commit

/-- The stream of a class that has the engine: the one with the lowest place that is not fully sent. Class 0 are the end's own streams, class 1
companions and a lost end's (R270-R271). -/
def Drove.current (d : Drove) (side : Nat) (other : Bool) : Option Stream :=
  (d.streams.filter fun x => !x.done && !x.gone && ((x.companion || x.side != side) == other)).foldl (fun b x => match b with
    | some y => if x.place < y.place then some x else b
    | none => some x) none

/-- The stream being sent: where two classes alternate, the one that sent last (R270-R271, R273). -/
def Drove.sending (d : Drove) (side : Nat) : Option Stream :=
  match (d.current side (!d.turn)).filter (·.begun) with
  | some x => some x
  | none => (d.current side d.turn).filter (·.begun)

/-- DRV_STAT shows what is being sent (R273): the last sequence number stays. -/
def State.showDrove (s : State) (node : Nat) : State :=
  match (s.drove node).sending (edgeSide node) with
  | some x => ((s.put F.drvStat_curSeq node 0 0 x.seq).put F.drvStat_active node 0 0 1).put F.drvStat_provisional node 0 0 (b2n x.provisional)
  | none => (s.put F.drvStat_active node 0 0 0).put F.drvStat_provisional node 0 0 0

/-- Stop a job's work at an edge die (R239). -/
def State.abortEdge (s : State) (tag : Nat) (node : Nat) : State :=
  let d := s.drove node
  let tables := d.tables.filter fun x => x.tag != tag
  let d := { d with
    streams := d.streams.filter fun x => x.tag != tag
    deciding := d.deciding.filter fun x => x.tag != tag
    tables := tables
    busy := d.busy.filter fun e => e.2.1 != tag
    experts := match d.experts with
      | some e => if e.tag = tag then none else some e
      | none => none }
  if (s.drove node) = d then s else ((s.setDrove node d).put F.drvTally_tablesUsed node 0 0 tables.length).showDrove node

/-- A job's held tiles and bindings go with the job (R123, R124). -/
def Block.emptyTag (b : Block) (tag : Nat) : Block :=
  { b with tiles := b.tiles.filter fun t => t.2.tag != tag, binds := b.binds.filter fun t => t.2.tag != tag,
           west := b.west.dropTag tag, east := b.east.dropTag tag }

/-- The job engine declares the job complete once every list has ended (R200, R239, R123): hefts, held tiles, bindings and tally
tables of the job go. -/
def State.jobEnd (s : State) (tag : Nat) : State :=
  match s.job? tag with
  | none => s
  | some j =>
    if j.state != .completed && j.lists.all (fun l => l.done || l.stopped) then
      let s := s.setJob tag { j with state := JobState.completed }
      let s := { s with hefts := s.hefts.filter fun h => h.tag != tag, blocks := s.blocks.map fun e => (e.1, e.2.emptyTag tag) }
      (List.range 24).foldl (fun s e => s.abortEdge tag (156 + e)) s
    else s

/-- Once every tally record of a completed job is written or dropped its JOB_END entry goes to the completion store (R382, R532), or is discarded
with the endpoint's reset (R372). The
job's queue of completions is the one its submission queue names. -/
def State.jobSettle (s : State) (tag : Nat) : State :=
  match s.job? tag with
  | none => s
  | some j =>
    if j.state == .completed && !s.intake.any (·.tag == tag) && !s.cqStore.any (fun e => e.kind == 1 && e.tag == tag) then
      if j.silent then { s with jobs := Sparse.del s.jobs tag } else
      let st : Status := match j.abort with | some x => x | none => if j.poisoned then .poisoned else .done
      { s with cqStore := s.cqStore ++ [⟨j.hub, s.fld F.hubSqcfg_cq j.hub 0 j.sq, j.sq, j.index, st, 1, tag, j.head, s.now,
          (s.word .pwrEnergy s.master 0 tag).toNat, j.failAddr⟩] }
    else s

/-- R239: the job aborts on every unit; every hurdle instance releases with the status; waiters end with it. -/
def State.abortLocal (s : State) (tag : Nat) (st : Status) (failAddr : Nat := 0) : State :=
  match s.job? tag with
  | none => s
  | some j =>
    if j.state != .running then s else
    let s := s.setJob tag { j with state := .aborting, abort := some st, failAddr := failAddr }
    let s := (j.lists.map fun l => l.q).foldl (fun s q => s.abortQueue tag st q) s
    let s := s.modJob tag fun j => { j with hurdles := j.hurdles.map fun h => { h with aborted := some st } }
    let s := j.nodes.foldl (fun s n =>
      if isEdge n then s.abortEdge tag (s.servedBy n) else [0, 1, 2, 3].foldl (fun s b => s.abortBlock tag n b) s) s
    (s.jobEnd tag).jobSettle tag

/-- An abort of a job, with the panels of its cascade told: a member tells the bellwether, the bellwether every member (R357). -/
def State.abortJob (s : State) (tag : Nat) (st : Status) (failAddr : Nat := 0) : State :=
  match s.job? tag with
  | none => s
  | some j =>
    if j.state != .running then s
    else if !j.cascade then s.abortLocal tag st failAddr
    else if j.bell = s.panelId then
      j.members.foldl (fun s m => if m.panel = s.panelId then s else s.tellPanel m.panel (.hurdle m.panel s.panelId tag (.abort st))) (s.abortLocal tag st failAddr)
    else (s.abortLocal tag st failAddr).tellPanel j.bell (.hurdle j.bell s.panelId tag (.abort st))

end Sys2Proof.Machine
end

