-- ==== Sys2Proof/Machine/Wake.lean ====
section
/-!
DEFINITION. Wake events of the panel (R466-R468): what a source does in each power state.
-/
namespace Sys2Proof.Machine

/-- Panel Standby ends: HUB_WAKE records the source, and the panel is waking until PANEL_WAKE (R467-R468). -/
def State.wakeNow (s : State) (source detail : Nat) : State :=
  let s := (s.put F.hubWake_source 180 0 0 source).put F.hubWake_detail 180 0 0 detail
  ((s.put F.hubWake_simultaneous 180 0 0 0).put F.hubWakeTime_time 180 0 0 s.now).put F.hubPstate_state 180 0 0 3

/-- A wake event (R468): ignored and counted during a panel stop; of two in one cycle the lower code is recorded; in host-assisted mode of
function 12 link activity and the timer ask first. -/
def State.wakeEvent (s : State) (source detail : Nat) : State :=
  match s.pstate with
  | 4 => s.bump F.hubWake_ignored 180 0 0
  | 2 =>
    if (source = 1 ∨ source = 4) ∧ s.hostDuty s.master 0 12 then s.ask 12 s.master 0 source detail (.wake (source + 16 * detail))
    else s.wakeNow source detail
  | 3 =>
    if s.fld F.hubWakeTime_time 180 = s.now then
      let s := s.bump F.hubWake_simultaneous 180 0 0
      if source < s.fld F.hubWake_source 180 then (s.put F.hubWake_source 180 0 0 source).put F.hubWake_detail 180 0 0 detail else s
    else s
  | _ => s

end Sys2Proof.Machine
end

