-- ==== Sys2Proof/Machine/LinkState.lean ====
section
/-!
DEFINITION. The link state machine of a bundle (R330, R338-R343): training, sessions, flaps, linger, lane and bundle retirement.
-/
namespace Sys2Proof.Machine

/-- The bundle exists. -/
def isBundle (node b : Nat) : Bool := isEdge node && decide (b < 5)

/-- The bundle runs in Ethernet mode (R344). -/
def State.ethernet (s : State) (node b : Nat) : Bool := s.flag F.lnkCtrl_mode node 0 b

/-- The lanes a bundle accepts: those it has not retired (R330). -/
def State.lanesOk (s : State) (node b : Nat) : Nat := 255 - s.fld F.lnkStat_lanesRetired node 0 b

/-- Some half of the bundle has all its lanes (R330); an Ethernet bundle has no half width (R344). -/
def State.widthOk (s : State) (node b lanes : Nat) : Bool :=
  if s.ethernet node b then lanes % 256 == 255 else bits lanes 0 4 == 15 || bits lanes 4 4 == 15

/-- A session ends: its number rises (R341). -/
def State.endSession (s : State) (node b : Nat) : State :=
  if (s.link node b).contact && !(s.link node b).ended then
    (s.modLink node b fun x => { x with ended := true }).count F.lnkStat_session node 0 b
  else s

/-- Full training starts; in host-assisted mode of function 7 the panel asks first (R338, R419). -/
def State.fullTraining (s : State) (node b : Nat) : State :=
  let s := (s.modLink node b fun x => { x with saved := false, full := true }).setLinkState node b .train
  if s.hostDuty node (pageOf .lnk node 0) 7 then
    (s.modLink node b fun x => { x with asking := true }).ask 7 node (pageOf .lnk node 0) b 0 (.training node b)
  else s

/-- Training starts: fast with saved settings, full without (R338). -/
def State.startTraining (s : State) (node b : Nat) : State :=
  if (s.link node b).saved then (s.modLink node b fun x => { x with full := false }).setLinkState node b .train
  else s.fullTraining node b

/-- The bundle falls back to LISTEN, or to LINGER while it lingers (R338). -/
def State.restLink (s : State) (node b : Nat) : State :=
  s.setLinkState node b (if (s.link node b).linger.isSome then .linger else .listen)

/-- End the proxies of a bundle (R341, R350): the replies that still come for them find no request and count as orphans. -/
def State.endProxies (s : State) (node b : Nat) : State :=
  let gone := s.proxies.filter fun x => x.edge == node && x.bundle == b
  { s with
    proxies := s.proxies.filter fun x => !(x.edge == node && x.bundle == b)
    outstanding := s.outstanding.filter fun r => match r.purpose with
      | .peer e i => !gone.any fun x => x.edge == e && x.entry == i
      | _ => true }

/-- End the pen proxies of a bundle (R341, R351): their pens are released; a grant still to come is released when it comes. -/
def State.endPenProxies (s : State) (node b : Nat) : State :=
  let gone := s.penProxies.filter fun x => x.edge == node && x.bundle == b
  let orphan := fun (r : Request) => match r.purpose with
    | .peerPen e i => if gone.any (fun x => x.edge == e && x.index == i) then { r with purpose := .penOrphan } else r
    | _ => r
  let s := { s with penProxies := s.penProxies.filter (fun x => !(x.edge == node && x.bundle == b)), outstanding := s.outstanding.map orphan }
  gone.foldl (fun s x => if x.granted then s.sendRelease node x.index x.tag x.base .penOrphan else s) s

/-- The panel at the other end of some bundle that carries or holds traffic for it. -/
def State.reachesPanel (s : State) (panel : Nat) : Bool :=
  (List.range 24).any fun e => (List.range 5).any fun b =>
    s.fld F.lnkStat_peerId (156 + e) 0 b == panel && (s.linkState (156 + e) b == .up || (s.link (156 + e) b).linger.isSome)

/-- The jobs that lose a member: a bellwether's with the panel as member, another's with it as bellwether (R357). -/
def State.loseMember (s : State) (panel : Nat) (st : Status) : State :=
  let lost := s.jobs.filter fun e => e.2.cascade && e.2.state == .running &&
    (if e.2.bell = s.panelId then e.2.names.contains panel else e.2.bell == panel)
  lost.foldl (fun s e => s.abortJob e.1 st) s

/-- Held frames as at linger expiry (R338, R340), and the loss of a member that no bundle holds traffic for any more (R357). -/
def State.lingerOut (s : State) (node b : Nat) : State :=
  let s := ((s.expireHeld node b).endSession node b).modLink node b fun x => { x with down := false }
  let peer := s.fld F.lnkStat_peerId node 0 b
  if peer = 0xFFF || s.reachesPanel peer then s else s.loseMember peer .lingerExpired

/-- A bundle is retired (R338, R483). -/
def State.retireBundle (s : State) (node b count : Nat) : State :=
  ((s.setLinkState node b .retired).lingerOut node b).retirement (linkSite node b) 23 .ueUnit 0x0B count

/-- A bundle is classified (R419 function 1, R484). -/
def State.bundleFaulty (s : State) (node b count : Nat) : State :=
  s.classified node (pageOf .lnk node 0) 23 (.bundle node b) fun s => s.retireBundle node b count

/-- The flaps of a bundle within the last second (R338). -/
def State.recentFlaps (s : State) (node b : Nat) : List Nat := (s.link node b).flaps.filter fun t => decide (s.now < t + sec)

/-- UP passes to LINGER: frames are held (R338). -/
def State.startLinger (s : State) (node b : Nat) : State :=
  (s.modLink node b fun x => { x with linger := some s.now }).setLinkState node b .linger

/-- The bundle leaves UP through a flap: counted, logged CE; the fourth within a second retires it (R338-R339). -/
def State.flap (s : State) (node b cause : Nat) : State :=
  let fl := s.recentFlaps node b ++ [s.now]
  let s := (s.modLink node b fun x => { x with flaps := fl, resent := 0 }).put F.lnkStat_flaps node 0 b (min 7 fl.length)
  let s := (s.startLinger node b).error (linkSite node b) 22 .ce 0 cause
  if 4 ≤ fl.length then s.bundleFaulty node b fl.length else s

/-- Retrain a bundle whatever it does: one that is UP or holds frames keeps them as while lingering (R338, R360). -/
def State.retrain (s : State) (node b : Nat) : State :=
  match s.linkState node b with
  | .off | .retired | .listen => s
  | .up => ((s.startLinger node b).modLink node b fun x => { x with saved := false }).fullTraining node b
  | _ => s.fullTraining node b

/-- LNK_CTRL.ENABLE changes (R338). -/
def State.onLinkEnable (s : State) (node b : Nat) (on : Bool) : State :=
  if on then (if s.linkState node b == .off then s.startTraining node b else s)
  else if s.linkState node b == .off then s
  else (s.setLinkState node b .off).lingerOut node b

/-- REENABLE (R338): a retired bundle trains, its flap history cleared. -/
def State.onReenable (s : State) (node b : Nat) : State :=
  if s.linkState node b == .retired then
    ((s.modLink node b fun x => { x with flaps := [] }).put F.lnkStat_flaps node 0 b 0).startTraining node b
  else s

/-- FULL_TRAIN (R360): saved settings are discarded and the bundle retrains. -/
def State.onFullTrain (s : State) (node b : Nat) : State := (s.modLink node b fun x => { x with saved := false }).retrain node b

/-- PEER_TIMEOUT in every router is at least 10 ms beyond the largest linger or wake limit of any bundle (R352), in units of 100 µs. -/
def State.raisePeerTimeouts (s : State) : State :=
  let each := (List.range 24).flatMap fun e => (List.range 5).map fun b =>
    max (s.fld F.lnkCtrl_lingerMs (156 + e) 0 b) (10 * max 1 (s.fld F.lnkCtrl_wakeLimit (156 + e) 0 b))
  let want := 10 * (each.foldl max 0 + 10)
  (allBelow 182 s.live).foldl (fun s n => if s.fld F.rtrPeerTo_peerTimeout n < want then s.put F.rtrPeerTo_peerTimeout n 0 0 want else s) s

/-- A write of LNK_CTRL takes effect (R338, R352, R360); `w` as written. -/
def State.onLnkCtrl (s : State) (node b : Nat) (old w : Word) : State :=
  let s := if wordField old 2 14 != wordField w 2 14 then s.raisePeerTimeouts else s
  let s := if wordField old 1 1 != wordField w 1 1 then s.onFullTrain node b else s
  let s := if wordField old 0 1 != wordField w 0 1 then s.onLinkEnable node b (wordField w 0 1 == 1) else s
  let s := if wordField w 24 1 = 1 then s.onReenable node b else s
  if wordField w 25 1 = 1 then s.onFullTrain node b else s

/-- LINK_WAKE_EVENT (R338, R343, R468): signal, a knock or queued frames start training from LISTEN, signal also while the bundle lingers. In
Panel Standby signal and knock are wake events. -/
def execLinkWakeEvent (node b : Nat) (cause : LinkWake) (s : State) : Out :=
  need (isBundle node b) .noSuch <|
  let st := s.linkState node b
  need (st == .listen || (st == .linger && cause == .signal)) .wrongState <|
  need (match cause with
    | .signal => true | .knock => !s.ethernet node b | .queued => !(s.link node b).queue.isEmpty) .wrongState <|
  let s := if cause == .queued then s else s.wakeEvent 1 (8 * (node - 156) + b)
  .next (s.startTraining node b)

/-- TRAINING_DONE (R338): fast or full training ends; a failed fast one is followed by full training, a failed full one discards the settings. -/
def execTrainingDone (node b : Nat) (ok : Bool) (s : State) : Out :=
  need (isBundle node b) .noSuch <|
  need (s.linkState node b == .train && !(s.link node b).asking) .wrongState <|
  if ok then .next (s.setLinkState node b .align)
  else if (s.link node b).full then .next ((s.modLink node b fun x => { x with saved := false }).restLink node b)
  else .next (s.fullTraining node b)

/-- ALIGN_DONE (R338): every accepted lane is locked and deskewed, and the width is chosen; or the settings are discarded and training resumes. -/
def execAlignDone (node b : Nat) (ok : Bool) (s : State) : Out :=
  need (isBundle node b) .noSuch <|
  need (s.linkState node b == .align) .wrongState <|
  if ok then .next ((s.put F.lnkStat_half node 0 b (b2n (s.lanesOk node b != 255))).setLinkState node b .exchange)
  else .next (s.fullTraining node b)

/-- Go-back-N: every frame not yet acknowledged is sent again (R337). -/
def State.resend (s : State) (node b : Nat) : State :=
  let x := s.link node b
  if x.retry.isEmpty then s else
  let s := (s.setLink node b { x with resent := x.resent + 1, ackAt := s.now }).bump F.lnkStat_resends node 0 b
  x.retry.foldl (fun s e =>
    let (f, x) := (s.link node b).stamp { seq := e.1, body := e.2 }
    (s.setLink node b x).emit node b f) s

/-- An acknowledged sequence number covers another (24-bit, R333). -/
def seqCovers (ack seq : Nat) : Bool := decide ((ack + 2 ^ 24 - seq) % 2 ^ 24 < 2 ^ 23)

/-- The bundle is UP: what it holds goes out (R338). -/
def State.goUp (s : State) (node b : Nat) : State :=
  let s := s.modLink node b fun x => { x with linger := none, wakeSince := none, down := false, ended := false, contact := true, saved := true,
                                              naked := false, resent := 0, ackAt := s.now }
  (s.setLinkState node b .up).pumpAll node b

/-- A new session (R341): its number is `n`; the next SEQ is the one the peer expects; receive buffers are empty. -/
def State.newSession (s : State) (node b n last : Nat) : State :=
  (s.modLink node b fun x => { x with retry := [], inbox := [], part := [0, 0, 0, 0, 0], begun := [0, 0, 0, 0, 0], nextSeq := (last + 1) % 2 ^ 24, credit := [384, 384, 384, 384, 384, 128],
                                      owed := [0, 0, 0, 0, 0, 0] }).put F.lnkStat_session node 0 b n

/-- EXCHANGE's outcome for a record (R341). -/
def State.exchangeOutcome (s : State) (node b peer inc session last : Nat) : State :=
  let x := s.link node b
  let own := s.fld F.lnkStat_session node 0 b
  let same := x.contact && s.fld F.lnkStat_peerId node 0 b == peer && s.fld F.lnkPeer_incarnation node 0 b == inc
  let old := s.fld F.lnkStat_peerId node 0 b
  let s := { s with idLocked := true }
  let learn := fun (s : State) => (s.put F.lnkStat_peerId node 0 b peer).put F.lnkPeer_incarnation node 0 b inc
  if same && !x.ended && own == session then
    let s := s.modLink node b fun x => { x with retry := x.retry.filter fun e => !seqCovers last e.1 }
    ((s.setLinkState node b .up).resend node b).goUp node b
  else if same then
    let s := if x.ended then s else s.discardFrames node (x.retry.map (·.2)) .lingerExpired
    let s := s.endSession node b
    ((s.endProxies node b).newSession node b (max (s.fld F.lnkStat_session node 0 b) session) last).goUp node b
  else
    let s := s.discardFrames node ((x.retry.map (·.2)) ++ x.queue) .peerChanged
    let s := ((s.modLink node b fun x => { x with queue := [], retry := [] }).endProxies node b).endPenProxies node b
    let s := if x.contact then s.loseMember old .peerChanged else s
    ((learn s).newSession node b ((max own session + 1) % 2 ^ 16) last).goUp node b

/-- EXCHANGE (R330, R338, R341, R347): the peer's TRAIN record decides. A peer with the panel's own ID, an unset ID or no width in common
leaves the bundle in LISTEN, logged CE. -/
def execExchange (node b peer inc session last lanes mode : Nat) (s : State) : Out :=
  need (decide (peer < 4096)) .noSuch <|
  need (isBundle node b) .noSuch <|
  need (s.linkState node b == .exchange) .wrongState <|
  let both := Nat.land (s.lanesOk node b) lanes
  if peer = 0xFFF ∨ s.panelId = 0xFFF ∨ peer = s.panelId ∨ mode % 2 ≠ s.fld F.lnkCtrl_mode node 0 b ∨ !s.widthOk node b both then
    .next ((s.error (linkSite node b) 22 .ce 0 peer).setLinkState node b .listen)
  else .next ((s.put F.lnkStat_half node 0 b (b2n (both != 255))).exchangeOutcome node b peer inc (session % 2 ^ 16) (last % 2 ^ 24))

/-- LINK_DOWN (R339): loss of signal, uncorrectable codewords on every accepted lane, or one frame resent 8 times. -/
def execLinkDown (node b : Nat) (cause : LinkLoss) (s : State) : Out :=
  need (isBundle node b) .noSuch <|
  need (s.linkState node b == .up && (cause != .resends || decide (8 ≤ (s.link node b).resent))) .wrongState <|
  .next (s.flap node b (match cause with | .signal => 0 | .codewords => 1 | .resends => 2))

/-- A lane is retired: the bundle lingers and trains again at the width that is left, or is retired (R330, R342). -/
def State.laneFault (s : State) (node b lane : Nat) : State :=
  let s := s.put F.lnkStat_lanesRetired node 0 b (putBits (s.fld F.lnkStat_lanesRetired node 0 b) lane 1 1)
  let s := (s.error (linkSite node b) 21 .ce 0 lane).startLinger node b
  if s.widthOk node b (s.lanesOk node b) then s.startTraining node b else s.bundleFaulty node b 2

/-- LANE_RETIRE (R330, R342): a lane that crosses its threshold is retired; the bundle trains again at half width, its frames held, no flap
counted; with retired lanes in both halves it is retired. Ethernet bundles retire no lane (R344). -/
def execLaneRetire (node b lane : Nat) (s : State) : Out :=
  need (isBundle node b && decide (lane < 8)) .noSuch <|
  need (s.linkState node b == .up && !s.ethernet node b && bit (s.lanesOk node b) lane) .wrongState <|
  .next (s.laneFault node b lane)

/-- LINGER_EXPIRY (R338, R340). -/
def execLingerExpiry (node b : Nat) (s : State) : Out :=
  need (isBundle node b) .noSuch <|
  match (s.link node b).linger with
  | none => .refused .wrongState
  | some t =>
    need (decide (t + s.fld F.lnkCtrl_lingerMs node 0 b * ms ≤ s.now)) .notDue <|
    .next ((if s.linkState node b = .linger then s.setLinkState node b .listen else s).lingerOut node b)

/-- KNOCK_SEND (R343): every 32 µs a sender whose bundle is not up after a DOWN knocks while frames are queued. -/
def execKnockSend (node b : Nat) (s : State) : Out :=
  need (isBundle node b) .noSuch <|
  let x := s.link node b
  need (x.down && !x.queue.isEmpty && s.linkState node b != .up && !s.ethernet node b) .wrongState <|
  need (match x.knock with | some t => decide (t + 32 * us ≤ s.now) | none => true) .notDue <|
  .next ((s.setLink node b { x with knock := some s.now }).say (.knock node b))

/-- WAKE_LIMIT_EXPIRY (R343): a bundle not UP within WAKE_LIMIT has its held frames handled as at linger expiry. -/
def execWakeLimitExpiry (node b : Nat) (s : State) : Out :=
  need (isBundle node b) .noSuch <|
  match (s.link node b).wakeSince with
  | none => .refused .wrongState
  | some t =>
    need (s.linkState node b != .up) .wrongState <|
    need (decide (t + max 1 (s.fld F.lnkCtrl_wakeLimit node 0 b) * (10 * ms) ≤ s.now)) .notDue <| .next (s.lingerOut node b)

end Sys2Proof.Machine
end

