-- ==== Sys2Proof/Machine/Peers.lean ====
section
/-!
DEFINITION. Inbound access of peers (R349-R351, R366): aperture slices, the proxy table, pen proxies, transit.
-/
namespace Sys2Proof.Machine

/-- The local address a peer's request names, where its slice is VALID, grants the operation and carries the job tag (R350, R366). -/
def State.slice? (s : State) (p : Packet) : Option Nat :=
  let i := bits p.addr 30 4
  let grant := match p.op with
    | .readReq => s.flag F.hubAperture_read 180 0 i
    | .atomicAdd => s.flag F.hubAperture_atomic 180 0 i
    | .write | .penReq | .penPut | .penRelease => s.flag F.hubAperture_write 180 0 i
    | _ => false
  if grant && s.flag F.hubAperture_valid 180 0 i && s.fld F.hubAperture_jobTag 180 0 i == p.jobTag then
    some (s.fld F.hubAperture_base 180 0 i * 2 ^ 30 + p.addr % 2 ^ 30)
  else none

/-- The address in this panel's aperture of a local address that lies in a slice granting writes under a tag (R351). -/
def State.peerAddr (s : State) (addr tag : Nat) : Option Nat :=
  (firstBelow 16 fun i => s.flag F.hubAperture_valid 180 0 i && s.flag F.hubAperture_write 180 0 i
    && s.fld F.hubAperture_jobTag 180 0 i == tag && s.fld F.hubAperture_base 180 0 i == addr / 2 ^ 30).map fun i =>
      0x400000000000 + s.panelId * 2 ^ 34 + i * 2 ^ 30 + addr % 2 ^ 30

/-- A packet goes back over a bundle. -/
def State.linkReply (s : State) (node b panel : Nat) (p : Packet) : State := s.queueOn node b (.data p.cls [⟨p, panel, s.panelId, 0⟩])

/-- Answer a peer's packet with a status, where it is a request. -/
def State.linkAnswer (s : State) (node b : Nat) (lp : LinkPacket) (st : Status) : State :=
  if lp.pkt.op.isRequest then s.linkReply node b lp.src (answerPacket s node lp.pkt st) else s

/-- A frame that returns the acknowledgement and the credits of a bundle, or asks for a resend (R333, R336-R337). -/
def State.ackNow (s : State) (node b : Nat) (nak : Bool) : State :=
  let (f, x) := (s.link node b).stamp { nak := nak }
  (s.setLink node b x).emit node b f

/-- The oldest link packet of a class in a bundle's receive buffer. -/
def State.inboxHead (s : State) (node b cls : Nat) : Option (LinkPacket × Nat) := (s.link node b).inbox.find? fun e => e.1.pkt.cls == cls

/-- A link packet leaves the receive buffer and its credit returns (R336, R350). -/
def State.leaveInbox (s : State) (node b : Nat) (e : LinkPacket × Nat) : State :=
  let i := e.1.pkt.cls - 1
  let s := s.modLink node b fun x => { x with inbox := x.inbox.erase e, owed := setAt x.owed i (x.owed.getD i 0 + e.2) }
  if e.2 = 0 then s else s.ackNow node b false

/-- The refusal of a peer's access is recorded in the edge die's ACCESS_ERR with origin P (R350). -/
def State.peerRefused (s : State) (node b : Nat) (lp : LinkPacket) : State :=
  (s.accessErr node 0 lp.pkt.addr .P .peer (some lp.pkt.jobTag)).linkAnswer node b lp .accessFault

/-- The free entry of the proxy table (R350). -/
def State.freeProxy (s : State) (node : Nat) : Option Nat :=
  let mine := (s.proxies.filter (·.edge == node)).map Proxy.entry
  firstBelow 4096 fun i => !mine.contains i

/-- The pen proxy of a remote holder that a put or release names (R351). -/
def State.penProxyFor (s : State) (node b : Nat) (lp : LinkPacket) (addr : Nat) : Option PenProxy :=
  s.penProxies.find? fun x => x.edge == node && x.bundle == b && x.panel == lp.src && x.node == lp.pkt.src && x.unit == lp.pkt.srcUnit
    && x.granted && decide (x.base ≤ addr) && decide (addr < x.base + 4096 * x.units)

/-- PEER_REQUEST (R350-R351): a request that its slice does not grant is refused; another takes a proxy entry and is injected under it, a put
or release of a remote holder as the pen proxy. It waits while the table is full. -/
def execPeerRequest (node b cls : Nat) (s : State) : Out :=
  need (isBundle node b) .noSuch <|
  match s.inboxHead node b cls with
  | none => .refused .noSuch
  | some e =>
    let lp := e.1
    need (lp.dest == s.panelId && lp.pkt.op != .penReq) .wrongCommand <|
    match s.slice? lp.pkt with
    | none => .next ((s.leaveInbox node b e).peerRefused node b lp)
    | some addr =>
      match s.freeProxy node with
      | none => .refused .notDue
      | some i =>
        let pen := if lp.pkt.op == .penPut || lp.pkt.op == .penRelease then (s.penProxyFor node b lp addr).map PenProxy.index else none
        let x : Proxy := ⟨node, i, b, lp.src, lp.pkt.src, lp.pkt.srcUnit, lp.pkt.txn, lp.pkt.jobTag, lp.pkt.addr,
          if lp.pkt.op == .penRelease then pen else none⟩
        let s := s.leaveInbox node b e
        .next ({ s with proxies := s.proxies ++ [x] }.inject node
          { lp.pkt with addr := addr, srcUnit := pen.getD 0xFF, txn := i, link := none } (.peer node i))

/-- A reply to a proxied request goes back with the remote node, SRC_UNIT and TXN restored (R350). -/
def State.peerReply (s : State) (edge entry : Nat) (p : Packet) : State :=
  match s.proxies.find? fun x => x.edge == edge && x.entry == entry with
  | none => s.modRouter edge fun r => { r with orphans := r.orphans + 1 }
  | some x =>
    let s := { s with proxies := s.proxies.filter fun y => !(y.edge == edge && y.entry == entry) }
    let s := match x.pen with
      | some i => if p.status = 0 then { s with penProxies := s.penProxies.filter fun y => !(y.edge == edge && y.index == i) } else s
      | none => s
    s.linkReply edge x.bundle x.panel { p with dest := x.node, src := edge, srcUnit := x.unit, txn := x.txn, addr := x.addr }

/-- PEER_PEN_REQ (R350-R351): a peer's pen request takes one of 128 pen proxies, or is answered PEN_FULL at once. -/
def execPeerPenReq (node b : Nat) (s : State) : Out :=
  need (isBundle node b) .noSuch <|
  match s.inboxHead node b 2 with
  | none => .refused .noSuch
  | some e =>
    let lp := e.1
    need (lp.dest == s.panelId && lp.pkt.op == .penReq) .wrongCommand <|
    let s := s.leaveInbox node b e
    match s.slice? lp.pkt with
    | none => .next (s.peerRefused node b lp)
    | some addr =>
      match firstBelow 128 (fun i => !s.penProxies.any fun x => x.edge == node && x.index == i) with
      | none => .next (s.linkAnswer node b lp .penFull)
      | some i =>
        let x : PenProxy := { edge := node, index := i, bundle := b, panel := lp.src, node := lp.pkt.src, unit := lp.pkt.srcUnit,
                              txn := lp.pkt.txn, tag := lp.pkt.jobTag, addr := lp.pkt.addr }
        .next ({ s with penProxies := s.penProxies ++ [x] }.inject node
          { lp.pkt with addr := addr, srcUnit := i, txn := 4096 + i, link := none } (.peerPen node i))

/-- The answer to a proxied pen request (R351): a grant is forwarded with its base in the requester's peer range, or, where no slice grants
writes there, the pen is released and the request completes ACCESS_FAULT; another answer is forwarded and the proxy is free. -/
def State.penProxyReply (s : State) (edge idx : Nat) (p : Packet) : State :=
  match s.penProxies.find? fun x => x.edge == edge && x.index == idx with
  | none => s
  | some x =>
    let back := fun (s : State) (q : Packet) =>
      s.linkReply edge x.bundle x.panel { q with dest := x.node, src := edge, srcUnit := x.unit, txn := x.txn, addr := x.addr }
    let drop := fun (s : State) => { s with penProxies := s.penProxies.filter fun y => !(y.edge == edge && y.index == idx) }
    if p.op == .penGrant then
      match s.peerAddr p.oparg0 x.tag with
      | some a =>
        let s := { s with penProxies := s.penProxies.map fun y =>
          if y.edge == edge && y.index == idx then { y with granted := true, base := p.oparg0, told := a, units := p.oparg1 } else y }
        back s { p with oparg0 := a }
      | none =>
        back (drop (s.sendRelease edge idx x.tag p.oparg0 .penOrphan))
          { p with op := .completion, status := Status.accessFault.code, oparg0 := 0, oparg1 := 0 }
    else back (drop s) p

/-- A revocation goes on to the remote holder (R208, R351). -/
def State.penProxyRevoked (s : State) (p : Packet) : State :=
  match s.penProxies.find? fun x => x.edge == p.dest && x.index == p.srcUnit && x.granted && x.base == p.oparg0 with
  | none => s
  | some x => s.linkReply p.dest x.bundle x.panel { p with dest := x.node, src := p.dest, srcUnit := x.unit, txn := x.txn, oparg0 := x.told }

/-- TRANSIT_PACKET (R349): a link packet for another panel is sent on with TRANSIT raised; at 4 it completes ROUTE_NONE to its issuer. -/
def execTransitPacket (node b cls : Nat) (s : State) : Out :=
  need (isBundle node b) .noSuch <|
  match s.inboxHead node b cls with
  | none => .refused .noSuch
  | some e =>
    need (e.1.dest != s.panelId) .wrongCommand <|
    let s := s.leaveInbox node b e
    if 4 ≤ e.1.transit then .next (s.linkAnswer node b e.1 .routeNone)
    else .next (s.linkSend node { e.1 with transit := e.1.transit + 1 } false)

end Sys2Proof.Machine
end

