-- ==== Sys2Proof/Machine/LinkFrames.lean ====
section
/-!
DEFINITION. Frames a bundle receives (R333-R337, R343, R345, R355-R357): acknowledgement, credit, retry, and what each kind carries.
-/
namespace Sys2Proof.Machine

/-- The acknowledgement and the credits of a good frame (R333, R336-R337). -/
def State.takeFields (s : State) (node b : Nat) (f : Frame) : State :=
  let x := s.link node b
  let rest := x.retry.filter fun e => !seqCovers f.ack e.1
  let i := f.creditClass - 1
  let x := { x with credit := if 1 ≤ f.creditClass ∧ f.creditClass ≤ 6 then setAt x.credit i (x.credit.getD i 0 + f.creditCount) else x.credit }
  let x := if rest.length = x.retry.length then x else { x with retry := rest, resent := 0, ackAt := s.now }
  (s.setLink node b x).pumpAll node b

/-- What the receiver makes of a sequenced frame (R337). -/
inductive Order where
  | next | again | gap
  deriving DecidableEq, Repr

/-- Judge a sequenced frame. -/
def Bundle.order (x : Bundle) (f : Frame) : Order :=
  if x.expect % 2 ^ 24 = f.seq then .next
  else if seqCovers (wrapInt 24 ((x.expect : Int) - 1)) f.seq then .again else .gap

/-- Take a sequenced frame: in order it is `deliver`ed and acknowledged; seen before it is acknowledged again; after a gap a NAK is returned once
(R337). -/
def State.takeSequenced (s : State) (node b : Nat) (f : Frame) (deliver : State → State) : State :=
  let s := s.takeFields node b f
  let x := s.link node b
  match x.order f with
  | .again => s.ackNow node b false
  | .gap => if x.naked then s else (s.setLink node b { x with naked := true }).ackNow node b true
  | .next =>
    let i := f.body.creditIdx
    let owed := match f.body with | .data .. => x.owed | _ => setAt x.owed i (x.owed.getD i 0 + 1)
    let s := s.setLink node b { x with expect := (f.seq + 1) % 2 ^ 24, naked := false, owed := owed }
    deliver (s.ackNow node b false)

/-- The bundle takes frames: it is UP, and the frame is good and of the given kind (R334). -/
def State.frameOk (s : State) (node b : Nat) (f : Frame) (kind : FrameBody → Bool) : Bool :=
  isBundle node b && s.linkState node b == .up && f.crcOk && kind f.body && !f.nak

/-- A reply of a peer enters the fabric for its requester; requests and transit packets wait in the receive buffer (R335, R349-R350). `credit`
returns with the packet. -/
def State.deliverLink (s : State) (node b : Nat) (lp : LinkPacket) (credit : Nat) : State :=
  let s := if lp.pkt.e2eOk then s else s.error ⟨node, pageOf .rtr node 0, 0x3F, some lp.pkt.jobTag⟩ 16 .de lp.pkt.addr lp.pkt.src
  let lp := { lp with pkt := { lp.pkt with poison := lp.pkt.poison || !lp.pkt.e2eOk, e2eOk := true } }
  let reply := lp.pkt.op == .readData || lp.pkt.op == .completion || lp.pkt.op == .penGrant
  if lp.dest = s.panelId && reply then
    let i := lp.pkt.cls - 1
    let s := s.modLink node b fun x => { x with owed := setAt x.owed i (x.owed.getD i 0 + credit) }
    s.launch node { lp.pkt with src := node, epoch := s.fld F.rtrEpoch_injEpoch node, injTime := s.timeAt node, vch := 0, link := none }
  else s.modLink node b fun x => { x with inbox := x.inbox ++ [(lp, credit)] }

/-- The link packets that end in a frame, in order; the credit of the frame returns with the last. -/
def State.deliverEach (s : State) (node b n : Nat) : List LinkPacket → State
  | [] => s
  | [lp] => s.deliverLink node b lp (n + 1)
  | lp :: rest => (s.deliverLink node b lp n).deliverEach node b 0 rest

/-- A DATA frame of class C`c` with the link packets that end in it (R334, R336): the credit of frames that carried the first of them alone returns with it. -/
def State.deliverAll (s : State) (node b c : Nat) (ps : List LinkPacket) : State :=
  let n := (s.link node b).begun.getD (c - 1) 0
  let s := s.modLink node b fun x => { x with begun := setAt x.begun (c - 1) (if ps.isEmpty then n + 1 else 0) }
  s.deliverEach node b n ps

/-- DATA_FRAME (R334-R337). -/
def execDataFrame (node b : Nat) (f : Frame) (s : State) : Out :=
  match f.body with
  | .data c ps =>
    need (s.frameOk node b f (fun _ => decide (1 ≤ c) && decide (c ≤ 5) && ps.all (fun p => p.pkt.cls == c))) .wrongState <|
    .next (s.takeSequenced node b f fun s => s.deliverAll node b c ps)
  | _ => .refused .wrongCommand

/-- IDLE_FRAME (R334): acknowledgement and credits. -/
def execIdleFrame (node b : Nat) (f : Frame) (s : State) : Out :=
  need (s.frameOk node b f (fun k => k == .idle)) .wrongState <| .next (s.takeFields node b f)

/-- FRAME_NAK (R334, R337): a frame that asks for a resend makes the sender resend from ACK + 1; a frame whose CRC fails or whose kind is
reserved is discarded and answered with NAK. -/
def execFrameNak (node b : Nat) (f : Frame) (s : State) : Out :=
  need (isBundle node b) .noSuch <|
  need (s.linkState node b == .up && (f.nak || !f.crcOk || f.body == .reserved)) .wrongState <|
  if !f.crcOk || f.body == .reserved then .next (s.ackNow node b true)
  else
    need (decide ((s.link node b).resent < 8)) .wrongState <|
    .next ((s.takeFields node b f).resend node b)

/-- ACK_TIMEOUT (R337): ACK has not advanced within LNK_CTRL.ACK_TIMEOUT while frames are outstanding. -/
def execAckTimeout (node b : Nat) (s : State) : Out :=
  need (isBundle node b) .noSuch <|
  let x := s.link node b
  need (s.linkState node b == .up && !x.retry.isEmpty && decide (x.resent < 8)) .wrongState <|
  need (decide (x.ackAt + max 1 (s.fld F.lnkCtrl_ackTimeout node 0 b) * us ≤ s.now)) .notDue <| .next (s.resend node b)

/-- A DOWN is received (R338, R343): acknowledged; the bundle listens and its session is kept. -/
def State.takeDown (s : State) (node b : Nat) : State :=
  (s.modLink node b fun x => { x with down := true }).setLinkState node b .listen

/-- DOWN_FRAME (R343). -/
def execDownFrame (node b : Nat) (f : Frame) (s : State) : Out :=
  need (s.frameOk node b f (fun k => k == .down)) .wrongState <| .next (s.takeSequenced node b f fun s => s.takeDown node b)

/-- An UP bundle sends DOWN and enters LISTEN with its session kept (R338, R343); the time the acknowledgement takes passes within the step (log entry 20). -/
def State.sendDown (s : State) (node b : Nat) : State :=
  if s.linkState node b != .up then s else
  let s := s.queueOn node b .down
  (s.modLink node b fun x => { x with down := true, queue := x.queue.filter (· != .down), retry := x.retry.filter fun e => e.2 != .down }).setLinkState node b .listen

/-- What a HURDLE frame for this panel does (R354-R357). A JOIN waits for CASCADE_JOIN. -/
def State.cascadeMsg (s : State) (src tag : Nat) : CascadeMsg → State
  | .join d => { s with joins := s.joins ++ [(tag, src, d)] }
  | .arrive id gen cancel =>
    match s.job? tag with
    | some j => if j.cascade && j.bell == s.panelId && j.names.contains src && j.state == .running then
        ((s.markMember tag id gen src cancel).releaseRound tag id (0, 0) 6).wakeNode s.master else s
    | none => s
  | .release id gen st =>
    match s.job? tag with
    | some j =>
      if j.cascade && j.bell == src && j.state == .running && (match j.hurdle? id (0, 0) with | some h => h.gen + 1 == gen | none => false) then
        ((s.modJob tag fun j => { j with heard := s.now }).releaseNext tag id (0, 0) st).wakeNode s.master
      else s
    | none => s
  | .abort st =>
    match s.job? tag with
    | some j => if j.cascade && (j.bell == src || (j.bell == s.panelId && j.names.contains src)) then
        (if j.bell = s.panelId then s.abortJob tag st else s.abortLocal tag st) else s
    | none => s
  | _ => s

/-- HURDLE_FRAME (R354-R357): taken by this panel's master hub, or passed on towards the panel it names. -/
def execHurdleFrame (node b : Nat) (f : Frame) (s : State) : Out :=
  match f.body with
  | .hurdle dest src tag m =>
    need (s.frameOk node b f (fun _ => true)) .wrongState <|
    .next (s.takeSequenced node b f fun s => if dest = s.panelId then s.cascadeMsg src tag m else s.tellPanel dest f.body)
  | _ => .refused .wrongCommand

/-- What a PACE frame for this panel does (R356): the bellwether notes a member's report, a member the pace with its time. -/
def State.paceMsg (s : State) (src tag : Nat) : CascadeMsg → State
  | .paceReport pace _ => s.modJob tag fun j => { j with members := j.members.map fun m =>
      if m.panel == src then { m with pace := pace, heard := s.now } else m }
  | .paceSet pace time => s.modJob tag fun j => if j.bell == src then { j with nextPace := some (pace, time), heard := s.now } else j
  | _ => s

/-- PACE_FRAME (R356). -/
def execPaceFrame (node b : Nat) (f : Frame) (s : State) : Out :=
  match f.body with
  | .pace dest src tag m =>
    need (s.frameOk node b f (fun _ => true)) .wrongState <|
    .next (s.takeSequenced node b f fun s => if dest = s.panelId then s.paceMsg src tag m else s.tellPanel dest f.body)
  | _ => .refused .wrongCommand

/-- The effect of one frame of a datagram. Ethernet bundles carry no TIME frames (R344). -/
def State.takeFrame (s : State) (node b : Nat) (f : Frame) : State :=
  if !f.crcOk || f.body == .reserved then (if s.linkState node b == .up then s.ackNow node b true else s)
  else match s.linkState node b, f.body with
    | .exchange, .train peer inc session last lanes mode => match execExchange node b peer inc session last lanes mode s with
      | .next t => t
      | _ => s
    | .up, body =>
      let s := if f.nak ∧ (s.link node b).resent < 8 then s.resend node b else s
      match body with
      | .data c ps => s.takeSequenced node b f fun s => s.deliverAll node b c ps
      | .hurdle dest src tag m => s.takeSequenced node b f fun s => if dest = s.panelId then s.cascadeMsg src tag m else s.tellPanel dest f.body
      | .pace dest src tag m => s.takeSequenced node b f fun s => if dest = s.panelId then s.paceMsg src tag m else s.tellPanel dest f.body
      | .down => s.takeSequenced node b f fun s => s.takeDown node b
      | .idle => s.takeFields node b f
      | _ => s
    | _, _ => s

/-- The tag that LNK_ETH requires stands on a datagram (R363). -/
def State.vlanOk (s : State) (node b : Nat) (d : Datagram) : Bool :=
  !s.flag F.lnkEth_vlanEn node 0 b || (match d.vlan with | some (_, v) => v == s.fld F.lnkEth_vlanId node 0 b | none => false)

/-- ETH_DATAGRAM (R341, R344-R345): a datagram that a check of R344 fails or that does not name this panel is discarded without notice; one of
another incarnation than the session's leads to a new EXCHANGE; otherwise its frames are taken in order. -/
def execEthDatagram (node b : Nat) (d : Datagram) (good : Bool) (s : State) : Out :=
  need (isBundle node b) .noSuch <|
  need (s.ethernet node b && s.linkState node b != .off && s.linkState node b != .retired) .wrongState <|
  if !good || !s.vlanOk node b d || d.magic != 0xD41E || d.reserved != 0 || d.dest != s.panelId || d.frames.isEmpty || decide (32 < d.frames.length) then .next s
  else if s.linkState node b == .up && (d.incarnation != s.fld F.lnkPeer_incarnation node 0 b || d.src != s.fld F.lnkStat_peerId node 0 b) then
    .next (d.frames.foldl (fun s f => match f.body with
      | .train .. => s.takeFrame node b f | _ => s) (s.setLinkState node b .exchange))
  else .next (d.frames.foldl (fun s f => s.takeFrame node b f) s)

end Sys2Proof.Machine
end

