-- ==== Sys2Proof/Machine/Cascade.lean ====
section
/-!
DEFINITION. Multi-panel jobs at the bellwether (R354, R357): joins, the join period, members not heard from.
-/
namespace Sys2Proof.Machine

/-- CASCADE_JOIN (R354): a member's JOIN reaches the bellwether; another digest aborts the job ACCESS_FAULT on every joined member. A JOIN before
the panel's own submission is kept. -/
def execCascadeJoin (tag panel : Nat) (s : State) : Out :=
  match s.joins.find? fun e => e.1 == tag && e.2.1 == panel with
  | none => .refused .noSuch
  | some e =>
    let s := { s with joins := s.joins.erase e }
    match s.job? tag with
    | none => .next { s with earlyJoins := s.earlyJoins ++ [e] }
    | some j =>
      if !(j.cascade && j.bell == s.panelId && j.state == .running) then .next { s with earlyJoins := s.earlyJoins ++ [e] }
      else if !j.members.any (·.panel == panel) then .next s
      else
        let own := match j.members.find? (·.panel == s.panelId) with | some m => m.digest.toNat | none => 0
        let s := s.modJob tag fun j => { j with members := j.members.map fun m =>
          if m.panel == panel then { m with joined := true, digest := BitVec.ofNat 64 e.2.2, heard := s.now } else m }
        if e.2.2 ≠ own then .next (s.abortJob tag .accessFault)
        else
          let ids := (j.hurdles.filter fun h => hurdleScope h.id == 6).map Hurdle.id
          .next ((ids.foldl (fun s id => s.releaseRound tag id (0, 0) 6) s).wakeNode s.master)

/-- JOIN_EXPIRY (R354): the 10 s end with a member missing, and the job aborts TIMEOUT. -/
def execJoinExpiry (tag : Nat) (s : State) : Out :=
  match s.job? tag with
  | none => .refused .noSuch
  | some j => match j.joinEnd with
    | none => .refused .wrongState
    | some t =>
      need (j.state == .running && j.members.any (fun m => !m.joined)) .wrongState <|
      need (decide (t ≤ s.now)) .notDue <| .next (s.abortJob tag .timeout)

/-- MEMBER_LOST (R357): no report or arrival has come from a joined member, or at a member from the bellwether, for 100 ms. -/
def execMemberLost (tag panel : Nat) (s : State) : Out :=
  match s.job? tag with
  | none => .refused .noSuch
  | some j =>
    need (j.cascade && j.state == .running) .wrongState <|
    let heard := if j.bell = s.panelId then (j.members.find? fun m => m.panel == panel && m.joined && m.panel != s.panelId).map Member.heard
      else if j.bell = panel then some j.heard else none
    match heard with
    | none => .refused .noSuch
    | some t => need (decide (t + 100 * ms ≤ s.now)) .notDue <| .next (s.abortJob tag .timeout)

end Sys2Proof.Machine
end

