-- ==== Sys2Proof/Machine/Queues.lean ====
section
/-!
DEFINITION. How a command comes to the head of a queue and starts (R218-R222, R227-R228, R234, R540, R557), and how it completes
(R228-R239, R529-R531, R540-R541).
-/
namespace Sys2Proof.Machine

/-- The unit that runs a queue's commands is in service (R69, R400): a region's block, the control core of which runs, or a drove
engine. -/
def State.unitRuns (s : State) (q : QueueRef) : Bool :=
  if isEdge q.node then s.unit (s.servedBy q.node) (pageOf .drv (s.servedBy q.node) 0) == .running
  else s.unit q.node 0 == .running && s.unit q.node q.page == .running && !(s.block q.node q.blk).stopped
    && s.regionAnswer q.node q.blk == .serves

/-- A command of an engine is executing: a command in flight of the engine's own opcodes that has not ended, has not been skipped
and does not merely await its drove's decision (R217, R259). -/
def State.executing (s : State) (q : QueueRef) : Bool :=
  match (s.queue q).cur with
  | some c => ownOpcode q.eng (dOpcode c.desc) && !c.skipped && !(s.block q.node q.blk).runs.any (fun r => r.q == q && r.awaiting)
  | none => false

/-- The commands an engine executes at once (R217). -/
def engineRoom : Nat → Nat
  | 0 | 3 => 1 | 5 => 2 | _ => 4

/-- The queues of one engine. -/
def QueueRef.engine (q : QueueRef) : List QueueRef := (List.range 4).map fun i => { q with queue := i }

/-- The engine has room for a command of this opcode (R217): DVE_COMMIT and DVE_CANCEL take none. -/
def State.room (s : State) (q : QueueRef) (op : Nat) : Bool :=
  op == 0x63 || op == 0x64 || !ownOpcode q.eng op ||
    decide ((q.engine.filter fun r => s.executing r && (match (s.queue r).cur with
      | some c => dOpcode c.desc != 0x63 && dOpcode c.desc != 0x64 | none => false)).length < engineRoom q.eng)

/-- A breakpoint of the control core matches the head (R540). -/
def State.breakpoint (s : State) (q : QueueRef) (a tag : Nat) : Option Nat :=
  if isEdge q.node || (s.queue q).passBreak then none else
  firstBelow 4 fun n => let i := 4 * q.blk + n
    s.flag F.dbgBp_enable q.node 0 i && s.fld F.dbgBp_addr q.node 0 i == a / 64
      && (!s.flag F.dbgBp_tagMatch q.node 0 i || s.fld F.dbgBp_jobTag q.node 0 i == tag)

/-- The last command in flight of a draining block has completed: the block halts (R540). -/
def State.haltCheck (s : State) (node blk : Nat) : State :=
  if s.fld F.dbgBrk_state node 0 blk = 1 ∧ (unitQueues node blk).all (fun q => (s.queue q).cur.isNone) then
    let addr := match (s.block node blk).held with | some q => ((s.queue q).walk).getD 0 | none => 0
    let at' : Site := ⟨node, pageOf .blk node blk, 0x3F, none⟩
    let arg := s.fld F.dbgBrk_bp node 0 blk + 4 * s.fld F.dbgBrk_byCtl node 0 blk + 8 * s.fld F.dbgBrk_code node 0 blk
    ((s.put F.dbgBrk_state node 0 blk 2).event at' 7 0x38 addr arg).stateEntry at' .ce .debugHalt addr 0
  else s

/-- A breakpoint or CTL_BREAK hits: the head is held, the block drains (R540). A second hit while draining is ignored. -/
def State.holdHead (s : State) (q : QueueRef) (bp : Nat) (byCtl : Bool) (code : Nat) : State :=
  let s := s.modBlock q.node q.blk fun b => { b with held := some q }
  let s := s.put F.dbgBrk_state q.node 0 q.blk 1
  let s := s.put F.dbgBrk_bp q.node 0 q.blk bp
  let s := s.put F.dbgBrk_byCtl q.node 0 q.blk (b2n byCtl)
  let s := s.put F.dbgBrk_code q.node 0 q.blk code
  (s.put F.dbgBrk_heldQ q.node 0 q.blk q.number).haltCheck q.node q.blk

/-- The control core forwards commands of the queue: the block is not draining or halted, or this queue is being stepped
(R540-R541). -/
def State.forwards (s : State) (q : QueueRef) : Bool :=
  isEdge q.node || s.fld F.dbgBrk_state q.node 0 q.blk == 0 || (s.block q.node q.blk).stepping == some q

/-- The head of the queue is ready and of its engine's own opcodes (R219): its queue forwards, its wait is satisfied, the engine has room for it. -/
def State.headReady (s : State) (q : QueueRef) : Bool :=
  (s.queue q).tag.isSome && (s.queue q).cur.isNone && s.forwards q && match s.headDesc q with
    | some d => ownOpcode q.eng (dOpcode d) && (s.headWait q d).isSome && s.room q (dOpcode d)
    | none => false

/-- The engine takes a command of this opcode from the queue: it has room, and no higher queue has a ready head (R217, R219). -/
def State.takes (s : State) (q : QueueRef) (op : Nat) : Bool :=
  s.room q op && !(ownOpcode q.eng op && q.engine.any fun r => decide (q.queue < r.queue) && s.headReady r)

/-- A malformed command does not run: it completes ACCESS_FAULT and is recorded in ACCESS_ERR (R227). -/
def State.malformed (s : State) (q : QueueRef) : State :=
  let s := s.stopCmd q .accessFault
  match (s.queue q).cur with
  | some c => s.accessErr q.node q.page c.addr .C .malformed (s.queue q).tag
  | none => s

/-- Steps 1 to 3 of R222 on a command just taken: it ends here, waits (nothing yet), or goes on. -/
inductive Pass where
  | ends (s : State)
  | waits
  | goes (s : State)
  deriving Repr

/-- R222 steps 1-3: the header's hurdles, the wait, the predicate. -/
def State.pass (s : State) (q : QueueRef) (d : Nat) : Pass :=
  let tag := s.queueTag q
  let good := fun id => id == 0 || (hurdleOk false id && s.hurdleKnown q.node q.blk tag id)
  if !good (dWait d) || !good (dSignal d) then .ends (s.malformed q) else
  match s.headWait q d with
  | none => .waits
  | some st =>
    let s := if dWait d = 0 || (s.queue q).waited then s else
      s.modQueue q fun x => { x with waits := Sparse.upd 0 x.waits (dWait d) (· + 1), waited := st == .done }
    if st != .done then .ends (if st = .cancelled then s.endCmd q .cancelled else s.stopCmd q st)
    else if !isEdge q.node && dPredicated d && bit (s.block q.node q.blk).preds (dPred d) != dSense d then
      .ends ((s.modCur q fun c => { c with skipped := true }).endCmd q .done)
    else .goes s

/-- The head waits for its hurdle: when the wait begins, its unit records it (R222, R538); after that nothing happens before the release. `s1` is the
state once the descriptor has been fetched. -/
def State.awaitHead (s1 : State) (q : QueueRef) (a tag d : Nat) : Out :=
  need ((s1.queue q).begun != some a) .notDue <|
  let x := s1.takeCur q a d
  .next ((x.hurdleEvent q 0x09 tag (dWait d) (Sparse.get 0 (s1.queue q).waits (dWait d) + 1)).setQueue q { s1.queue q with begun := some a })

/-- Start the head of a queue as a command of the opcodes `ops` (R219, R222, R227, R540, R557), in the order of R222: the header's hurdles, the wait, the
predicate, the rest of the descriptor, and the engine takes it. `ok` are the command's own checks of R227, `run` its execution from its descriptor.
Refused where the head is of another row, already waits for its hurdle, or the engine does not take it yet. -/
def State.startHead (s : State) (q : QueueRef) (ops : List Nat) (ok : State → Nat → Bool) (run : State → Nat → State) : Out :=
  need (q.ok) .noSuch <|
  match (s.queue q).walk, (s.queue q).tag with
  | some a, some tag =>
    need ((s.queue q).cur.isNone && s.unitRuns q && s.forwards q) .wrongState <|
    let (rd, d, s1) := s.fetchDesc q a
    need (rd == .done && ops.contains (dOpcode d)) .wrongCommand <|
    match s.breakpoint q a tag with
    | some n => .next (s1.holdHead q n false 0)
    | none =>
      let s2 := (s1.takeCur q a d).event (q.site (some tag)) 0 0x01 a (dOpcode d) 0 q.eng q.queue
      match s2.pass q d with
      | .ends s3 => .next s3
      | .waits => s1.awaitHead q a tag d
      | .goes s3 =>
        if !commonOk q.eng tag d || !ok s3 d then .next (s3.malformed q)
        else need (s.takes q (dOpcode d)) .wrongState <| .next (run (s3.event (q.site (some tag)) 0 0x02 a (dOpcode d) 0 q.eng q.queue) d)
  | _, _ => .refused .wrongState

/-- UNIT of R237: the logical region, or 0xE0 and the die number. -/
def State.unitNumber (s : State) (q : QueueRef) : Nat := if isEdge q.node then 0xE0 + (q.node - 156) else s.lnum q.node

/-- The 32-byte completion record (R237). -/
def State.record (s : State) (q : QueueRef) (c : InFlight) (st : Status) (requeued tally : Bool) : Nat :=
  packFields [(0, 48, c.addr), (48, 8, dOpcode c.desc), (56, 4, st.code), (60, 1, b2n c.skipped), (61, 1, b2n requeued),
    (62, 1, b2n tally), (64, 6, s.queueTag q), (70, 2, if isEdge q.node then 0 else q.blk), (72, 8, s.unitNumber q), (80, 3, q.eng),
    (83, 2, q.queue), (96, 64, c.start), (160, 64, s.now), (224, 32, c.detail)]

/-- Write a completion record into the queue's ring (R237): control-core data memory, or the EDG_ page of an edge die (R394). -/
def State.writeRecord (s : State) (q : QueueRef) (r : Nat) : State :=
  let slot := (s.queue q).records % 16
  let s := s.modQueue q fun x => { x with records := x.records + 1 }
  if isEdge q.node then
    (List.range 4).foldl (fun s i => s.setWord .edgRing q.node 0 (q.queue * 64 + slot * 4 + i) (BitVec.ofNat 64 (bits r (64 * i) 64))) s
  else s.writeBlk q.node q.blk (0x3910000 + 0x5000 + q.number * 0x200 + slot * 32) (allOn (leBytes 32 r))

/-- The command yields a tally record (R529). -/
def State.tallies (s : State) (q : QueueRef) (c : InFlight) : Bool :=
  dTally c.desc && !c.skipped && s.flag F.tallyCtrl_tallyEn q.node q.page && match s.job? (s.queueTag q) with
    | some j => decide (0 < j.tallyEntries)
    | none => false

/-- A saturating field of the tally record and whether it saturated (R530). -/
def satField (w v : Nat) : Nat := min v (2 ^ w - 1)

/-- DEFICIT and DEFICIT_REASON of a tally record (R451, R530): the step-µs accrued since the command started and the reason that held longest in that
time. `pick` chooses among reasons that held equally long (log entry 2). -/
def State.deficit (s : State) (q : QueueRef) (c : InFlight) (pick : Nat) : Nat × Nat :=
  if !isRegion q.node then (0, 0) else
  let time := fun r => Sparse.get 0 (s.heldNow q.node) r - Sparse.get 0 c.held r
  let most := (List.range 16).filter fun r => (List.range 16).all fun r' => decide (time r' ≤ time r)
  (s.accumNow q.node - c.accum, most.getD (pick % most.length) 0)

/-- The tally record without SEQ (R530). Cycle and stall counts are free values (log entry 2). -/
def State.tallyBits (s : State) (q : QueueRef) (c : InFlight) (st : Status) (requeued : Bool) : Nat :=
  let w := fun i => (Config.freeWord (s.freeCount + i)).toNat
  let above := decide (2 ^ 48 ≤ c.macs) || decide (2 ^ 48 ≤ c.skips) || decide (2 ^ 40 ≤ c.bytesIn) || decide (2 ^ 40 ≤ c.bytesOut)
    || decide (2 ^ 24 ≤ c.cancelled / 1024) || decide (2 ^ 32 ≤ (s.deficit q c 0).1) || bit (w 4) 0
  packFields [(0, 42, c.addr / 64), (42, 8, dOpcode c.desc), (50, 6, s.queueTag q), (56, 4, st.code), (60, 1, b2n c.psOvf),
    (61, 1, b2n above), (62, 1, b2n requeued), (64, 8, s.unitNumber q), (72, 2, if isEdge q.node then 0 else q.blk), (74, 3, q.eng),
    (77, 2, q.queue), (79, 4, (s.deficit q c (w 0)).2), (112, 40, w 1), (152, 48, satField 48 c.macs), (200, 48, satField 48 c.skips),
    (248, 40, satField 40 c.bytesIn), (288, 40, satField 40 c.bytesOut), (328, 32, satField 32 (s.deficit q c 0).1), (360, 24, satField 24 (c.cancelled / 1024)),
    (384, 64, w 3), (448, 64, w 5)]

/-- Send a tally record to the job engine's intake of 4,096 records (R530-R531): whether it was taken. -/
def State.sendTally (s : State) (q : QueueRef) (c : InFlight) (st : Status) (requeued : Bool) : Bool × State :=
  if 4096 ≤ s.intake.length then (false, s.bump F.hubTally_dropped 180 0 0)
  else
    let r : TallyRec := ⟨s.tallyBits q c st requeued, s.queueTag q, q.node, q.blk⟩
    (true, { s with intake := s.intake ++ [r], freeCount := s.freeCount + 6 }.put F.hubTally_intake 180 0 0 (s.intake.length + 1))

/-- The free-running counters of the unit while COUNT_EN is 1 (R535): products, bytes; the cycle counters advance by free values. -/
def State.countUnit (s : State) (q : QueueRef) (c : InFlight) : State :=
  if !s.flag F.tallyCtrl_countEn q.node q.page then s else
  let add := fun (s : State) (i v : Nat) => if isEdge q.node then s.count F.drvCounter_count q.node 0 i v else s.count F.blkCounter_count q.node q.blk i v
  let free := fun k => (Config.cycleCount (s.freeCount + k)).toNat
  let s' := if isEdge q.node then
      add (add (add (add (add (add s 0 (free 0)) 1 c.bytesIn) 2 c.bytesOut) 3 (c.cancelled / 1024)) 4 (free 1)) 5 (free 2)
    else
      let s := add (add (add (add (add s (min q.eng 4) (free 0)) 5 c.macs) 6 c.skips) 7 c.bytesIn) 8 c.bytesOut
      (List.range 8).foldl (fun s i => add s (9 + i) (free (1 + i))) s
  { s' with freeCount := s.freeCount + 9 }

/-- A completed command's list goes on after this status (R238). -/
def continues (c : InFlight) (st : Status) : Bool :=
  !c.stops && (st == .done || st == .penLate || st == .poisoned || (st == .penFull && dOpcode c.desc == 0x31 && bit c.desc 204))

/-- The job engine is told of a failing record (R239) or a POISONED one. -/
def State.tellJob (s : State) (tag : Nat) (c : InFlight) (st : Status) : State :=
  let s := if st = .poisoned ∧ !c.stops then s.modJob tag fun j => { j with poisoned := true } else s
  if continues c st then s else s.abortJob tag st c.addr

/-- After its last command, or when it stops, a list leaves its queue (R218, R220, R238). -/
def State.leaveList (s : State) (q : QueueRef) (tag : Nat) (done : Bool) : State :=
  (s.modJob tag fun j => j.modList q fun l => if done then { l with done := true } else { l with stopped := true }).freeQueue q

/-- A region has had work until now (R462). -/
def State.touch (s : State) (node : Nat) : State :=
  if isRegion node then { s with power := Sparse.upd {} s.power node fun p => { p with busy := s.now } } else s

/-- A command in flight completes (R228, R230, R233-R234, R237-R239, R529-R531, R535, R540-R541). `st` is its status; `arrives` its hurdle
signal, already admitted. -/
def State.finishCmd (s : State) (q : QueueRef) (c : InFlight) (st : Status) (arrives : Bool) : State :=
  let tag := s.queueTag q
  let again := st == .cancelled && !c.stops
  let n := (s.queue q).requeues
  let c := if again then { c with detail := n + 1 } else c
  let requeued := again || decide (0 < n)
  let s := s.countUnit q c
  let s := s.touch q.node
  let (tally, s) := if s.tallies q c then s.sendTally q c st (decide (0 < n)) else (false, s)
  let s := s.writeRecord q (s.record q c st requeued tally)
  let s := s.event (q.site (some tag)) 0 0x03 c.addr (dOpcode c.desc) st.code q.eng q.queue
  let s := if arrives then
      let g := Sparse.get 0 (s.queue q).arrivals (dSignal c.desc) + 1
      let s := s.modQueue q fun x => { x with arrivals := Sparse.set x.arrivals (dSignal c.desc) g }
      (s.hurdleEvent q 0x08 tag (dSignal c.desc) g).arriveHurdle q.node q.blk tag (dSignal c.desc) g c.cancels
    else s
  let s := if again then s.modQueue q fun x => { x with cur := none, requeues := n + 1, walk := some c.addr }
    else if continues c st then
      match c.after with
      | some a => s.modQueue q fun x => { x with cur := none, requeues := 0, walk := some a, waited := false }
      | none => s.leaveList q tag true
    else s.leaveList q tag false
  let s := if (s.queue q).tag = some tag then s.reportAhead q else s
  let s := if again then s else s.tellJob tag c st
  let s := ((s.wakeNode q.node).jobEnd tag).jobSettle tag
  let s := if isEdge q.node then s else
    let b := s.block q.node q.blk
    let s := if b.stepping = some q then
        (s.modBlock q.node q.blk fun b => { b with stepping := none, held := if b.held = some q then none else b.held }).event
          (q.site (some tag)) 7 0x39 c.addr 0
      else s
    s.haltCheck q.node q.blk
  s

/-- Complete a command that has ended: its arrival is judged first; a refused one makes it complete ACCESS_FAULT, one for a later
generation waits (R233). -/
def State.complete (s : State) (q : QueueRef) (c : InFlight) (st : Status) : Out :=
  let sig := dSignal c.desc
  if sig ≠ 0 ∧ !c.signalled ∧ continues c st then
    let g := Sparse.get 0 (s.queue q).arrivals sig + 1
    match s.judgeArrival q.node q.blk (s.queueTag q) sig g with
    | .admitted => .next (s.finishCmd q c st true)
    | .refused => .next (s.finishCmd q c .accessFault false)
    | .later => .refused .notDue
  else .next (s.finishCmd q c st false)

/-- COMMAND_COMPLETE (R237): the command in flight whose work has ended completes. With none in flight, the head that no row starts
completes: its line could not be read clean (R557), or its opcode is unassigned or not allowed in the list (R223, R227). -/
def execCommandComplete (q : QueueRef) (s : State) : Out :=
  need q.ok .noSuch <|
  match (s.queue q).cur with
  | some c => match c.status with
    | some st => s.complete q c st
    | none => .refused .wrongState
  | none =>
    match (s.queue q).walk, (s.queue q).tag with
    | some a, some tag =>
      need (s.unitRuns q && s.forwards q) .wrongState <|
      let (rd, d, s1) := s.fetchDesc q a
      match s.breakpoint q a tag with
      | some n => .next (s1.holdHead q n false 0)
      | none =>
        let s2 := s1.takeCur q a d
        let cur := (s2.queue q).cur
        if rd != .done then
          match (s2.stopCmd q rd).queue q |>.cur with
          | some c => (s2.stopCmd q rd).complete q { c with after := none } rd
          | none => .refused .wrongState
        else if allowedIn q.eng (dOpcode d) then (if cur.isSome then .refused .wrongCommand else .refused .wrongState)
        else match s2.pass q d with
          | .waits => s1.awaitHead q a tag d
          | .ends s3 | .goes s3 =>
            let s4 := match (s3.queue q).cur with
              | some c => if c.status.isSome then s3 else s3.malformed q
              | none => s3
            match (s4.queue q).cur with
            | some c => s4.complete q c (c.status.getD .accessFault)
            | none => .refused .wrongState
    | _, _ => .refused .wrongState

end Sys2Proof.Machine
end

