-- ==== Sys2Proof/Machine/Control.lean ====
section
/-!
DEFINITION. The control commands (R226, R231-R236, R532, R540): CTL_HURDLE to CTL_NOP, and the events of CTL_WAIT.
-/
namespace Sys2Proof.Machine

/-- A hurdle operand may be named by the queue's unit (R227, R232). -/
def State.hurdleArg (s : State) (q : QueueRef) (id : Nat) : Bool := hurdleOk false id && s.hurdleKnown q.node q.blk (s.queueTag q) id

/-- CTL_HURDLE's execution (R226, R233): its arrival is made once its generation is one the home counts. Run again after CANCELLED it arrives again, at the
queue's next generation, and waits for that one (R234; log entry 117). -/
def State.runHurdle (s : State) (q : QueueRef) (d : Nat) : State :=
  let id := bits d 128 16
  (s.modCur q fun c => { c with wait := .arrival id (Sparse.get 0 (s.queue q).arrivals id + 1) (bit d 144) }).wakeNode q.node

/-- CTL_HURDLE (R226, R233). -/
def execCtlHurdle (q : QueueRef) (s : State) : Out :=
  s.startHead q [0x50] (fun s d => s.hurdleArg q (bits d 128 16)) (fun s d => s.runHurdle q d)

/-- The compare of CTL_WAIT mode 1 and CTL_PREDICATE: 0 EQ, 1 NE, 2 GEU, 3 LTU, 4 ANY, 5 ALL (R226). -/
def waitCompare (cmp word mask value : Nat) : Bool :=
  let w := Nat.land word mask
  match cmp with
  | 0 => w == value | 1 => w != value | 2 => decide (value ≤ w) | 3 => decide (w < value) | 4 => w != 0 | _ => w == mask

/-- Read a control word (R557): its value, or the status that stops the command. -/
def State.controlWord (s : State) (q : QueueRef) (a : Nat) : Status × Nat × State :=
  let (st, bs, s) := s.get (s.walker q) a 8
  (st, leNat bs, s)

/-- Mode 1 reads its word: satisfied, or to be read again in 1 µs, or the read has failed. -/
def State.pollWord (s : State) (q : QueueRef) (d : Nat) : State :=
  let (st, w, s) := s.controlWord q (bits d 160 48)
  if st != .done then s.stopCmd q st
  else if waitCompare (bits d 132 3) w (bits d 320 64) (bits d 256 64) then s.endCmd q .done
  else s.modCur q fun c => { c with wait := .word (s.now + us) }

/-- CTL_WAIT's own checks (R227). -/
def State.waitOk (s : State) (q : QueueRef) (d : Nat) : Bool :=
  let m := bits d 128 2
  m != 3 && decide (bits d 132 3 < 6) && (m != 0 || s.hurdleArg q (bits d 144 16)) && (m != 1 || bits d 160 48 % 8 == 0)

/-- CTL_WAIT's execution. -/
def State.runWait (s : State) (q : QueueRef) (d : Nat) : State :=
  match bits d 128 2 with
  | 0 =>
    let id := bits d 144 16
    let g := Sparse.get 0 (s.queue q).waits id + 1
    let s := s.modQueue q fun x => { x with waits := Sparse.set x.waits id g }
    let s := s.hurdleEvent q 0x09 (s.queueTag q) id g
    (s.modCur q fun c => { c with wait := .hurdle id g }).wakeQueue q
  | 1 => s.pollWord q d
  | _ => if bits d 256 64 ≤ s.timeAt q.node then s.endCmd q .done else s.modCur q fun c => { c with wait := .time }

/-- CTL_WAIT (R226). -/
def execCtlWait (q : QueueRef) (s : State) : Out := s.startHead q [0x51] (fun s d => s.waitOk q d) (fun s d => s.runWait q d)

/-- The command in flight of a queue that waits in the way `p` allows. -/
def State.waitingCmd (s : State) (q : QueueRef) (p : CmdWait → Bool) : Option InFlight :=
  match (s.queue q).cur with
  | some c => if c.status.isNone && p c.wait then some c else none
  | none => none

/-- CTL_WAIT_POLL (R226): every 1 µs mode 1 reads its word again. -/
def execCtlWaitPoll (q : QueueRef) (s : State) : Out :=
  match s.waitingCmd q (fun w => match w with | .word _ => true | _ => false) with
  | some c => match c.wait with
    | .word t => need (decide (t ≤ s.now)) .notDue <| .next (s.pollWord q c.desc)
    | _ => .refused .wrongState
  | none => .refused .wrongState

/-- CTL_WAIT_LIMIT (R226): a CTL_WAIT that reaches its LIMIT completes TIMEOUT. -/
def execCtlWaitLimit (q : QueueRef) (s : State) : Out :=
  match s.waitingCmd q (fun w => w != .none) with
  | some c =>
    need (dOpcode c.desc == 0x51 && bits c.desc 384 32 != 0) .wrongState <|
    need (decide (c.start + bits c.desc 384 32 * us ≤ s.now)) .notDue <| .next (s.endCmd q .timeout)
  | none => .refused .wrongState

/-- CTL_WAIT_TIME_PASSED (R226): mode 2 completes when panel time passes VALUE. -/
def execCtlWaitTimePassed (q : QueueRef) (s : State) : Out :=
  match s.waitingCmd q (· == .time) with
  | some c => need (decide (bits c.desc 256 64 ≤ s.timeAt q.node)) .notDue <| .next (s.endCmd q .done)
  | none => .refused .wrongState

/-- Move the walk (R220, R235): the next descriptor, unless this one carries LAST. -/
def State.goto (s : State) (q : QueueRef) (d target : Nat) : State :=
  (s.modCur q fun c => { c with after := if dLast d then none else some target }).endCmd q .done

/-- CTL_JUMP (R235). -/
def execCtlJump (q : QueueRef) (s : State) : Out :=
  s.startHead q [0x52] (fun _ d => bits d 128 48 % 64 == 0) (fun s d => s.goto q d (bits d 128 48))

/-- The work of CTL_CALL: the address after it goes on the call stack. -/
def State.runCall (s : State) (q : QueueRef) (d : Nat) : State :=
  let a := ((s.queue q).cur.map InFlight.addr).getD 0
  (s.modQueue q fun x => { x with calls := (a + 64) :: x.calls }).goto q d (bits d 128 48)

/-- CTL_CALL (R227, R235): pushes the address of the next descriptor on the 8-entry call stack. -/
def execCtlCall (q : QueueRef) (s : State) : Out :=
  s.startHead q [0x53] (fun s d => bits d 128 48 % 64 == 0 && decide ((s.queue q).calls.length < 8)) fun s d => s.runCall q d

/-- The work of CTL_RET: the walk goes on at the top of the call stack. -/
def State.runRet (s : State) (q : QueueRef) (d : Nat) : State :=
  match (s.queue q).calls with
  | a :: rest => (s.modQueue q fun x => { x with calls := rest }).goto q d a
  | [] => s.endCmd q .done

/-- CTL_RET (R227, R235): pops the call stack. -/
def execCtlRet (q : QueueRef) (s : State) : Out :=
  s.startHead q [0x54] (fun s _ => !(s.queue q).calls.isEmpty) fun s d => s.runRet q d

/-- Write a predicate of a block. -/
def State.setPred (s : State) (node blk p : Nat) (v : Bool) : State :=
  s.modBlock node blk fun b => { b with preds := putBits b.preds p 1 (b2n v) }

/-- CTL_PREDICATE's execution (R235). -/
def State.runPredicate (s : State) (q : QueueRef) (d : Nat) : State :=
  let p := bits d 128 4
  let op := bits d 132 3
  let value := bits d 192 64
  let mask := bits d 256 64
  if op < 6 then
    let (st, w, s) := s.controlWord q (bits d 144 48)
    if st != .done then s.stopCmd q st
    else
      let cmp := match op with | 2 => 3 | 3 => 2 | o => o
      (s.setPred q.node q.blk p (waitCompare cmp w mask value)).endCmd q .done
  else
    let n := if op = 6 then value else (s.queue q).loop - 1
    ((s.modQueue q fun x => { x with loop := n }).setPred q.node q.blk p (n != 0)).endCmd q .done

/-- CTL_PREDICATE (R235); malformed in an edge-die list (R223) and with an unaligned word (R227). -/
def execCtlPredicate (q : QueueRef) (s : State) : Out :=
  s.startHead q [0x55] (fun _ d => decide (6 ≤ bits d 132 3) || bits d 144 48 % 8 == 0) (fun s d => s.runPredicate q d)

/-- The work of CTL_PHASE: a row of the phase table, and the phase where it says so. -/
def State.runPhase (s : State) (q : QueueRef) (d : Nat) : State :=
  let n := bits d 128 8
  (s.modBlock q.node q.blk fun b =>
    { b with phases := Sparse.set b.phases n ⟨bits d 136 4, bit d 140, bits d 144 4, bits d 148 28⟩,
             phase := if bit d 141 then some n else b.phase }).endCmd q .done

/-- CTL_PHASE (R236): declares a phase; with ENTER it becomes current for its block. -/
def execCtlPhase (q : QueueRef) (s : State) : Out :=
  s.startHead q [0x56] (fun _ _ => true) fun s d => s.runPhase q d

/-- A block's (or edge die's) queues have records in the intake (R532). -/
def State.unwritten (s : State) (q : QueueRef) : Bool := s.intake.any fun r => r.node == q.node && r.blk == q.blk

/-- The work of CTL_TALLY_FLUSH: it waits while a record of the block's is not yet written. -/
def State.runFlush (s : State) (q : QueueRef) : State :=
  if s.unwritten q then s.modCur q fun c => { c with wait := .tally } else s.endCmd q .done

/-- CTL_TALLY_FLUSH (R532): completes when every record that the block's queues have sent is written or dropped. -/
def execCtlTallyFlush (q : QueueRef) (s : State) : Out :=
  s.startHead q [0x57] (fun _ _ => true) fun s _ => s.runFlush q

/-- CTL_BREAK (R540): halts the block where CTLBRK_EN allows it; otherwise, after RESUME, and on an edge die (R223), it acts as CTL_NOP. -/
def execCtlBreak (q : QueueRef) (s : State) : Out :=
  match s.headDesc q with
  | some d =>
    if dOpcode d = 0x58 ∧ q.ok ∧ !isEdge q.node ∧ s.flag F.dbgBrk_ctlbrkEn q.node 0 q.blk ∧ !(s.queue q).passBreak
        ∧ (s.queue q).tag.isSome ∧ (s.queue q).cur.isNone ∧ s.unitRuns q ∧ s.forwards q ∧ (s.block q.node q.blk).stepping ≠ some q then
      .next (s.holdHead q 0 true (bits d 128 8))
    else s.startHead q [0x58] (fun _ _ => true) fun s _ => s.endCmd q .done
  | none => .refused .wrongState

/-- CTL_NOP (R223). -/
def execCtlNop (q : QueueRef) (s : State) : Out := s.startHead q [0x59] (fun _ _ => true) fun s _ => s.endCmd q .done

/-- HURDLE_ARRIVE (R231, R233): an arrival reaches the router or hub that is the hurdle's home and counts towards its generation. A job
hurdle's arrivals go on to the bellwether (R355). -/
def execHurdleArrive (p : Packet) (s : State) : Out :=
  need (p.op == .hurdleArrive && decide (p.dest < 182)) .noSuch <|
  need (!s.ahead p) .notDue <|
  match s.arrive p.dest p with
  | (none, s) => .next s
  | (some p, s) =>
    let id := bits p.oparg0 0 16
    let at' := (bits p.oparg0 16 8, bits p.oparg0 24 2)
    let g := bits p.oparg1 0 32
    let s := s.modJob p.jobTag fun j => match j.hurdle? id at' with
      | some h => j.setHurdle { h with coming := if Sparse.get 0 h.coming g ≤ 1 then Sparse.del h.coming g else Sparse.upd 0 h.coming g (· - 1) }
      | none => j
    .next ((s.countArrival p.jobTag id at' g (bit p.oparg1 32)).wakeNode p.dest)

/-- HURDLE_RELEASE (R231): a release reaches the waiters of a node. -/
def execHurdleRelease (p : Packet) (s : State) : Out :=
  need (p.op == .hurdleRelease && decide (p.dest < 182)) .noSuch <|
  need (!s.ahead p) .notDue <|
  match s.arrive p.dest p with
  | (none, s) => .next s
  | (some p, s) =>
    let id := bits p.oparg0 0 16
    let at' := (bits p.oparg0 16 8, bits p.oparg0 24 2)
    let g := bits p.oparg1 0 32
    let s := s.modJob p.jobTag fun j => match j.hurdle? id at' with
      | some h => j.setHurdle { h with told := Sparse.set h.told p.dest (max g (Sparse.get 0 h.told p.dest)) }
      | none => j
    .next ((s.event ⟨p.dest, pageOf .rtr p.dest 0, 0x3F, some p.jobTag⟩ 1 0x0A 0 (id + g * 2 ^ 16)).wakeNode p.dest)

end Sys2Proof.Machine
end

