-- ==== Sys2Proof/Machine/Jbe.lean ====
section
/-!
DEFINITION. The job engine (R196-R197, R241-R243, R353-R354, R381-R383, R531): JBE_SUBMIT, JBE_ABORT, JBE_QUERY, the submission and
completion queues, the tally ring.
-/
namespace Sys2Proof.Machine

/-- The job engine as a requester: a unit of the master hub that has no origin class (R410). -/
def State.jobEngine (s : State) (tag : Nat) : Requester := ⟨s.master, 0x14, tag⟩

/-- The entries of a table of `n` entries of `w` bytes, as numbers, and the status of its read (R557). -/
def State.readTable (s : State) (tag a w n : Nat) : Status × List Nat × State :=
  let (st, bs, s) := s.get (s.jobEngine tag) a (w * n)
  (st, (chunks w n bs).map leNat, s)

/-- A heft-table entry (R196). -/
def heftOf (e : Nat) : Heft :=
  { id := bits e 0 12, tag := bits e 12 6, first := bits e 20 8, last := bits e 28 8, blocks := bits e 36 4, offset := bits e 40 11,
    units := bits e 51 11, format := bits e 64 4, tokens := bits e 68 16 }

/-- The blocks a heft names that both name, by logical region and block. -/
def Heft.overlaps (a b : Heft) : Bool :=
  decide (a.first ≤ b.last) && decide (b.first ≤ a.last) && (List.range 4).any (fun i => bit a.blocks i && bit b.blocks i)
    && decide (a.offset < b.offset + b.units) && decide (b.offset < a.offset + a.units)

/-- R197: an entry of a submission under `tag`, after the entries `before` it. -/
def State.heftOk (s : State) (tag e : Nat) (before : List Heft) : Bool :=
  let h := heftOf e
  bits e 18 2 == 0 && bits e 62 2 == 0 && bits e 84 172 == 0 && h.id != 0 && h.tag == tag && decide (0 < h.units)
    && decide (h.units ≤ 1536) && decide (h.offset + h.units ≤ 1536) && decide (h.first ≤ h.last) && h.blocks != 0
    && (decide (h.format < 7) || decide (8 ≤ h.format ∧ h.format ≤ 10)) && decide (h.last < 12 * s.lcols)
    && before.all (fun b => b.id != h.id && !b.overlaps h) && s.hefts.all (fun b => !b.overlaps h)
    && (List.range (h.last + 1 - h.first)).all fun i => (List.range 4).all fun b =>
      !bit h.blocks b || decide (h.offset + h.units ≤ 1536 - s.fld F.blkPenCfg_poolUnits (s.nodeOf (h.first + i)) b)

/-- The index of the first heft entry that fails R197. -/
def State.badHeft (s : State) (tag : Nat) : Nat → List Heft → List Nat → Option Nat
  | _, _, [] => none
  | i, before, e :: rest => if s.heftOk tag e before then s.badHeft tag (i + 1) (heftOf e :: before) rest else some i

/-- The queue a start-table entry names (R242). -/
def State.startQueue (s : State) (e : Nat) : QueueRef :=
  if bit e 63 then ⟨156 + bits e 48 8, 0, 5, bits e 61 2⟩ else ⟨s.nodeOf (bits e 48 8), bits e 56 2, bits e 58 3, bits e 61 2⟩

/-- R241: a start entry that may stand. -/
def State.startOk (s : State) (e : Nat) : Bool :=
  bits e 64 64 == 0 && bits e 0 48 % 64 == 0 &&
    if bit e 63 then decide (bits e 48 8 < 24) && bits e 56 2 == 0 && bits e 58 3 == 5
    else decide (bits e 48 8 < 12 * s.lcols) && decide (bits e 58 3 < 5)

/-- No element occurs twice. -/
def distinct {α : Type} [DecidableEq α] : List α → Bool
  | [] => true
  | a :: rest => !rest.contains a && distinct rest

/-- R241: a hurdle entry that may stand (ARRIVALS is bits [37:26]). -/
def hurdleEntryOk (e : Nat) : Bool := hurdleOk false (bits e 0 16) && bits e 26 12 != 0

/-- A hurdle of a job's table (R242). -/
def hurdleOf (e : Nat) : Hurdle := { id := bits e 0 16, inst := bits e 16 8, blk := bits e 24 2, need := bits e 26 12 }

/-- The panel IDs of a member list, each 16 bits. -/
def memberIds (bs : List Byte) : List Nat := (chunks 2 (bs.length / 2) bs).map fun b => leNat b % 4096

/-- An entry for the completion queue that a descriptor's submission queue names (R382). -/
def State.cqAnswer (s : State) (f : Fetched) (kind tag : Nat) (st : Status) : State :=
  { s with cqStore := s.cqStore ++ [⟨f.hub, s.fld F.hubSqcfg_cq f.hub 0 f.sq, f.sq, f.index, st, kind, tag, f.head, s.now, 0, 0⟩] }

/-- KIND of a JBE opcode's entry (R382). -/
def jbeKind (d : Nat) : Nat := match dOpcode d with | 0x71 => 2 | 0x72 => 3 | _ => 0

/-- The checks of R227 that concern a JBE descriptor. -/
def jbeOk (d : Nat) : Bool :=
  match operandFields (dOpcode d) with
  | some fs => reservedClear d (headerFields ++ fs) && !dChecked d && !dProvisional d && dWait d == 0 && dSignal d == 0
  | none => false

/-- The address of a fetched descriptor in its ring. -/
def State.ringAddr (s : State) (f : Fetched) : Nat := s.fld F.hubSqcfg_base f.hub 0 f.sq + 64 * f.index

/-- Why a JBE_SUBMIT is refused before its tables are read (R241, R353, R521, R526, R531). -/
def State.submitRefused (s : State) (d : Nat) : Option Status :=
  let tag := dTag d
  let valid := s.flag F.hubCascadeB_valid 180 0 tag
  let ring := bits d 320 48
  if !s.flag F.hubBoot_ready 180 || (decide (1 ≤ s.fld F.hubBoot_updState 180) && decide (s.fld F.hubBoot_updState 180 ≤ 3)) then some .targetResetting
  else if s.flag F.hubGeometry_noCompute s.master || s.switching.newN.any (decide <| · < 8) then some .targetRetired
  else if (s.job? tag).isSome || bits d 176 16 == 0 || !jbeOk d then some .accessFault
  else if bit d 384 && !valid then some .accessFault
  else if bits d 368 16 != 0 && (ring % 64 != 0 ||
      !(decide (ring + 64 * bits d 368 16 ≤ 0x9000000000) || decide (0x300000000000 ≤ ring ∧ ring + 64 * bits d 368 16 ≤ 0x400000000000))) then
    some .accessFault
  else none

/-- A job as an accepted submission declares it (R233, R242-R243, R353). -/
def State.newJob (s : State) (f : Fetched) (starts hurdles : List Nat) : Job :=
  let d := f.desc
  { submitted := s.now, hub := f.hub, sq := f.sq, index := f.index, head := f.head,
    lists := starts.map fun e => { q := s.startQueue e, addr := bits e 0 48 }, hurdles := hurdles.map hurdleOf,
    tallyRing := bits d 320 48, tallyEntries := bits d 368 16, lockstep := bit d 384 }

/-- A cascade's member joins: the bellwether keeps the members, another member sends its JOIN (R353-R354). -/
def State.joinCascade (s : State) (tag : Nat) : State :=
  if !s.flag F.hubCascadeB_valid 180 0 tag then s else
  let (_, bs, s) := s.get (s.jobEngine tag) (s.fld F.hubCascade_members 180 0 tag) (2 * s.fld F.hubCascade_count 180 0 tag)
  let ids := memberIds bs
  let digest := (Config.listDigest bs).toNat
  let own := s.panelId
  let named := s.fld F.hubCascadeB_bellwether 180 0 tag
  let bell := if named = 0xFFF then ids.foldl min 0xFFF else named
  let early := s.earlyJoins.filter (·.1 == tag)
  let member := fun (i : Nat) => match early.find? (fun e => e.2.1 == i) with
    | some e => { panel := i, joined := true, digest := BitVec.ofNat 64 e.2.2, heard := s.now }
    | none => { panel := i, joined := i == own, digest := BitVec.ofNat 64 digest, heard := s.now : Member }
  let s := { s with earlyJoins := s.earlyJoins.filter (·.1 != tag) }
  let s := s.modJob tag fun j => { j with cascade := true, bell := bell, names := ids, heard := s.now,
                                          members := if bell = own then ids.map member else [],
                                          joinEnd := if bell = own then some (s.now + 10 * sec) else none }
  if bell = own then
    if early.any fun e => e.2.2 != digest then s.abortJob tag .accessFault else s
  else s.tellPanel bell (.hurdle bell own tag (.join digest))

/-- JBE_SUBMIT's effect (R197, R200, R218, R241-R242): refused with a status, or accepted: its hefts declared, its energy counter zeroed, its
lists given to their queues, its CQ entry made. -/
def State.submit (s : State) (f : Fetched) : State :=
  let d := f.desc
  let tag := dTag d
  match s.submitRefused d with
  | some st => s.cqAnswer f 0 tag st
  | none =>
    let (s1, starts, s) := s.readTable tag (bits d 128 48) 16 (bits d 176 16)
    let (s2, hefts, s) := s.readTable tag (bits d 192 48) 32 (bits d 240 12)
    let (s3, hurdles, s) := s.readTable tag (bits d 256 48) 8 (bits d 304 12)
    let rd := (s1.first s2).first s3
    if rd != .done then s.cqAnswer f 0 tag rd else
    match s.badHeft tag 0 [] hefts with
    | some i => (s.accessErr s.master (pageOf .hubMain s.master 0) (bits d 192 48 + 32 * i) .H .submission (some tag)).cqAnswer f 0 tag .accessFault
    | none =>
      if !(starts.all s.startOk && distinct (starts.map s.startQueue) && hurdles.all hurdleEntryOk
          && distinct (hurdles.map fun e => bits e 0 26)
          && (s.flag F.hubCascadeB_valid 180 0 tag || hurdles.all fun e => hurdleScope (bits e 0 16) != 6)) then
        s.cqAnswer f 0 tag .accessFault
      else
        let s := { s with hefts := s.hefts ++ hefts.map heftOf, plant := { s.plant with jobSeen := true } }
        let s := s.setWord .pwrEnergy s.master 0 tag 0
        let s := s.setJob tag (s.newJob f starts hurdles)
        let s := starts.foldl (fun s e => s.giveList (s.startQueue e) tag (bits e 0 48)) s
        (s.cqAnswer f 0 tag .done).joinCascade tag

/-- The oldest accepted descriptor of a JBE opcode. -/
def State.jbeHead (s : State) (op : Nat) (run : Fetched → State → State) : Out :=
  match s.jbe with
  | [] => .refused .noSuch
  | f :: rest => need (dOpcode f.desc == op) .wrongCommand <| .next (run f { s with jbe := rest })

/-- JBE_SUBMIT (R241): checks and accepts a job. -/
def execJbeSubmit (s : State) : Out := s.jbeHead 0x70 fun f s => s.submit f

/-- JBE_ABORT (R239): the job aborts with TARGET_RESETTING. A tag with no live job leaves nothing to abort. -/
def execJbeAbort (s : State) : Out := s.jbeHead 0x71 fun f s =>
  let t := bits f.desc 128 6
  if jbeOk f.desc then (s.cqAnswer f 2 t .done).abortJob t .targetResetting else s.cqAnswer f 2 t .accessFault

/-- The job record (R243). -/
def State.jobRecord (s : State) (tag : Nat) : Nat :=
  match s.job? tag with
  | none => 0
  | some j =>
    let st : Status := match j.abort with | some x => x | none => if j.poisoned then .poisoned else .done
    packFields [(0, 2, match j.state with | .running => 1 | .aborting => 2 | .completed => 3), (2, 4, st.code),
      (6, 12, (j.lists.filter (·.started)).length), (18, 12, (j.lists.filter (·.done)).length), (32, 64, j.submitted),
      (96, 64, (s.word .pwrEnergy s.master 0 tag).toNat)]

/-- JBE_QUERY (R227, R243): writes the record to OUT, which must be 64-byte aligned. -/
def execJbeQuery (s : State) : Out := s.jbeHead 0x72 fun f s =>
  let t := bits f.desc 128 6
  let out := bits f.desc 176 48
  if !jbeOk f.desc || out % 64 != 0 then s.cqAnswer f 3 t .accessFault
  else
    let (st, s) := s.putBytes (s.jobEngine t) out (leBytes 64 (s.jobRecord t))
    s.cqAnswer f 3 t st

/-- Entries of a ring: 2^LOG2, 4-12; other values act as 4 (R384). -/
def ringSize (log2 : Nat) : Nat := if 4 ≤ log2 ∧ log2 ≤ 12 then 2 ^ log2 else 16

/-- Size of a submission or completion ring. -/
def State.sqSize (s : State) (hub q : Nat) : Nat := ringSize (s.fld F.hubSqcfg_log2 hub 0 q)
def State.cqSize (s : State) (hub q : Nat) : Nat := ringSize (s.fld F.hubCqcfg_log2 hub 0 q)

/-- A CQ is full when its tail is one entry behind its head (R383). -/
def State.cqFull (s : State) (hub q : Nat) : Bool :=
  (s.fld F.hubCqstat_tail hub 0 q + 1) % s.cqSize hub q == s.fld F.hubCqstat_head hub 0 q

/-- Descriptors of a submission queue that are fetched and not yet accepted or refused. -/
def State.inFetch (s : State) (hub q : Nat) : Nat := (s.fetched.filter fun f => f.hub == hub && f.sq == q).length

/-- Entries pending in a submission queue and not fetched (R381). -/
def State.sqPending (s : State) (hub q : Nat) : Nat :=
  (s.fld F.hubSqstat_tail hub 0 q + s.sqSize hub q - s.fld F.hubSqstat_head hub 0 q) % s.sqSize hub q - s.inFetch hub q

/-- The hub that serves an endpoint's queues: the other one once it has failed (R384). -/
def State.servedHub (s : State) (hub : Nat) : Nat := if s.unit hub 0 = .retired then otherHub hub else hub

/-- A queue of an endpoint is served: after its hub has failed, only one whose ring lies in stack memory, or in host memory with DUAL (R384). -/
def State.ringServed (s : State) (hub base : Nat) : Bool :=
  s.unit hub 0 != .retired || decide (base < 0x9000000000) || s.flag F.hubHostcfg_dual 180

/-- The hub fetches from a queue: enabled, pending, its CQ not full (R381, R383). -/
def State.sqReady (s : State) (hub q : Nat) : Bool :=
  s.flag F.hubSqcfg_enable hub 0 q && s.ringServed hub (s.fld F.hubSqcfg_base hub 0 q) && decide (0 < s.sqPending hub q) && !s.flag F.hubCqstat_full hub 0 (s.fld F.hubSqcfg_cq hub 0 q)

/-- Read one descriptor of a ring (R381, R557). -/
def State.fetchOne (s : State) (hub q i : Nat) : State :=
  let (st, bs, s) := s.get ⟨s.servedHub hub, 0x14, 0⟩ (s.fld F.hubSqcfg_base hub 0 q + 64 * i) 64
  { s with fetched := s.fetched ++ [{ hub := hub, sq := q, index := i, desc := leNat bs, read := st }] }

/-- SQ_FETCH (R381): in round robin by queue number, up to 8 descriptors in ring order. -/
def execSqFetch (hub : Nat) (s : State) : Out :=
  need (isHub hub) .noSuch <|
  let last := Sparse.get 15 s.sqLast hub
  match ((List.range 16).map fun i => (last + 1 + i) % 16).find? (s.sqReady hub) with
  | none => .refused .wrongState
  | some q =>
    let at' := s.fld F.hubSqstat_head hub 0 q + s.inFetch hub q
    let n := s.sqSize hub q
    .next ((List.range (min 8 (s.sqPending hub q))).foldl (fun s i => s.fetchOne hub q ((at' + i) % n)) { s with sqLast := Sparse.set s.sqLast hub q })

/-- SQ_DESCRIPTOR (R381, R557): the oldest fetched descriptor is accepted or refused, and HEAD moves past it. -/
def execSqDescriptor (s : State) : Out :=
  match s.fetched with
  | [] => .refused .noSuch
  | f :: rest =>
    let f := { f with head := (f.index + 1) % s.sqSize f.hub f.sq }
    let s := { s with fetched := rest }.put F.hubSqstat_head f.hub 0 f.sq f.head
    let op := dOpcode f.desc
    if f.read != .done then .next (s.cqAnswer f (jbeKind f.desc) 0 f.read)
    else if !(op == 0x70 || op == 0x71 || op == 0x72) || !bit (s.fld F.hubSqtag_tagMask f.hub 0 f.sq) (dTag f.desc) then
      .next (s.cqAnswer f (jbeKind f.desc) (dTag f.desc) .accessFault)
    else .next { s with jbe := s.jbe ++ [f] }

/-- The 32-byte CQ entry (R382). -/
def CqEntry.record (e : CqEntry) (phase : Nat) : Nat :=
  packFields [(0, 12, e.index), (12, 4, e.sq), (16, 4, e.status.code), (20, 2, e.kind), (22, 6, e.tag), (28, 1, phase), (32, 12, e.head),
    (64, 64, e.time), (128, 64, e.energy), (192, 48, e.failAddr)]

/-- The vector of a completion queue: 0-47, larger values act as 47; raised at most once per 1 µs (R384-R385). -/
def State.cqVector (s : State) (hub q : Nat) : State :=
  match Sparse.find? s.cqRaised (hub * 16 + q) with
  | some t => if s.now < t + us then s else
      { s with cqRaised := Sparse.set s.cqRaised (hub * 16 + q) s.now }.say (.vector (s.servedHub hub) (min 47 (s.fld F.hubCqcfg_vector hub 0 q)))
  | none => { s with cqRaised := Sparse.set s.cqRaised (hub * 16 + q) s.now }.say (.vector (s.servedHub hub) (min 47 (s.fld F.hubCqcfg_vector hub 0 q)))

/-- The oldest entry that waits for a completion queue. -/
def State.cqNext (s : State) (hub q : Nat) : Option CqEntry := s.cqStore.find? fun e => e.hub == hub && e.cq == q

/-- In dual mode the other hub's endpoint first issues a zero-length read (R377). -/
def State.pushWrites (s : State) (hub : Nat) : State :=
  if s.flag F.hubHostcfg_dual 180 && s.unit (otherHub hub) 0 != .retired then s.say (.hostPush (otherHub hub)) else s

/-- Write an entry into its completion queue (R377, R382-R383): the phase inverts at each wrap; a JOB_END frees its job tag. -/
def State.cqPut (s : State) (hub q : Nat) (e : CqEntry) : State :=
  let tail := s.fld F.hubCqstat_tail hub 0 q
  let phase := s.fld F.hubCqstat_phase hub 0 q
  let next := (tail + 1) % s.cqSize hub q
  let (_, s) := (s.pushWrites (s.servedHub hub)).putBytes ⟨s.servedHub hub, 0x14, e.tag⟩ (s.fld F.hubCqcfg_base hub 0 q + 32 * tail) (leBytes 32 (e.record phase))
  let s := { s with cqStore := s.cqStore.erase e }
  let s := (s.put F.hubCqstat_tail hub 0 q next).put F.hubCqstat_phase hub 0 q (if next = 0 then 1 - phase else phase)
  let s := if e.kind = 1 then { s with jobs := Sparse.del s.jobs e.tag } else s
  s.cqVector hub q

/-- Entries for a full CQ wait (R383): FULL is set, the withheld descriptors are counted, vector 48 is raised. -/
def State.cqHold (s : State) (hub q : Nat) : State :=
  let s := (allBelow 16 fun i => s.flag F.hubSqcfg_enable hub 0 i && s.fld F.hubSqcfg_cq hub 0 i == q).foldl
    (fun s i => s.bump F.hubSqstat_stalledCq hub 0 i (s.sqPending hub i)) s
  (s.put F.hubCqstat_full hub 0 q 1).say (.vector (s.servedHub hub) 48)

/-- Write the entries that wait for a queue, in order, while it has room (R383). -/
def State.cqDrain (s : State) (hub q : Nat) : Nat → State
  | 0 => s
  | fuel + 1 =>
    match s.cqNext hub q with
    | none => s.put F.hubCqstat_full hub 0 q 0
    | some e => if s.cqFull hub q then s else (s.cqPut hub q e).cqDrain hub q fuel

/-- CQ_ENTRY_WRITE (R382-R383): the oldest entry for a completion queue is written, or waits because the queue is full. -/
def execCqEntryWrite (hub q : Nat) (s : State) : Out :=
  need (isHub hub && decide (q < 16)) .noSuch <|
  match s.cqNext hub q with
  | none => .refused .noSuch
  | some e =>
    need (s.flag F.hubCqcfg_enable hub 0 q && s.ringServed hub (s.fld F.hubCqcfg_base hub 0 q)) .wrongState <|
    if s.cqFull hub q then
      need (!s.flag F.hubCqstat_full hub 0 q) .wrongState <| .next (s.cqHold hub q)
    else
      let s := s.cqPut hub q e
      .next (if (s.cqNext hub q).isNone then s.put F.hubCqstat_full hub 0 q 0 else s)

/-- Wake the CTL_TALLY_FLUSH commands whose unit has no record left in the intake (R532). -/
def State.wakeTally (s : State) (node blk : Nat) : State :=
  (unitQueues node blk).foldl (fun s q => match s.waitingCmd q (· == .tally) with
    | some _ => if s.unwritten q then s else s.endCmd q .done
    | none => s) s

/-- TALLY_RECORD (R531-R532): the oldest record of the intake takes its SEQ and is written to its job's ring. A record of a job that is gone
is dropped. -/
def execTallyRecord (s : State) : Out :=
  match s.intake with
  | [] => .refused .noSuch
  | r :: rest =>
    let s := { s with intake := rest }.put F.hubTally_intake 180 0 0 rest.length
    let s := match s.job? r.tag with
      | some j =>
        if j.tallyEntries = 0 then s else
        let rec' := putBits r.bits 88 24 j.tallySeq
        let (_, s) := s.putBytes (s.jobEngine r.tag) (j.tallyRing + 64 * (j.tallySeq % j.tallyEntries)) (leBytes 64 rec')
        s.modJob r.tag fun j => { j with tallySeq := j.tallySeq + 1 }
      | none => s
    .next ((s.wakeTally r.node r.blk).jobSettle r.tag)

end Sys2Proof.Machine
end

