-- ==== Sys2Proof/Machine/HostPort.lean ====
section
/-!
DEFINITION. The endpoints and guest ports of the hubs (ch. 12): BAR2, doorbells, endpoint resets, the firewall.
-/
namespace Sys2Proof.Machine

/-- The endpoint and guest port of a hub. -/
def State.endpoint (s : State) (hub : Nat) : Endpoint := Sparse.get {} s.endpoints hub

/-- Change it. -/
def State.modEndpoint (s : State) (hub : Nat) (f : Endpoint → Endpoint) : State :=
  { s with endpoints := Sparse.set s.endpoints hub (f (s.endpoint hub)) }

/-- The BARs are served: bring-up has passed step 4, and the endpoint is not held in reset (R521, R551). -/
def State.barsUp (s : State) (hub : Nat) : Bool :=
  decide (4 < s.fld F.hubBoot_step 180) && !(s.endpoint hub).perst && s.unit hub 0 != .retired

/-- Record a refusal of an endpoint: origin H, the HUB_ host page (R375, R409). -/
def State.hostRefused (s : State) (hub addr : Nat) (k : AccessKind) : State := s.accessErr hub (pageOf .hubHost hub 0) addr .H k

/-- Answer a host read (R375). -/
def State.answerHost (s : State) (hub : Nat) (r : HostReq) : State :=
  let s := s.modEndpoint hub fun e => { e with reqs := e.reqs.filter fun x => x.tag != r.tag }
  let data := (r.got.flatMap (·.2)).take r.n
  match r.status with
  | .done | .penLate => s.say (.hostRead hub r.tag data)
  | .poisoned => s.say (.hostPoisoned hub r.tag data)
  | .accessFault | .routeNone => (s.say (.hostError hub r.tag true)).hostRefused hub r.addr .hole
  | _ => (s.say (.hostError hub r.tag true)).hostRefused hub r.addr .value

/-- A part of a host read has come back (R375); a read answered before drops it as an orphan. -/
def State.hostReply (s : State) (hub tag addr : Nat) (st : Status) (bs : List Byte) : State :=
  match (s.endpoint hub).reqs.find? (·.tag == tag) with
  | none => s.modRouter hub fun r => { r with orphans := r.orphans + 1 }
  | some r =>
    let r := { r with got := Sparse.set r.got (addr - r.addr) bs, left := r.left - 1,
                      status := if st = .penLate then r.status else r.status.first st }
    if r.left = 0 then s.answerHost hub r
    else s.modEndpoint hub fun e => { e with reqs := e.reqs.map fun x => if x.tag == tag then r else x }

/-- BAR2_ACCESS (R374, R412): a host read of `n` bytes under the host's tag, or a posted write. Register and host ranges are refused without
effect; misaligned accesses, and writes narrower than 32 bits, are refused. -/
def execBar2Access (hub tag off n : Nat) (data : Option (List Byte)) (s : State) : Out :=
  need (isHub hub && decide (off + n ≤ 2 ^ 36) && decide (0 < n) && decide (n ≤ 4096)
    && (match data with | some d => d.length == n | none => !(s.endpoint hub).reqs.any (·.tag == tag))) .noSuch <|
  let read := data.isNone
  let refused := fun (k : AccessKind) (a : Nat) =>
    Host.Outcome.next ((if read then s.say (.hostError hub tag true) else s).hostRefused hub a k)
  if !s.barsUp hub then (if read then .next (s.say (.hostError hub tag true)) else .next s)
  else if off % min n 8 ≠ 0 then refused .misaligned off
  else if !read && decide (n < 4) then refused .narrow off
  else
    let a := s.fld F.hubBar2Win_base hub * 2 ^ 36 + off
    let jt := if s.flag F.hubBar2Win_tagEn hub then s.fld F.hubBar2Win_jobTag hub else 64
    if 0x200000000000 ≤ a ∧ a < 0x400000000000 then refused .hole a
    else
      let parts := accessParts 10 a n
      match data with
      | some d => .next (parts.foldl (fun s p => s.sendBytes hub 0x10 jt p.1 ((d.drop (p.1 - a)).take p.2) false false .plain) s)
      | none =>
        let s := s.modEndpoint hub fun e => { e with reqs := e.reqs ++ [{ tag := tag, addr := a, n := n, time := s.now, left := parts.length }] }
        .next (parts.foldl (fun s p =>
          s.request hub { op := .readReq, cls := 2, srcUnit := 0x10, jobTag := jt, addr := p.1, oparg0 := p.2 } (.host hub tag)) s)

/-- HOST_COMPLETION_TIMEOUT (R375): 900 µs without the panel's reply; what still comes is an orphan. -/
def execHostCompletionTimeout (hub tag : Nat) (s : State) : Out :=
  need (isHub hub) .noSuch <|
  match (s.endpoint hub).reqs.find? (·.tag == tag) with
  | none => .refused .noSuch
  | some r =>
    need (decide (r.time + 900 * us ≤ s.now)) .notDue <|
    let s := { s with outstanding := s.outstanding.filter fun x => x.purpose != Purpose.host hub tag }
    .next (s.answerHost hub { r with status := .timeout })

/-- A doorbell is refused (R380): OVERRUN, ACCESS_ERR, vector 48. -/
def State.overrun (s : State) (hub off : Nat) (f : Field) (n : Nat) : State :=
  ((s.put f hub 0 n 1).hostRefused hub off .value).say (.vector hub 48)

/-- A new tail of a submission queue is accepted, or refused as an overrun (R380). Entries whose fetch a full CQ withholds are counted (R383). -/
def State.newTail (s : State) (hub q v : Nat) : State :=
  let size := s.sqSize hub q
  let head := s.fld F.hubSqstat_head hub 0 q
  let tail := s.fld F.hubSqstat_tail hub 0 q
  if size ≤ v ∨ (head + 2 * size - tail - 1) % size < (v + size - tail) % size then
    s.overrun hub (q * 0x1000) F.hubSqstat_overrun q
  else
    let s := s.put F.hubSqstat_tail hub 0 q v
    if s.flag F.hubSqcfg_enable hub 0 q && s.flag F.hubCqstat_full hub 0 (s.fld F.hubSqcfg_cq hub 0 q) then
      s.bump F.hubSqstat_stalledCq hub 0 q ((v + size - tail) % size)
    else s

/-- A new head of a completion queue is accepted, after which held entries are written (R383), or refused as an overrun (R380). -/
def State.newHead (s : State) (hub q v : Nat) : State :=
  let size := s.cqSize hub q
  let head := s.fld F.hubCqstat_head hub 0 q
  let tail := s.fld F.hubCqstat_tail hub 0 q
  if size ≤ v ∨ (tail + size - head) % size < (v + size - head) % size then
    s.overrun hub (0x10000 + q * 0x1000) F.hubCqstat_overrun q
  else
    let s := s.put F.hubCqstat_head hub 0 q v
    if s.flag F.hubCqstat_full hub 0 q then s.cqDrain hub q (s.cqStore.length + 1) else s

/-- What a doorbell reads as, the value last accepted; other bytes of BAR4 read 0 (R379). -/
def State.doorbell (s : State) (hub off : Nat) : Nat :=
  let q := off / 0x1000
  if 8 ≤ off % 0x1000 then 0
  else if q < 16 then s.fld F.hubSqstat_tail hub 0 q / 2 ^ (8 * (off % 0x1000))
  else if q < 32 then s.fld F.hubCqstat_head hub 0 (q - 16) / 2 ^ (8 * (off % 0x1000))
  else 0

/-- An access of BAR4 (R379-R380, R412, R521): a host read of `n` bytes under the host's tag, or a posted write. A doorbell write wakes the panel
(R468). Bits [63:12] of a doorbell must be 0. -/
def State.bar4 (s : State) (hub tag off n : Nat) (data : Option (List Byte)) : State :=
  let q := off / 0x1000
  if !s.barsUp hub then (if data.isNone then s.say (.hostError hub tag true) else s)
  else match data with
  | none =>
    if off % n ≠ 0 then (s.say (.hostError hub tag true)).hostRefused hub off .misaligned
    else s.say (.hostRead hub tag (leBytes n (s.doorbell hub off)))
  | some bs =>
    if off % n ≠ 0 then s.hostRefused hub off .misaligned
    else if 32 ≤ q ∨ 8 ≤ off % 0x1000 then s.hostRefused hub off .hole
    else if n < 4 then s.hostRefused hub off .narrow
    else
      let s := s.wakeEvent 2 (q + 2048 * (hub - 180))
      let v := leNat bs
      if off % 0x1000 = 0 then (if q < 16 then s.newTail hub q v else s.newHead hub (q - 16) v)
      else if v = 0 then s
      else if q < 16 then s.overrun hub off F.hubSqstat_overrun q else s.overrun hub off F.hubCqstat_overrun (q - 16)

/-- A host access of 1, 2, 4 or 8 bytes within the 1 MiB of BAR4 (R373, R412). -/
def bar4Fits (off n : Nat) (data : Option (List Byte)) : Bool :=
  [1, 2, 4, 8].contains n && decide (off + n ≤ 2 ^ 20) && (match data with | some d => d.length == n | none => true)

/-- SQ_DOORBELL (R379-R380, R468): an access of the doorbells of the submission queues, the first 64 KiB of BAR4. -/
def execSqDoorbell (hub tag off n : Nat) (data : Option (List Byte)) (s : State) : Out :=
  need (isHub hub && bar4Fits off n data && decide (off < 0x10000)) .noSuch <| .next (s.bar4 hub tag off n data)

/-- CQ_DOORBELL (R379-R380, R383): an access of the rest of BAR4: the doorbells of the completion queues, and the pages that hold none. -/
def execCqDoorbell (hub tag off n : Nat) (data : Option (List Byte)) (s : State) : Out :=
  need (isHub hub && bar4Fits off n data && decide (0x10000 ≤ off)) .noSuch <| .next (s.bar4 hub tag off n data)

/-- Take every copy of a register of a page back to its reset value. -/
def State.resetCopies (s : State) (r : Reg) (node b n : Nat) : State :=
  { s with regs := (List.range n).foldl (fun m i => Sparse.del m (r.key node b i)) s.regs }

/-- A reset of an endpoint (R372): its jobs abort TARGET_RESETTING and their JOB_END entries are discarded; its queues and window return to
their reset values. -/
def State.resetEndpoint (s : State) (hub : Nat) : State :=
  let mine := (s.jobs.filter fun e => e.2.hub == hub).map (·.1)
  let s := mine.foldl (fun s t => (s.modJob t fun j => { j with silent := true }).abortJob t .targetResetting) s
  let s := { s with cqStore := s.cqStore.filter (fun e => e.hub != hub), fetched := s.fetched.filter (fun f => f.hub != hub),
                    jbe := s.jbe.filter fun f => f.hub != hub }
  let s := mine.foldl (fun s t => s.jobSettle t) s
  let s := [Reg.hubSqcfg, .hubSqtag, .hubSqstat, .hubCqcfg, .hubCqstat].foldl (fun s r => s.resetCopies r hub 0 16) s
  let s := s.resetCopies .hubBar2Win hub 0 1
  let s := { s with sqLast := Sparse.del s.sqLast hub, cqRaised := s.cqRaised.filter fun e => e.1 / 16 != hub }
  let s := { s with outstanding := s.outstanding.filter fun x => match x.purpose with | .host h _ => h != hub | _ => true }
  s.modEndpoint hub fun e => { e with reqs := [] }

/-- FLR (R372). -/
def execFlr (hub : Nat) (s : State) : Out := need (isHub hub) .noSuch <| .next (s.resetEndpoint hub)

/-- PERST (R372, R551): PERST_N asserted holds the endpoint in conventional reset. -/
def execPerst (hub : Nat) (s : State) : Out :=
  need (isHub hub) .noSuch <| .next ((s.resetEndpoint hub).modEndpoint hub fun e => { e with perst := true })

/-- PERST_RELEASE (R551). -/
def execPerstRelease (hub : Nat) (s : State) : Out :=
  need (isHub hub) .noSuch <| need ((s.endpoint hub).perst) .wrongState <| .next (s.modEndpoint hub fun e => { e with perst := false })

/-- A queue register refuses ENABLE with a base outside the host and stack ranges, or a misaligned base (R378). -/
def refusesQueue (align en : Nat) (new : Word) : Bool :=
  let b := wordField new 0 48
  wordField new en 1 == 1 && (b % align != 0 || !(decide (b < 0x9000000000) || decide (0x300000000000 ≤ b ∧ b < 0x400000000000)))

/-- Clearing ENABLE of a submission queue resets HEAD and TAIL (R384). -/
def State.onSqcfg (s : State) (hub n : Nat) : State :=
  if s.flag F.hubSqcfg_enable hub 0 n then s
  else { (s.put F.hubSqstat_head hub 0 n 0).put F.hubSqstat_tail hub 0 n 0 with fetched := s.fetched.filter fun f => !(f.hub == hub && f.sq == n) }

/-- HUB_HOSTCFG is written only while no submission queue is enabled on either endpoint (R424). -/
def State.queuesOff (s : State) : Bool := !([180, 181].any fun h => (List.range 16).any fun n => s.flag F.hubSqcfg_enable h 0 n)

/-- The window of the firewall that holds an address range (R387, R390). -/
def State.guestWindow (s : State) (hub a n : Nat) : Option Nat :=
  firstBelow 8 fun i => s.flag F.hubFwin_valid hub 0 i && decide (s.fld F.hubFwin_base hub 0 i ≤ a / 4096)
    && decide ((a + n - 1) / 4096 ≤ s.fld F.hubFlim_limit hub 0 i)

/-- The range lies in the guest's mailbox page (R387, R391). -/
def inMailbox (hub a n : Nat) : Bool :=
  let base := 0x200000000000 + hub * 0x40000 + 0x3000
  decide (base ≤ a) && decide (a + n ≤ base + 0x1000)

/-- A window that reaches into the register range is refused at VALID (R390). -/
def refusesWindow (win lim : Word) : Bool :=
  wordField win 0 1 == 1 && decide (wordField win 12 36 * 4096 < 0x300000000000) && decide (0x200000000000 ≤ wordField lim 12 36 * 4096 + 4095)
    && decide (wordField win 12 36 ≤ wordField lim 12 36)

/-- The first check of R387 that refuses a guest's packet: its step less one. -/
def State.guestCheck (s : State) (hub : Nat) (p : Packet) : Option Nat :=
  let n := max 1 p.extent
  if !bit (s.fld F.hubFcfg_classMask hub) p.cls then some 0
  else match s.guestWindow hub p.addr n with
    | none => if inMailbox hub p.addr n then none else some 1
    | some i =>
      let ok := match p.op with
        | .readReq | .mgmt => s.flag F.hubFwin_read hub 0 i
        | .write | .penPut => s.flag F.hubFwin_write hub 0 i
        | .atomicAdd => s.flag F.hubFwin_atomic hub 0 i
        | .penReq | .penRelease => s.flag F.hubFwin_pen hub 0 i
        | _ => false
      if !ok then some 2
      else if 0x200000000000 ≤ p.addr ∧ p.addr < 0x300000000000 ∧ !inMailbox hub p.addr n then some 3 else none

/-- The guest's tokens now, in sixteenths of a byte (R388): RATE × 0.25 GB/s is RATE sixteenths of a byte every 250 ps. -/
def State.guestTokens (s : State) (hub : Nat) : Nat :=
  let e := s.endpoint hub
  let cap := max 1 (s.fld F.hubFcfg_burst hub) * 1024 * 16
  match e.tokens with
  | some t => min cap (t + (s.now - e.counted) * min 128 (max 1 (s.fld F.hubFcfg_rate hub)))
  | none => cap

/-- Reply to the guest (R386): a completion of its own request. -/
def State.guestAnswer (s : State) (hub : Nat) (p : Packet) (st : Status) : State :=
  s.say (.guestReply hub { op := .completion, cls := 1, srcUnit := p.srcUnit, txn := p.txn, addr := p.addr, status := st.code, jobTag := p.jobTag })

/-- Pens the guest holds or has asked for, from the hub's holder table (R388). -/
def State.guestPens (s : State) (hub : Nat) : Nat :=
  let u := s.holderUnit hub 0xF0
  (u.holders.filter fun h => decide (0xF0 ≤ h.unit)).length + (u.waiting.filter fun w => decide (0xF0 ≤ w.pkt.srcUnit)).length

/-- GUEST_PACKET (R386-R388): an unsolicited C1 packet is discarded and counted; a packet that a check refuses is answered FENCE_DENIED; the
others are metered (`since`: when the packet was first offered), rewritten and injected. -/
def execGuestPacket (hub : Nat) (p : Packet) (since : Nat) (s : State) : Out :=
  need (isHub hub && s.unit hub 0 != .retired && decide (since ≤ s.now)) .noSuch <|
  if p.op.cls = 1 then .next (s.modRouter hub fun r => { r with orphans := r.orphans + 1 }) else
  if s.guestShut hub then
    -- R20: whatever it is, and no check of R387 is the one that refused it
    let s := (s.bump F.hubFstat_denied hub 0 0).accessErr hub (pageOf .hubFence hub 0) p.addr .G .hole
    .next (if p.op.isRequest then s.guestAnswer hub p .fenceDenied else s)
  else match s.guestCheck hub p with
  | some k =>
    let s := (s.bump F.hubFstat_denied hub 0 0).put F.hubFstat_lastCheck hub 0 0 k
    let s := s.accessErr hub (pageOf .hubFence hub 0) p.addr .G .hole
    .next (if p.op.isRequest then s.guestAnswer hub p .fenceDenied else s)
  | none =>
    need (decide (p.payload.length * 16 ≤ s.guestTokens hub)) .notDue <|
    let s := s.modEndpoint hub fun e => { e with tokens := some (s.guestTokens hub - p.payload.length * 16), counted := s.now }
    let s := s.bump F.hubFstat_rateStalls hub 0 0 ((s.now - since) / us)
    let tag := match s.guestWindow hub p.addr (max 1 p.extent) with | some i => s.fld F.hubFwin_jobTag hub 0 i | none => 0
    let q := { p with jobTag := tag, srcUnit := 0xF0 + p.srcUnit % 16, link := none }
    let purpose : Purpose := .guest hub p.srcUnit p.txn
    if p.op == .penReq then
      if s.fld F.hubFcfg_penMax hub ≤ s.guestPens hub then .next (s.guestAnswer hub p .penFull)
      else .next (s.penAsk hub q purpose)
    else .next (s.request hub q purpose)

/-- A reply to a guest's request crosses to it (R386). -/
def State.guestReply (s : State) (hub unit txn : Nat) (p : Packet) : State := s.say (.guestReply hub { p with srcUnit := unit, txn := txn })

/-- GUEST_LINK_DOWN (R389): replies to come are orphans; the guest's pens are released, its pending pen requests complete TARGET_RESETTING. -/
def execGuestLinkDown (hub : Nat) (s : State) : Out :=
  need (isHub hub) .noSuch <|
  let u := s.holderUnit hub 0xF0
  let guest := fun (x : Nat) => decide (0xF0 ≤ x)
  let mine := u.holders.filter fun h => guest h.unit
  let waits := u.waiting.filter fun w => guest w.pkt.srcUnit
  let s := s.updHolders hub 0xF0 { u with holders := u.holders.filter (fun h => !guest h.unit), waiting := u.waiting.filter fun w => !guest w.pkt.srcUnit }
  let s := mine.foldl (fun s h =>
    if h.granted then (if h.revoked then s else s.sendRelease hub h.unit h.tag h.base .penOrphan)
    else match s.outstanding.find? (fun r => r.node == hub && r.unit == h.unit && r.txn == h.txn) with
      | some r => match r.purpose with
        | .guest _ unit txn => s.guestAnswer hub { op := .penReq, cls := 2, srcUnit := unit, txn := txn, addr := r.addr } .targetResetting
        | _ => s
      | none => s) s
  let s := waits.foldl (fun s w => match w.purpose with
    | .guest _ unit txn => s.guestAnswer hub { w.pkt with srcUnit := unit, txn := txn } .targetResetting | _ => s) s
  let settle := fun (r : Request) => match r.purpose with
    | .guest h _ _ => if h = hub then (if r.op == .penReq then some { r with purpose := .penOrphan } else none) else some r
    | _ => some r
  .next ({ s with outstanding := s.outstanding.filterMap settle }.penNextAll hub 0xF0)

/-- GUEST_DOORBELL (R391): the guest writes mailbox offset 0x300; with no die at the site it is refused (R20). -/
def execGuestDoorbell (hub : Nat) (s : State) : Out :=
  need (isHub hub) .noSuch <| .next (if s.guestShut hub then s.bump F.hubFstat_denied hub 0 0 else s.say (.vector hub 55))

/-- GUEST_INTERRUPT (R391): H or F writes mailbox offset 0x308; another origin is refused (R411). -/
def execGuestInterrupt (hub : Nat) (o : Origin) (s : State) : Out :=
  need (isHub hub) .noSuch <|
  if o = .H ∨ o = .F then .next (s.say (.guestInterrupt hub)) else .next (s.accessErr hub (pageOf .hubHost hub 0) (regAddr hub 3 0x308) o .notWriter)

end Sys2Proof.Machine
end

