-- ==== Sys2Proof/Machine/Float.lean ====
section
/-!
DEFINITION. Binary floating point (R88, IEEE 754): decoding, exact operations on the decoded values, one rounding. Every NaN produced is
the canonical quiet NaN.
-/
namespace Sys2Proof.Machine

/-- A binary interchange format: exponent and mantissa bits. -/
structure FFmt where
  eb : Nat
  mb : Nat
  deriving DecidableEq, Repr

/-- The formats of R88, and the double precision of the scalar cell (R176). -/
def f32 : FFmt := ⟨8, 23⟩
def bf16 : FFmt := ⟨8, 7⟩
def f16 : FFmt := ⟨5, 10⟩
def f64 : FFmt := ⟨11, 52⟩

/-- A decoded value: NaN (signalling or quiet), infinity, or (-1)^neg × m × 2^e. -/
inductive Fl where
  | nan (signalling : Bool)
  | inf (neg : Bool)
  | fin (neg : Bool) (m : Nat) (e : Int)
  deriving DecidableEq, Repr

/-- Exponent of the smallest subnormal. -/
def FFmt.qmin (f : FFmt) : Int := 2 - (2 ^ (f.eb - 1) : Nat) - (f.mb : Int)

/-- Decode a code of a format (R88). -/
def FFmt.decode (f : FFmt) (v : Nat) : Fl :=
  let neg := bit v (f.eb + f.mb)
  let e := bits v f.mb f.eb
  let m := bits v 0 f.mb
  if e = 2 ^ f.eb - 1 then (if m = 0 then .inf neg else .nan (!bit v (f.mb - 1)))
  else if e = 0 then .fin neg m f.qmin
  else .fin neg (2 ^ f.mb + m) (f.qmin + (e : Int) - 1)

/-- The canonical quiet NaN (R88). -/
def FFmt.nan (f : FFmt) : Nat := (2 ^ f.eb - 1) * 2 ^ f.mb + 2 ^ (f.mb - 1)

/-- The infinity of a sign. -/
def FFmt.inf (f : FFmt) (neg : Bool) : Nat := b2n neg * 2 ^ (f.eb + f.mb) + (2 ^ f.eb - 1) * 2 ^ f.mb

/-- The zero of a sign. -/
def FFmt.zero (f : FFmt) (neg : Bool) : Nat := b2n neg * 2 ^ (f.eb + f.mb)

/-- Rounding directions: to nearest even, towards zero, down, up, to nearest with ties away. -/
inductive Rm where
  | rne | rtz | rdn | rup | rmm
  deriving DecidableEq, Repr

/-- A rounded result: its code, and whether it is inexact, has overflowed, or is tiny and inexact. -/
structure Rounded where
  code : Nat
  inexact : Bool := false
  overflow : Bool := false
  tiny : Bool := false
  deriving DecidableEq, Repr

/-- Divide by 2^s and round the quotient. -/
def roundShift (rm : Rm) (neg : Bool) (m s : Nat) : Nat × Bool :=
  let q := m / 2 ^ s
  let r := m % 2 ^ s
  let half := 2 ^ s / 2
  let up := match rm with
    | .rne => decide (half < r) || (r == half && q % 2 == 1)
    | .rmm => decide (half ≤ r)
    | .rtz => false
    | .rdn => neg && r != 0
    | .rup => !neg && r != 0
  if s = 0 then (m, false) else (if up && r != 0 then q + 1 else q, r != 0)

/-- Round (-1)^neg × m × 2^e once to a format, honouring subnormals; 0 keeps the sign given. -/
def FFmt.round (f : FFmt) (rm : Rm) (neg : Bool) (m : Nat) (e : Int) : Rounded :=
  if m = 0 then ⟨f.zero neg, false, false, false⟩ else
  let top := (Nat.log2 m : Int) + e
  let q := max (top - (f.mb : Int)) f.qmin
  let (k, inexact) := if q ≤ e then (m * 2 ^ (e - q).toNat, false) else roundShift rm neg m (q - e).toNat
  let code := (q - f.qmin).toNat * 2 ^ f.mb + k
  let sign := b2n neg * 2 ^ (f.eb + f.mb)
  if (2 ^ f.eb - 1) * 2 ^ f.mb ≤ code then
    let big := match rm with | .rtz => false | .rdn => neg | .rup => !neg | _ => true
    ⟨if big then f.inf neg else sign + (2 ^ f.eb - 1) * 2 ^ f.mb - 1, true, true, false⟩
  else
    let u := top - (f.mb : Int)
    let wide := if u ≤ e then 0 else (roundShift rm neg m (u - e).toNat).1
    let emin := f.qmin + (f.mb : Int)
    let small := decide (top + 1 < emin) || (decide (top + 1 = emin) && wide != 2 ^ (f.mb + 1))
    ⟨sign + code, inexact, false, inexact && small⟩

/-- Round to nearest even and keep the code only. -/
def FFmt.rne (f : FFmt) (neg : Bool) (m : Nat) (e : Int) : Nat := (f.round .rne neg m e).code

/-- The code of a decoded value, rounded to nearest even. -/
def FFmt.encode (f : FFmt) : Fl → Nat
  | .nan _ => f.nan
  | .inf n => f.inf n
  | .fin n m e => f.rne n m e

/-- A signed integer times 2^e as a decoded value; an exact 0 takes the sign given. -/
def flInt (zneg : Bool) (i : Int) (e : Int) : Fl := if i = 0 then .fin zneg 0 e else .fin (decide (i < 0)) i.natAbs e

/-- The signed mantissa of a finite value. -/
def signed (neg : Bool) (m : Nat) : Int := if neg then -(m : Int) else m

/-- Exact sum; `down`: the rounding direction is down, in which an exact zero sum is -0. -/
def Fl.add (a b : Fl) (down : Bool := false) : Fl :=
  match a, b with
  | .nan s, .nan t => .nan (s || t)
  | .nan s, _ => .nan s
  | _, .nan s => .nan s
  | .inf n, .inf m => if n = m then .inf n else .nan true
  | .inf n, _ => .inf n
  | _, .inf n => .inf n
  | .fin n m e, .fin n' m' e' =>
    let q := min e e'
    let i := signed n (m * 2 ^ (e - q).toNat) + signed n' (m' * 2 ^ (e' - q).toNat)
    flInt (if m = 0 ∧ m' = 0 ∧ n = n' then n else down) i q

/-- The other sign. -/
def Fl.neg : Fl → Fl
  | .nan s => .nan s
  | .inf n => .inf (!n)
  | .fin n m e => .fin (!n) m e

/-- Exact product. -/
def Fl.mul (a b : Fl) : Fl :=
  match a, b with
  | .nan s, .nan t => .nan (s || t)
  | .nan s, _ => .nan s
  | _, .nan s => .nan s
  | .inf n, .inf m => .inf (n != m)
  | .inf n, .fin m k _ => if k = 0 then .nan true else .inf (n != m)
  | .fin m k _, .inf n => if k = 0 then .nan true else .inf (n != m)
  | .fin n m e, .fin n' m' e' => .fin (n != n') (m * m') (e + e')

/-- A value is a NaN, an infinity, a zero. -/
def Fl.isNan : Fl → Bool | .nan _ => true | _ => false
def Fl.isInf : Fl → Bool | .inf _ => true | _ => false
def Fl.isZero : Fl → Bool | .fin _ m _ => m == 0 | _ => false

/-- The sign of a value that is no NaN. -/
def Fl.sign : Fl → Bool | .nan _ => false | .inf n => n | .fin n _ _ => n

/-- a < b for values that are no NaN; zeros of both signs are equal. -/
def Fl.lt (a b : Fl) : Bool :=
  match a, b with
  | .nan _, _ | _, .nan _ => false
  | .inf n, .inf m => n && !m
  | .inf n, _ => n
  | _, .inf n => !n
  | .fin n m e, .fin n' m' e' =>
    let q := min e e'
    decide (signed n (m * 2 ^ (e - q).toNat) < signed n' (m' * 2 ^ (e' - q).toNat))

/-- Equality as values. -/
def Fl.eq (a b : Fl) : Bool := !a.isNan && !b.isNan && !a.lt b && !b.lt a

/-- A quotient's mantissa and exponent with a sticky bit, enough for one rounding to any format here. -/
def divParts (m m' : Nat) (e e' : Int) : Nat × Int :=
  let s : Nat := 120 + Nat.log2 m' - min (Nat.log2 m) (Nat.log2 m')
  let q := m * 2 ^ s / m'
  let r := m * 2 ^ s % m'
  (2 * q + b2n (r != 0), e - e' - s - 1)

/-- Quotient, its mantissa carrying a sticky bit. -/
def Fl.div (a b : Fl) : Fl :=
  match a, b with
  | .nan s, .nan t => .nan (s || t)
  | .nan s, _ => .nan s
  | _, .nan s => .nan s
  | .inf _, .inf _ => .nan true
  | .inf n, .fin m _ _ => .inf (n != m)
  | .fin n _ _, .inf m => .fin (n != m) 0 0
  | .fin n m e, .fin n' m' e' =>
    if m' = 0 then (if m = 0 then .nan true else .inf (n != n'))
    else let (q, x) := divParts m m' e e'
      .fin (n != n') q x

/-- The integer square root, bit by bit from bit `k`. -/
def isqrtFrom (v : Nat) : Nat → Nat → Nat
  | 0, r => r
  | k + 1, r => let t := r + 2 ^ k
    isqrtFrom v k (if t * t ≤ v then t else r)

/-- The integer square root. -/
def isqrt (v : Nat) : Nat := isqrtFrom v (Nat.log2 v / 2 + 1) 0

/-- A square root's mantissa and exponent with a sticky bit. -/
def sqrtParts (m : Nat) (e : Int) : Nat × Int :=
  let s : Nat := 240 + (if (e % 2) = 0 then 0 else 1)
  let v := m * 2 ^ s
  let r := isqrt v
  (2 * r + b2n (r * r != v), (e - s) / 2 - 1)

/-- Square root, its mantissa carrying a sticky bit. -/
def Fl.sqrt : Fl → Fl
  | .nan s => .nan s
  | .inf n => if n then .nan true else .inf false
  | .fin n m e => if m = 0 then .fin n 0 e else if n then .nan true else
    let (r, x) := sqrtParts m e
    .fin false r x

/-- Round to an integer in a direction. -/
def Fl.toInt (rm : Rm) : Fl → Option Int
  | .fin n m e => some (signed n (if 0 ≤ e then m * 2 ^ e.toNat else (roundShift rm n m (-e).toNat).1))
  | _ => none

/-- FP32 operations on codes, rounded to nearest even (R88, R102, R105). -/
def add32 (a b : Nat) : Nat := f32.encode ((f32.decode a).add (f32.decode b))
def sub32 (a b : Nat) : Nat := f32.encode ((f32.decode a).add (f32.decode b).neg)
def mul32 (a b : Nat) : Nat := f32.encode ((f32.decode a).mul (f32.decode b))
def fma32 (a b c : Nat) : Nat := f32.encode (((f32.decode a).mul (f32.decode b)).add (f32.decode c))

/-- One level of a pairwise tree: adjacent pairs are added (R105, R162). -/
def pairSums {α : Type} (add : α → α → α) : List α → List α
  | a :: b :: rest => add a b :: pairSums add rest
  | l => l

/-- A pairwise tree of `n` levels. -/
def treeSum {α : Type} (add : α → α → α) : Nat → List α → List α
  | 0, l => l
  | n + 1, l => treeSum add n (pairSums add l)

end Sys2Proof.Machine
end

