-- ==== Sys2Proof/Machine/MatrixNum.lean ====
section
/-!
DEFINITION. Operand formats and the arithmetic of one k-tile (R85-R105, R121, R276-R288): decoding elements and weight tiles, exact
segments, the fixed tree, the addition into the partial sum. Formats are numbered as in R163, with 7 CB4, 8 BF16, 9 FP16.
-/
namespace Sys2Proof.Machine

/-- Element width in bits; T5 packs five to a byte. -/
def fmtBits : Nat → Nat | 0 | 1 | 5 => 8 | 2 | 3 => 6 | 4 | 7 => 4 | 8 | 9 => 16 | _ => 0

/-- Bytes of 32 elements (R87, R276); a T5 block of 40 trits is 8 bytes. -/
def blockBytes : Nat → Nat | 0 | 1 | 5 => 32 | 2 | 3 => 24 | 4 | 7 => 16 | 8 | 9 => 64 | 6 => 8 | _ => 128

/-- BF16 and FP16, the path of R105. -/
def isFloatFmt (f : Nat) : Bool := f == 8 || f == 9

/-- The pairs of R86. -/
def pairOk (a w : Nat) : Bool := (decide (a < 6) && decide (w < 8)) || (a == 8 && w == 8) || (a == 9 && w == 9)

/-- Bytes of an activation tile (R121, R558; 10 is FP32). -/
def actTile : Nat → Nat | 0 | 1 | 5 => 1056 | 2 | 3 => 800 | 4 => 544 | 8 | 9 => 2048 | 10 => 4096 | _ => 0

/-- A record's size in 64-byte units (R245); 0 where there is none. -/
def recordUnits (w : Nat) (sparse : Bool) : Nat :=
  match w, sparse with
  | 8, false | 9, false => 32 | 8, true | 9, true => 18 | 0, false | 1, false | 5, false => 17 | 0, true | 1, true | 5, true => 11
  | 2, false | 3, false => 13 | 2, true | 3, true => 9 | 4, false | 7, false => 9 | 4, true | 7, true => 7 | 6, false => 18 | _, _ => 0

/-- A decoded block element: an integer multiple of its format's quantum, or a special value (R89-R98, R103). -/
inductive Elem where
  | num (n : Int)
  | inf (neg : Bool)
  | nan
  deriving DecidableEq, Repr

/-- The exponent q of a format's quantum (R98). -/
def quantum : Nat → Int | 0 => -9 | 1 => -16 | 2 => -4 | 3 => -3 | 4 => -1 | 5 => -6 | 7 => -4 | _ => 0

/-- A floating-point element with `m` mantissa bits (R89). -/
def fpElem (eb m : Nat) (v : Nat) : Elem :=
  let e := bits v m eb
  let n := if e = 0 then bits v 0 m else (2 ^ m + bits v 0 m) * 2 ^ (e - 1)
  .num (signed (bit v (eb + m)) n)

/-- Decode an element code of a format (R89-R91, R95); `book` is the codebook of CB4. -/
def decodeElem (f book v : Nat) : Elem :=
  match f with
  | 0 => if v % 128 = 127 then .nan else fpElem 4 3 v
  | 1 => if v % 128 = 124 then .inf (bit v 7) else if 124 < v % 128 then .nan else fpElem 5 2 v
  | 2 => fpElem 3 2 v
  | 3 => fpElem 2 3 v
  | 4 => fpElem 2 1 v
  | 5 => .num (sext 8 v)
  | 7 => .num (sext 8 (bits book (8 * v) 8))
  | _ => .num 0

/-- Trit `i` of a T5 byte; unused codes decode as zeros (R93-R94). -/
def trit (code i : Nat) : Int := if 243 ≤ code then 0 else ((code / 3 ^ i % 3 : Nat) : Int) - 1

/-- A matrix operand of either path. -/
inductive Opnd where
  | elem (e : Elem)
  | code (c : Nat)
  deriving DecidableEq, Repr

/-- The operand zero of a weight that stands in for a product that is not formed. -/
def Opnd.isZero : Opnd → Bool
  | .elem (.num 0) => true
  | .code c => c % 32768 == 0
  | _ => false

/-- Element `i` of a block string of a format (R87). -/
def stringElem (f book : Nat) (str i : Nat) : Opnd :=
  let v := bits str (fmtBits f * i) (fmtBits f)
  if isFloatFmt f then .code v else .elem (decodeElem f book v)

/-- A leaf of an output's products: the k in the tile and the weight; none takes no product (R281). -/
abbrev Leaf := Option (Nat × Opnd)

/-- One output of a weight tile: its leaves in order, and for each exact segment its k range and scale byte. -/
structure WOut where
  leaves : List Leaf
  segs : List (Nat × Nat × Nat)
  bad : Bool := false
  deriving DecidableEq, Repr

/-- A weight tile: its outputs, and whether it holds an unused T5 code. -/
structure WTile where
  outs : List WOut
  badCode : Bool := false
  deriving DecidableEq, Repr

/-- The number a slice of bytes spells. -/
def slice (bs : List Byte) (off n : Nat) : Nat := leNat ((bs.drop off).take n)

/-- The metadata positions of group `g` (R277). -/
def metaPos (m g : Nat) : Nat × Nat := (bits m (4 * g) 2, bits m (4 * g + 2) 2)

/-- The stored leaves of an output, dense or 2:4 (R277). -/
def storedLeaves (f book : Nat) (sparse : Bool) (str m : Nat) : List (Nat × Opnd) :=
  if sparse then (List.range 8).flatMap fun g =>
      let (p0, p1) := metaPos m g
      [(4 * g + p0, stringElem f book str (2 * g)), (4 * g + p1, stringElem f book str (2 * g + 1))]
  else (List.range 32).map fun i => (i, stringElem f book str i)

/-- The leaves of transposed output `o` from the stored outputs (R124, R278, R281): dense, element `o` of each stored output; 2:4, of each
4 x 4 sub-block the kept elements at column `o`, non-zero ones before zeros, at most two, in ascending position. -/
def transposedLeaves (sparse : Bool) (stored : List (List (Nat × Opnd))) (o : Nat) : List Leaf :=
  if sparse then (List.range 8).flatMap fun g =>
      let col := (List.range 4).flatMap fun r => ((stored.getD (4 * g + r) []).filter (·.1 == o)).map fun e => (4 * g + r, e.2)
      let nz := (col.filter fun e => !e.2.isZero).take 2
      let z := (col.filter fun e => e.2.isZero).take (2 - nz.length)
      let two := col.filter fun e => nz.contains e || z.contains e
      (two.take 2).map some ++ List.replicate (2 - (two.take 2).length) none
  else (List.range 32).map fun r => ((stored.getD r []).find? (·.1 == o)).map fun e => (r, e.2)

/-- Decode the weight tile of a record (R276-R281). `part` is the k-tile within a T5 group; `sep` the metadata of a resident tile (R279). -/
def weightTile (f book : Nat) (sparse transposed : Bool) (part : Nat) (bs : List Byte) (sep : Option (List Byte)) : WTile :=
  if f = 6 then
    let out := fun (o : Nat) =>
      let codes := (List.range 32).map fun i =>
        let p := 32 * part + i
        (p, slice bs (32 * o + p / 5) 1)
      let leaf := fun (x : Nat × Nat) => some (x.1 - 32 * part, Opnd.elem (.num (trit x.2 (x.1 % 5))))
      let lo := 32 * part / 40
      let hi := (32 * part + 31) / 40
      let seg := fun (b : Nat) => (max (40 * b) (32 * part) - 32 * part, min (40 * b + 40) (32 * part + 32) - 32 * part, slice bs (1024 + 4 * o + b) 1)
      (({ leaves := codes.map leaf, segs := if lo = hi then [seg lo] else [seg lo, seg hi] } : WOut), codes.any fun x => decide (243 ≤ x.2))
    let os := (List.range 32).map out
    ⟨os.map (·.1), os.any (·.2)⟩
  else
    let b := if sparse then blockBytes f / 2 else blockBytes f
    let e := 32 * b
    let scaled := !isFloatFmt f
    let mo := if scaled then e + 32 else e
    let meta' := fun (o : Nat) => match sep with
      | some m => slice m (4 * o) 4
      | none => slice bs (mo + 4 * o) 4
    let ts := if sparse && sep.isNone then mo + 128 else mo
    let stored := (List.range 32).map fun o => storedLeaves f book sparse (slice bs (o * b) b) (meta' o)
    ⟨(List.range 32).map fun o =>
      { leaves := if transposed then transposedLeaves sparse stored o else (stored.getD o []).map some,
        segs := [(0, 32, if scaled then slice bs ((if transposed then ts else e) + o) 1 else 127)] }, false⟩

/-- One token of an activation tile: its elements and scale byte. -/
structure ARow where
  elems : List Opnd
  scale : Nat
  bad : Bool := false
  /-- elements gated by the zero bitmap (R286-R287) -/
  zeros : Nat := 0
  deriving DecidableEq, Repr

/-- Decode an activation tile (R121, R558); `zb` its zero bitmap. -/
def actRows (f : Nat) (bs : List Byte) (zb : List Byte) : List ARow :=
  let b := blockBytes f
  (List.range 32).map fun t =>
    let str := slice bs (t * b) b
    { elems := (List.range 32).map (stringElem f 0 str), scale := if isFloatFmt f then 127 else slice bs (32 * b + t) 1, zeros := slice zb (4 * t) 4 }

/-- A segment's or group's result: its code, whether finite operands made an infinity, and operands that are no NaN a NaN, on the way (R104). -/
structure Part where
  code : Nat
  ovf : Bool := false
  nan : Bool := false
  deriving DecidableEq, Repr

/-- A 32-bit code is an infinity, a NaN. -/
def isInf32 (c : Nat) : Bool := c % 2 ^ 31 == 0x7F800000
def isNan32 (c : Nat) : Bool := decide (0x7F800000 < c % 2 ^ 31)

/-- A sum of two parts in FP32, and what it and they report (R104). -/
def Part.add (a b : Part) : Part :=
  let r := add32 a.code b.code
  let fin := fun (c : Nat) => !isInf32 c && !isNan32 c
  ⟨r, a.ovf || b.ovf || (fin a.code && fin b.code && isInf32 r), a.nan || b.nan || (!isNan32 a.code && !isNan32 b.code && isNan32 r)⟩

/-- What the exact path finds in one product (R103): a NaN element, an invalid product, an infinity of a sign. -/
def prodInf (a w : Elem) : Option (Option Bool) :=
  match a, w with
  | .nan, _ | _, .nan => some none
  | .inf n, .inf m => some (some (n != m))
  | .inf n, .num i | .num i, .inf n => if i = 0 then some none else some (some (n != decide (i < 0)))
  | .num _, .num _ => none

/-- The exact sum S of a segment (R100). -/
def exactSum (ps : List (Elem × Elem × Bool)) : Int :=
  ps.foldl (fun a p => match p with
    | (.num x, .num y, false) => a + x * y
    | _ => a) (0 : Int)

/-- The residue unit's R (R126): from the least non-negative residues of the operands modulo 15. -/
def residue (ps : List (Elem × Elem × Bool)) : Int :=
  ps.foldl (fun a p => match p with
    | (.num x, .num y, false) => a + x % 15 * (y % 15)
    | _ => a) (0 : Int) % 15

/-- The residue check passes on a sum and a residue that are off by `err` and `res` (R126). -/
def residueOk (ps : List (Elem × Elem × Bool)) (err : Int) (res : Nat) : Bool := (residue ps + res) % 15 == (exactSum ps + err) % 15

/-- The special result of a segment, and whether an operand is a NaN (R103); none where all its operands are numbers. -/
def special (xa xw : Nat) (ps : List (Elem × Elem × Bool)) : Option (Nat × Bool) :=
  let anyNan := ps.any fun p => p.1 == .nan || p.2.1 == .nan
  let infs := ps.filterMap fun p => prodInf p.1 p.2.1
  if xa = 255 ∨ xw = 255 ∨ anyNan then some (f32.nan, true)
  else if infs.contains none ∨ (infs.contains (some true) ∧ infs.contains (some false)) then some (f32.nan, false)
  else if infs.contains (some true) then some (f32.inf true, false)
  else if infs.contains (some false) then some (f32.inf false, false)
  else none

/-- An exact segment (R100, R103): products `ps` as (activation, weight, gated), the quanta and the scale bytes; `err` is how far an upset that
stays in the result has moved the sum. -/
def segment (qa qw : Int) (xa xw : Nat) (ps : List (Elem × Elem × Bool)) (err : Int) : Part :=
  match special xa xw ps with
  | some (c, nanIn) => ⟨c, false, !nanIn && isNan32 c⟩
  | none =>
    let c := f32.encode (flInt false (exactSum ps + err) (qa + qw + (xa : Int) + (xw : Int) - 254))
    ⟨c, isInf32 c, false⟩

/-- The format of a code of the floating path. -/
def opFmt (f : Nat) : FFmt := if f = 8 then bf16 else f16

/-- A product of the floating path (R105, R287): a gated finite product is a zero of its sign. -/
def floatProd (f a w : Nat) (gated : Bool) : Part :=
  let x := (opFmt f).decode a
  let y := (opFmt f).decode w
  match x.mul y with
  | .fin n m e => if gated then ⟨f32.zero n, false, false⟩ else
    let c := f32.encode (.fin n m e)
    ⟨c, isInf32 c, false⟩
  | z => ⟨f32.encode z, false, !x.isNan && !y.isNan && z.isNan⟩

/-- The group of 32 k (R105): a tree over the leaves, 32 or 16 of them. -/
def floatGroup (f : Nat) (ps : List (Option (Nat × Nat × Bool))) : Part :=
  (treeSum Part.add (if ps.length = 16 then 4 else 5) (ps.map fun p => p.elim ⟨0, false, false⟩ fun x => floatProd f x.1 x.2.1 x.2.2)).headD ⟨0, false, false⟩

/-- What a computation reports in BLK_NUMSTAT (R94, R104). -/
structure NumFlags where
  psOvf : Bool := false
  nanOut : Bool := false
  badCode : Bool := false
  deriving DecidableEq, Repr

/-- Add a part into a partial sum (R102, R104). -/
def addPart (acc : Nat) (p : Part) (fl : NumFlags) : Nat × NumFlags :=
  let r := Part.add ⟨acc, false, false⟩ p
  (r.code, { fl with psOvf := fl.psOvf || r.ovf, nanOut := fl.nanOut || r.nan })

/-- The products of segment `sg` of an output element. -/
def segProducts (a : ARow) (w : WOut) (sg : Nat × Nat × Nat) : List (Elem × Elem × Bool) :=
  w.leaves.filterMap fun l => l.bind fun (k, x) =>
    if sg.1 ≤ k ∧ k < sg.2.1 then match a.elems[k]?, x with
      | some (.elem c), .elem d => some (c, d, bit a.zeros k)
      | _, _ => none
    else none

/-- One output element of one k-tile: its parts in ascending k, added to the sum; `err` by segment. -/
def elemStep (fa fw : Nat) (a : ARow) (w : WOut) (acc : Nat) (fl : NumFlags) (err : Nat → Int) : Nat × NumFlags :=
  if isFloatFmt fa then
    let ps := w.leaves.map fun l => l.bind fun (k, x) => match a.elems[k]?, x with
      | some (.code c), .code d => some (c, d, bit a.zeros k)
      | _, _ => none
    addPart acc (floatGroup fa ps) fl
  else
    (w.segs.zip (List.range w.segs.length)).foldl (fun (s : Nat × NumFlags) sg =>
      addPart s.1 (segment (quantum fa) (quantum fw) a.scale sg.1.2.2 (segProducts a w sg.1) (err sg.2)) s.2) (acc, fl)

/-- One k-tile of a slot (R102): 1,024 sums token-major, the flags; `err` by element and segment. -/
def tileStep (fa fw : Nat) (rows : List ARow) (w : WTile) (acc : List Nat) (fl : NumFlags) (err : Nat → Nat → Int) : List Nat × NumFlags :=
  let one := fun (s : List Nat × NumFlags) (x : Nat × (ARow × WOut) × Nat) =>
    let (v, fl) := elemStep fa fw x.2.1.1 x.2.1.2 x.1 s.2 (err x.2.2)
    (v :: s.1, fl)
  let pairs := rows.flatMap fun a => w.outs.map fun o => (a, o)
  let (r, fl) := (acc.zip (pairs.zip (List.range 1024))).foldl one ([], { fl with badCode := fl.badCode || w.badCode })
  (r.reverse, fl)

/-- The products of a k-tile that are gated (R285-R287), and those formed. -/
def tileProducts (rows : List ARow) (w : WTile) : Nat × Nat :=
  let n := (w.outs.map fun o => (o.leaves.filter Option.isSome).length).foldl (· + ·) 0
  let gated := rows.foldl (fun a r => a + (w.outs.foldl (fun b o => b + (o.leaves.filter fun l => match l with
    | some (k, _) => bit r.zeros k | none => false).length) 0)) 0
  (gated, rows.length * n - gated)

end Sys2Proof.Machine
end

