-- ==== Sys2Proof/Machine/Cells.lean ====
section
/-!
DEFINITION. Matrix cells as physical units (R117-R118, R130-R138): the slot map, retirement and time-slicing, the rounds.
-/
namespace Sys2Proof.Machine

/-- The cell that serves a slot, 0x3F while rotation carries it (R141). -/
def State.slotCell (s : State) (node blk slot : Nat) : Nat := wordField (s.word .mxcSlotMap node blk (slot / 8)) (6 * (slot % 8)) 6

/-- Map a slot to a cell. -/
def State.setSlotCell (s : State) (node blk slot c : Nat) : State :=
  s.setWord .mxcSlotMap node blk (slot / 8) (wordPut (s.word .mxcSlotMap node blk (slot / 8)) (6 * (slot % 8)) 6 c)

/-- The whole slot map. -/
def State.slotMap (s : State) (node blk : Nat) : List Nat := (List.range 32).map (s.slotCell node blk)

/-- Replace the slot map. -/
def State.setSlotMap (s : State) (node blk : Nat) (m : List Nat) : State :=
  (m.zip (List.range 32)).foldl (fun s x => s.setSlotCell node blk x.2 x.1) s

/-- A matrix cell is retired (R142). -/
def State.cellRetired (s : State) (node blk c : Nat) : Bool := bit (s.fld F.mxcRetired_mask node blk) c

/-- A rotation order over `n` cells: those that a host's order names, then the others ascending (R419 function 9). -/
def wholeOrder (n : Nat) (l : List Nat) : List Nat := l ++ (List.range n).filter fun c => !l.contains c

/-- The live cells that still come in a round of tests: those after the last tested one, which may be retired since (R131, R136, R170). -/
def restOfRound (n : Nat) (order : List Nat) (live : Nat → Bool) (last : Option Nat) : List Nat :=
  ((match last with | some x => ((wholeOrder n order).dropWhile (· != x)).drop 1 | none => wholeOrder n order)).filter live

/-- The next cell of the rounds, and whether it opens the next round, with that round's order (R131, R136, R170, R419 function 9). -/
def nextCell (n : Nat) (order next : List Nat) (live : Nat → Bool) (last : Option Nat) : Option (Nat × Bool) :=
  match restOfRound n order live last with
  | c :: _ => some (c, false)
  | [] =>
    let l := (wholeOrder n next).filter live
    ((l.find? fun c => last != some c).or l.head?).map fun c => (c, true)

/-- The cells in service or on rounds, in rotation order (R131, R419 function 9). -/
def State.cellOrder (s : State) (node blk : Nat) : List Nat :=
  let o := (s.block node blk).order
  (wholeOrder 33 o).filter fun c => !s.cellRetired node blk c

/-- The site of a matrix cell. -/
def cellSite (node blk c : Nat) (tag : Option Nat := none) : Site := ⟨node, pageOf .mxc node blk, c, tag⟩

/-- The work a retired cell may have spoilt (R135 step 4): running floating-point commands complete POISONED; completed ones are
reported, up to 16. -/
def State.reportFloatWork (s : State) (node blk c : Nat) : State :=
  let b := s.block node blk
  let live := b.runs.filter fun r => r.cells.contains c && (match (s.queue r.q).cur with
    | some x => isFloatFmt (bits x.desc 160 4) | none => false)
  let s := live.foldl (fun s r => s.condition r.q .poisoned) s
  let done := b.floatWork.filter fun w => w.1 == c
  (done.take 16).foldl (fun s w => s.errorWith (cellSite node blk c (some w.2.1)) 8 7 .de w.2.2 (done.length - min 16 done.length)) s

/-- A matrix cell is retired (R135-R137): the out-of-service cell takes over its slot, time-slicing begins; a third fault retires the block. -/
def State.retireCell (s : State) (node blk c : Nat) (sev : Severity) (count : Nat) (rounds : Bool) : State :=
  if s.cellRetired node blk c then s else
  let out := s.outCell node blk
  let sliced := s.flag F.mxcRoundsStat_sliced node blk
  let b := s.block node blk
  let map := if sliced then b.slotCells else s.slotMap node blk
  let map := if out < 33 ∧ out ≠ c ∧ !sliced then map.map fun x => if x = c then out else x else map
  let n := (setBits 33 (s.fld F.mxcRetired_mask node blk)).length + 1
  let s := if rounds then s.reportFloatWork node blk c else s
  let s := s.retirement (cellSite node blk c) 7 sev 6 count
  let s := s.put F.mxcRetired_mask node blk 0 (ofBits (c :: setBits 33 (s.fld F.mxcRetired_mask node blk)))
  let s := (s.put F.mxcRoundsStat_sliced node blk 0 1).put F.mxcRoundsStat_retiredCount node blk 0 (min n 2)
  let s := s.setSlotMap node blk (if n < 2 then map else List.replicate 32 0x3F)
  let own := fun (x : Recompute) => if x.helper = out then { x with helper := x.cell } else x
  let s := (s.modBlock node blk fun b =>
    { b with slotCells := map, window := none, failedOnce := false, passed := false, sliceStart := s.now, slices := 0, sliceNext := c,
             recomputes := b.recomputes.map own }).setOut node blk 0x3F
  if 3 ≤ n then s.toRetire (.block node blk (pageOf .mxc node blk) 7 n) else s

/-- A cell is classified permanently faulty (R130, R133, R483). -/
def State.cellFaulty (s : State) (node blk c : Nat) (sev : Severity) (count : Nat) (rounds : Bool) : State :=
  if s.cellRetired node blk c then s else
  s.classified node (pageOf .mxc node blk) 7 (.matrixCell node blk c sev.code count rounds) fun s => s.retireCell node blk c sev count rounds

/-- A test window closes (R132, R136): in time-sliced mode the tested cell serves again. -/
def State.closeWindow (s : State) (node blk : Nat) : State :=
  let b := s.block node blk
  let s := s.modBlock node blk fun b => { b with window := none }
  if s.flag F.mxcRoundsStat_sliced node blk then
    let own := fun (x : Recompute) => if x.helper = s.outCell node blk then { x with helper := x.cell } else x
    let s := (s.modBlock node blk fun b => { b with recomputes := b.recomputes.map own }).setOut node blk 0x3F
    if s.fld F.mxcRoundsStat_retiredCount node blk < 2 then s.setSlotMap node blk b.slotCells else s
  else s

/-- The rounds of a block start (R131, R138): the cell out of service starts its test; in time-sliced mode every cell serves until a window opens. -/
def State.startRounds (s : State) (node blk : Nat) : State :=
  ((s.closeWindow node blk).modBlock node blk fun b =>
    { b with roundStart := s.now, rotations := 0, window := if s.flag F.mxcRoundsStat_sliced node blk then none else some s.now,
             failedOnce := false, passed := false, sliceStart := s.now, slices := 0 }).showOut node blk

/-- The core clock of a region runs again: its blocks' rounds start again (R138). -/
def State.resumeRounds (s : State) (node : Nat) : State :=
  (List.range 4).foldl (fun s b => if s.flag F.mxcRoundsCtrl_enable node b then s.startRounds node b else s) s

/-- Rounds of the matrix cells run: the core clock does, ENABLE is 1 (R131, R138). -/
def State.roundsRun (s : State) (node blk : Nat) : Bool :=
  s.clocked node blk && s.flag F.mxcRoundsCtrl_enable node blk

/-- The matrix cell whose turn for a test comes after `last`, and whether it opens a new round (R131, R136). -/
def State.nextMatCell (s : State) (node blk last : Nat) : Option (Nat × Bool) :=
  let b := s.block node blk
  nextCell 33 b.order b.orderNext (fun c => !s.cellRetired node blk c) (some last)

/-- A new round takes the order that host software supplied for it (R419 function 9). -/
def Block.wrap (b : Block) (wraps : Bool) : Block := if wraps then { b with order := b.orderNext, orderNext := [] } else b

/-- ROUNDS_ROTATION (R131, R134): every 64 µs from the round start the next cell is taken out and the cell on rounds, its test passed and no
recompute in it, takes over its slot with the accumulator tile. -/
def execRoundsRotation (node blk : Nat) (s : State) : Out :=
  need (isRegion node && decide (blk < 4)) .noSuch <|
  let b := s.block node blk
  need (s.roundsRun node blk && !s.flag F.mxcRoundsStat_sliced node blk) .wrongState <|
  need (decide (b.roundStart + (b.rotations + 1) * (64 * us) ≤ s.now) && b.passed && b.recomputes.isEmpty) .notDue <|
  let out := s.outCell node blk
  let (next, wraps) := (s.nextMatCell node blk out).getD (out, false)
  let s := s.setSlotMap node blk ((s.slotMap node blk).map fun c => if c = next then out else c)
  .next ((s.modBlock node blk fun b =>
    { b.wrap wraps with rotations := b.rotations + 1, window := some s.now, failedOnce := false, passed := false }).setOut node blk next)

/-- ROUNDS_TEST_DONE (R132-R133): a known-answer test ends; a failed one runs again at once, and a second failure retires the cell. -/
def execRoundsTestDone (node blk : Nat) (pass : Bool) (signature : Nat) (s : State) : Out :=
  need (isRegion node && decide (blk < 4)) .noSuch <|
  let b := s.block node blk
  let c := s.outCell node blk
  need (s.roundsRun node blk && s.outState node blk == 1 && !b.passed) .wrongState <|
  if pass then
    let s := if b.failedOnce then s.error (cellSite node blk c) 6 .ce 0 signature else s
    -- what the cell has served before is past (R135)
    .next ((s.modBlock node blk fun b =>
      { b with passed := true, failedOnce := false, floatWork := b.floatWork.filter fun w => w.1 != c,
               runs := b.runs.map fun r => { r with cells := r.cells.filter (· != c) } }).showOut node blk)
  else
    let s := s.bump F.mxcRoundsStat_testFails node blk 0
    if b.failedOnce then .next ((s.error (cellSite node blk c) 6 .ce 0 signature).cellFaulty node blk c .ce 2 true)
    else .next (s.modBlock node blk fun b => { b with failedOnce := true })

/-- ROUNDS_WINDOW_END (R132): the window ends when 48 µs have passed and the test program has completed; the cell waits in ROUNDS_STANDBY. -/
def execRoundsWindowEnd (node blk : Nat) (s : State) : Out :=
  need (isRegion node && decide (blk < 4)) .noSuch <|
  match (s.block node blk).window with
  | none => .refused .wrongState
  | some t =>
    need (s.roundsRun node blk && (s.block node blk).passed && s.outState node blk != 3) .wrongState <|
    need (decide (t + 48 * us ≤ s.now)) .notDue <| .next (s.closeWindow node blk)

/-- SLICE_WINDOW_OPEN (R136): in time-sliced mode with c cells left a window opens every 2.112 ms / c, at the next cell above the last. A recompute that is
pending is finished first (R128-R129). -/
def execSliceWindowOpen (node blk : Nat) (s : State) : Out :=
  need (isRegion node && decide (blk < 4)) .noSuch <|
  let b := s.block node blk
  let cells := s.cellOrder node blk
  need (s.roundsRun node blk && s.flag F.mxcRoundsStat_sliced node blk && b.window.isNone) .wrongState <|
  need (decide ((b.slices + 1) * (2112 * us) ≤ (s.now - b.sliceStart) * cells.length) && b.recomputes.isEmpty) .notDue <|
  match s.nextMatCell node blk b.sliceNext with
  | none => .refused .wrongState
  | some (next, wraps) =>
    .next (((s.setSlotMap node blk (List.replicate 32 0x3F)).modBlock node blk fun b =>
      { b.wrap wraps with window := some s.now, slices := b.slices + 1, sliceNext := next, failedOnce := false, passed := false }).setOut node blk next)

/-- MXC_ROUNDS_CTRL.ENABLE has changed (R138): cleared, no tests run and no roles rotate, and in time-sliced mode every cell serves; set, the round starts
again. -/
def State.roundsEnable (s : State) (node blk : Nat) (on : Bool) : State :=
  if on then s.startRounds node blk
  else ((s.closeWindow node blk).modBlock node blk fun b => { b with window := none, failedOnce := false }).showOut node blk

end Sys2Proof.Machine
end

