-- ==== Sys2Proof/Machine/VecNum.lean ====
section
/-!
DEFINITION. Lane arithmetic of the vector cells (R146-R147, R160-R164) and the conversions and quantisation of R110-R115.
-/
namespace Sys2Proof.Machine

/-- The 32 lanes of a vector register, lane 0 in the lowest bits (R148). -/
def lanes (v : VReg) : List Nat := (List.range 32).map fun i => bits v.toNat (32 * i) 32

/-- The register that lanes make. -/
def ofLanes (l : List Nat) : VReg := BitVec.ofNat 1024 (l.reverse.foldl (fun a x => a * 2 ^ 32 + x % 2 ^ 32) 0)

/-- The 128 bytes of a register. -/
def vregBytes (v : VReg) : List Byte := leBytes 128 v.toNat

/-- The minimum or maximum of IEEE 754-2019 (R147): -0 orders below +0, a NaN gives the canonical NaN. -/
def minMax (f : FFmt) (max : Bool) (a b : Nat) : Nat :=
  let x := f.decode a
  let y := f.decode b
  if x.isNan || y.isNan then f.nan
  else
    let less := x.lt y || (!y.lt x && x.sign && !y.sign)
    if less != max then a else b

/-- Apply an operation of the 16-bit halves to both halves of a lane. -/
def halves (op : Nat → Nat → Nat) (a b : Nat) : Nat := op (bits a 0 16) (bits b 0 16) + op (bits a 16 16) (bits b 16 16) * 65536

/-- BF16 sum, difference, product, rounded once (R146). -/
def addBf (a b : Nat) : Nat := bf16.encode ((bf16.decode a).add (bf16.decode b))
def subBf (a b : Nat) : Nat := bf16.encode ((bf16.decode a).add (bf16.decode b).neg)
def mulBf (a b : Nat) : Nat := bf16.encode ((bf16.decode a).mul (bf16.decode b))

/-- Both BF16 fused multiply-adds of a lane (R146). -/
def fmaBf2 (a b c : Nat) : Nat :=
  let one := fun lo => bf16.encode (((bf16.decode (bits a lo 16)).mul (bf16.decode (bits b lo 16))).add (bf16.decode (bits c lo 16)))
  one 0 + one 16 * 65536

/-- 32-bit two's-complement minimum and maximum. -/
def minS (a b : Nat) : Nat := if sext 32 a ≤ sext 32 b then a else b
def maxS (a b : Nat) : Nat := if sext 32 a ≤ sext 32 b then b else a

/-- The reciprocal, correctly rounded (R147). -/
def rcp32 (a : Nat) : Nat := f32.encode ((Fl.fin false 1 0).div (f32.decode a))

/-- The reciprocal square root, correctly rounded (R147): floor(2^k / √m) with a sticky bit. -/
def rsq32 (a : Nat) : Nat :=
  match f32.decode a with
  | .nan _ => f32.nan
  | .inf n => if n then f32.nan else f32.zero false
  | .fin n m e =>
    if m = 0 then f32.inf n else if n then f32.nan
    else
      let odd := e % 2 != 0
      let m' := if odd then 2 * m else m
      let e' := if odd then e - 1 else e
      let k : Nat := 80
      let q := isqrt (2 ^ (2 * k) / m')
      f32.rne false (2 * q + b2n (q * q * m' != 2 ^ (2 * k))) (-(e' / 2) - (k : Int) - 1)

/-- FP32 comparison (R160): 0 EQ, 1 NE, 2 LT, 3 LE, 4 unordered. -/
def cmpF (fn a b : Nat) : Bool :=
  let x := f32.decode a
  let y := f32.decode b
  match fn with
  | 0 => x.eq y | 1 => !x.eq y | 2 => x.lt y | 3 => x.lt y || x.eq y | _ => x.isNan || y.isNan

/-- INT32 comparison (R160): 0 EQ, 1 NE, 2 LT, 3 LE, 4 LT unsigned, 5 LE unsigned. -/
def cmpI (fn a b : Nat) : Bool :=
  match fn with
  | 0 => a == b | 1 => a != b | 2 => decide (sext 32 a < sext 32 b) | 3 => decide (sext 32 a ≤ sext 32 b)
  | 4 => decide (a < b) | _ => decide (a ≤ b)

/-- The lane operation of VADD to VSH by opcode and FN (R160). -/
def laneOp (op fn a b : Nat) : Nat :=
  match op, fn with
  | 0x00, 0 => add32 a b | 0x00, 1 => halves addBf a b | 0x00, _ => (a + b) % 2 ^ 32
  | 0x01, 0 => sub32 a b | 0x01, 1 => halves subBf a b | 0x01, _ => (a + 2 ^ 32 - b) % 2 ^ 32
  | 0x02, 0 => mul32 a b | 0x02, 1 => halves mulBf a b | 0x02, _ => a * b % 2 ^ 32
  | 0x04, 0 => minMax f32 false a b | 0x04, 1 => halves (minMax bf16 false) a b | 0x04, 2 => minS a b | 0x04, _ => min a b
  | 0x05, 0 => minMax f32 true a b | 0x05, 1 => halves (minMax bf16 true) a b | 0x05, 2 => maxS a b | 0x05, _ => max a b
  | 0x08, _ => Nat.land a b | 0x09, _ => Nat.lor a b | 0x0A, _ => Nat.xor a b
  | 0x0B, 0 => a * 2 ^ (b % 32) % 2 ^ 32 | 0x0B, 1 => a / 2 ^ (b % 32)
  | _, _ => wrapInt 32 (sext 32 a / (2 ^ (b % 32) : Nat))

/-- Convert between formats of the floating path (R110). -/
def convert (src dst : FFmt) (a : Nat) : Nat := dst.encode (src.decode a)

/-- FP32 to INT32 (R110): saturating, NaN gives 0. -/
def toInt32 (a : Nat) : Nat :=
  match f32.decode a with
  | .nan _ => 0
  | .inf n => if n then 2 ^ 31 else 2 ^ 31 - 1
  | x => wrapInt 32 (max (-(2 ^ 31 : Nat)) (min ((2 ^ 31 - 1 : Nat) : Int) ((x.toInt .rne).getD 0)))

/-- VCVT of a lane (R110, R160). -/
def laneCvt (fn a b : Nat) : Nat :=
  match fn with
  | 0 => convert f32 bf16 a + convert f32 bf16 b * 65536
  | 1 => convert bf16 f32 (bits a 0 16) | 2 => convert bf16 f32 (bits a 16 16)
  | 3 => convert f32 f16 a + convert f32 f16 b * 65536
  | 4 => convert f16 f32 (bits a 0 16) | 5 => convert f16 f32 (bits a 16 16)
  | 6 => toInt32 a
  | _ => f32.encode (flInt false (sext 32 a) 0)

/-- VRED's combination and the identity of an inactive lane (R161). -/
def redOp (fn : Nat) : (Nat → Nat → Nat) × Nat :=
  match fn with
  | 0 => (add32, 0) | 1 => (minMax f32 true, f32.inf true) | 2 => (minMax f32 false, f32.inf false)
  | 3 => (fun a b => (a + b) % 2 ^ 32, 0) | 4 => (maxS, 2 ^ 31) | _ => (minS, 2 ^ 31 - 1)

/-- The reduction of 32 lanes by the pairwise tree (R162). -/
def reduce (fn mask : Nat) (l : List Nat) : Nat :=
  let (op, idn) := redOp fn
  (treeSum op 5 ((List.range 32).map fun i => if bit mask i then l.getD i 0 else idn)).headD 0

/-- One level of VSCAN: lane i adds lane i - d (R162). -/
def scanLevel (op : Nat → Nat → Nat) (d : Nat) (l : List Nat) : List Nat :=
  (List.range 32).map fun i => if d ≤ i then op (l.getD (i - d) 0) (l.getD i 0) else l.getD i 0

/-- The inclusive prefix (R162). -/
def scan (fn mask : Nat) (l : List Nat) : List Nat :=
  let (op, idn) := redOp fn
  [1, 2, 4, 8, 16].foldl (fun l d => scanLevel op d l) ((List.range 32).map fun i => if bit mask i then l.getD i 0 else idn)

/-- Little-endian word `i` of a curve table held as one number. -/
def tableWord (t off : Nat) : Nat := bits t (8 * off) 32

/-- VCRV of a lane (R164). -/
def curve (t x : Nat) : Nat :=
  if (f32.decode x).isNan then f32.nan else
  let s := mul32 (sub32 x (tableWord t 0)) (tableWord t 4)
  let fl := f32.decode s
  let j := match fl with
    | .inf n => if n then 0 else 63
    | _ => match fl.toInt .rdn with
      | some i => if i < 0 then 0 else min 63 i.toNat
      | none => 0
  let d := sub32 s (f32.encode (.fin false j 0))
  let clamp := bits t 64 8 == 0
  let u := if clamp && fl.lt (.fin false 0 0) then 0
    else if clamp && !fl.isNan && !fl.lt (.fin false 64 0) then 0x3F800000 else d
  let c := fun k => tableWord t (16 + 16 * j + 4 * k)
  fma32 (fma32 (fma32 (c 3) u (c 2)) u (c 1)) u (c 0)

/-- emax and the largest finite magnitude in quanta (R111, R89-R93). -/
def emax : Nat → Int | 0 => 8 | 1 => 15 | 2 => 4 | 3 => 2 | 4 => 2 | _ => 0
def maxQuanta : Nat → Nat | 0 => 229376 | 1 => 57344 * 65536 | 2 => 448 | 3 => 60 | 4 => 12 | 5 => 127 | _ => 1

/-- Mantissa and exponent bits of an MX floating-point format; none for MXINT8 and T5. -/
def mxBits : Nat → Option (Nat × Nat) | 0 => some (3, 4) | 1 => some (2, 5) | 2 => some (2, 3) | 3 => some (3, 2) | 4 => some (1, 2) | _ => none

/-- The draw of R115. -/
def draw16 (seed n : Nat) : Nat :=
  let m := 2 ^ 64
  let z := (seed + (n + 1) * 0x9E3779B97F4A7C15) % m
  let z := Nat.xor z (z / 2 ^ 30) * 0xBF58476D1CE5E4B9 % m
  let z := Nat.xor z (z / 2 ^ 27) * 0x94D049BB133111EB % m
  Nat.xor z (z / 2 ^ 31) / 2 ^ 48

/-- A quantised block: scale byte, signed magnitudes in quanta, saturated elements, clamped. -/
structure Quant where
  scale : Nat
  elems : List (Bool × Nat)
  sat : Nat := 0
  clamp : Bool := false
  deriving DecidableEq, Repr

/-- The larger of two magnitudes m × 2^e. -/
def maxMag (a b : Nat × Int) : Nat × Int :=
  let q := min a.2 b.2
  if a.1 * 2 ^ (a.2 - q).toNat ≤ b.1 * 2 ^ (b.2 - q).toNat then b else a

/-- The scale byte before clamping (R111). -/
def scaleOf (f : Nat) (ceil : Bool) (a : Nat × Int) : Int :=
  let top := (Nat.log2 a.1 : Int) + a.2
  if !ceil then top - emax f + 127
  else
    let x := top - (Nat.log2 (maxQuanta f) : Int) - quantum f + 127
    let e := quantum f + x - 127
    let q := min a.2 e
    if a.1 * 2 ^ (a.2 - q).toNat ≤ maxQuanta f * 2 ^ (e - q).toNat then x else x + 1

/-- Round a magnitude m × 2^w, in quanta, to the format's grid (R112, R115); `r` the draw of stochastic rounding. -/
def gridRound (f : Nat) (m : Nat) (w : Int) (r : Option Nat) : Nat :=
  if m = 0 then 0 else
  let step : Nat := match mxBits f with
    | some (mb, _) => ((Nat.log2 m : Int) + w - (mb : Int)).toNat
    | none => 0
  let v := w - (step : Int)
  let (fl, fr, den) : Nat × Nat × Nat := if 0 ≤ v then (m * 2 ^ v.toNat, 0, 1) else (m / 2 ^ (-v).toNat, m % 2 ^ (-v).toNat, 2 ^ (-v).toNat)
  let up := match r with
    | some r => decide (65536 ≤ fr * 65536 / den + r)
    | none => decide (den < 2 * fr) || (den == 2 * fr && f != 6 && fl % 2 == 1)
  (if up then fl + 1 else fl) * 2 ^ step

/-- Quantise a block of FP32 codes (R111-R115). An input of -0.0 in a block that is not all zeros keeps its sign (log entry 119). `seed`: seed and base index of stochastic rounding. -/
def quantise (f : Nat) (vals : List Nat) (ceil : Bool) (seed : Option (Nat × Nat)) : Quant :=
  let xs := vals.map f32.decode
  let zeros := vals.map fun _ => (false, 0)
  if xs.any (fun x => x.isNan || x.isInf) then ⟨0xFF, zeros, 0, false⟩
  else
    let mags := xs.map fun x => match x with | .fin _ m e => (m, e) | _ => (0, (0 : Int))
    let a := mags.foldl maxMag (0, 0)
    if a.1 = 0 then ⟨0x7F, zeros, 0, false⟩
    else
      let x := scaleOf f ceil a
      let y := max 0 (min 254 x)
      let one := fun (v : Fl × Nat) => match v.1 with
        | .fin n m e =>
          let k := gridRound f m (e - (y - 127 + quantum f)) (seed.map fun (s : Nat × Nat) => draw16 s.1 (s.2 + v.2))
          if maxQuanta f < k then ((n, maxQuanta f), 1) else ((n, k), 0)
        | _ => ((false, 0), 0)
      let es := (xs.zip (List.range xs.length)).map one
      ⟨y.toNat, es.map (·.1), (es.map (·.2)).foldl (· + ·) 0, x != y⟩

/-- The code of a signed magnitude in quanta (R89-R93, R112). -/
def elemCode (f : Nat) (e : Bool × Nat) : Nat :=
  match mxBits f with
  | some (mb, eb) =>
    let s := b2n e.1 * 2 ^ (mb + eb)
    if e.2 < 2 ^ mb then s + e.2
    else
      let k := Nat.log2 e.2 - mb + 1
      s + k * 2 ^ mb + (e.2 / 2 ^ (k - 1) - 2 ^ mb)
  | none => wrapInt 8 (signed e.1 e.2)

/-- The register of a quantised block (R163). -/
def quantReg (f : Nat) (q : Quant) : VReg :=
  let elems := if f = 6 then
      (List.range 8).foldl (fun a j =>
        let code := (List.range 5).foldl (fun c i => c + ((signed (q.elems.getD (5 * j + i) (false, 0)).1 (q.elems.getD (5 * j + i) (false, 0)).2) + 1).toNat * 3 ^ i) 0
        a + code * 2 ^ (8 * j)) 0
    else (q.elems.zip (List.range 32)).foldl (fun a e => a + elemCode f e.1 * 2 ^ (fmtBits f * e.2)) 0
  BitVec.ofNat 1024 (elems + q.scale * 2 ^ 512)

/-- The codes of a block in a register (R163): 32 elements, or the 40 trits of T5 as -1, 0, 1 plus 1. -/
def blockCodes (f v : Nat) : List Nat :=
  if f = 6 then (List.range 40).map fun i => ((trit (bits v (8 * (i / 5)) 8) (i % 5)) + 1).toNat
  else (List.range 32).map fun i => bits v (fmtBits f * i) (fmtBits f)

/-- The block holds an unused T5 code (R94). -/
def badTrits (v : Nat) : Bool := (List.range 8).any fun j => decide (243 ≤ bits v (8 * j) 8)

/-- The value of an element without its scale, its sign kept (R89-R95, R98). -/
def elemValue (f book c : Nat) : Fl :=
  if f = 6 then flInt false ((c : Int) - 1) 0
  else match decodeElem f book c with
    | .nan => .nan false
    | .inf n => .inf n
    | .num i => .fin (if f < 5 then bit c (fmtBits f - 1) else decide (i < 0)) i.natAbs (quantum f)

/-- Dequantise a block (R110): FP32 codes. -/
def dequantise (f book v : Nat) : List Nat :=
  let scale := bits v 512 8
  (blockCodes f v).map fun c =>
    if scale = 255 then f32.nan else f32.encode ((elemValue f book c).mul (.fin false 1 ((scale : Int) - 127)))

/-- VZBM of a block (R163). -/
def zeroBits (f v : Nat) : Nat :=
  if bits v 512 8 = 255 then 0
  else ofBits ((((blockCodes f v).zip (List.range 40)).filter fun c => (elemValue f 0 c.1).isZero).map (·.2))

end Sys2Proof.Machine
end

