-- ==== Sys2Proof/Machine/Vector.lean ====
section
/-!
DEFINITION. Vector threads (R148-R167): instruction formats and the checks of R159, a thread at its next instruction, registers with poison,
thread faults, and the instructions that touch registers alone.
-/
namespace Sys2Proof.Machine

/-- What a register field names (R158-R160): a vector, scalar or predicate register, a curve table, a lane, VQNT's control, nothing. -/
inductive Role where
  | v | s | p | t | l | c | u
  deriving DecidableEq, Repr

/-- The bits a field uses (R159). -/
def Role.width : Role → Nat | .v | .c => 6 | .s | .t => 4 | .p => 2 | .l => 5 | .u => 0

/-- An opcode's format bits, the roles of its register fields in the order of R158, and its FN values (R160). -/
structure InsSpec where
  fmt : Nat
  roles : List Role
  fns : List Nat := [0]
  deriving DecidableEq, Repr

/-- The opcode table of R160. -/
def insSpec (op : Nat) : Option InsSpec :=
  let r := fun (x y z : Role) (n : Nat) => some (InsSpec.mk 0 [x, y, z] (List.range n))
  let i := fun (x y : Role) => some (InsSpec.mk 1 [x, y] [])
  let m := fun (x : Role) (n : Nat) => some (InsSpec.mk 2 [x] (List.range n))
  let b := fun (x y : Role) => some (InsSpec.mk 3 [x, y] [])
  match op with
  | 0x00 | 0x01 | 0x02 => r .v .v .v 3 | 0x03 => r .v .v .v 2 | 0x04 | 0x05 => r .v .v .v 4 | 0x06 | 0x07 => r .v .v .u 1
  | 0x08 | 0x09 | 0x0A => r .v .v .v 1 | 0x0B => r .v .v .v 3 | 0x0C => r .p .v .v 5 | 0x0D => r .p .v .v 6
  | 0x0E | 0x0F => r .v .v .v 1 | 0x10 => r .v .v .v 8 | 0x11 => r .v .v .c 7 | 0x12 => r .v .v .v 8 | 0x13 => r .v .v .t 1
  | 0x14 => r .s .v .u 6 | 0x15 => some ⟨0, [.v, .v, .u], [0, 3]⟩ | 0x16 => r .s .v .u 8 | 0x17 => r .v .s .u 1 | 0x18 => r .s .v .s 1
  | 0x19 => r .v .s .u 1 | 0x1A => r .p .p .p 7 | 0x1B => r .v .u .u 3 | 0x1C => r .s .s .s 8 | 0x1D => r .s .v .l 1
  | 0x1E => r .s .u .u 5
  | 0x20 | 0x21 | 0x22 | 0x23 | 0x24 => i .s .s | 0x25 => i .v .u | 0x26 => i .v .v
  | 0x28 | 0x29 => m .v 3 | 0x2A => m .v 1 | 0x2B => m .v 3 | 0x2C | 0x2D => m .s 1 | 0x2E | 0x2F | 0x30 => m .v 1 | 0x31 => m .v 4
  | 0x32 => m .s 2 | 0x33 => m .t 1
  | 0x34 => b .u .u | 0x35 | 0x36 | 0x37 | 0x38 => b .s .s | 0x39 | 0x3A => b .p .u | 0x3B | 0x3C | 0x3D | 0x3E => b .u .u
  | _ => none

/-- A decoded instruction (R158): `d`, `a`, `b` are VD/D/V/SA, VA/A/SB and VB; `imm` IMM12 or IMM8 signed, or IMM16 as it stands. -/
structure Ins where
  op : Nat
  fmt : Nat
  pg : Nat
  fn : Nat
  d : Nat
  a : Nat
  b : Nat
  imm : Int
  deriving DecidableEq, Repr

/-- Split an instruction word (R158). -/
def decodeIns (w : Nat) : Ins :=
  let f := bits w 0 2
  { op := bits w 2 6, fmt := f, pg := bits w 26 3, fn := bits w 29 3,
    d := if f = 3 then bits w 8 4 else bits w 8 6,
    a := if f = 3 then bits w 12 4 else if f = 2 then bits w 14 4 else bits w 14 6,
    b := bits w 20 6,
    imm := match f with | 1 => sext 12 (bits w 20 12) | 2 => sext 8 (bits w 18 8) | 3 => (bits w 16 16 : Nat) | _ => 0 }

/-- The word that spells an instruction (R158): the fields of its format, each in its bits; an immediate in two's complement. -/
def encodeIns (i : Ins) : Nat :=
  i.fmt + 2 ^ 2 * i.op + match i.fmt with
    | 0 => 2 ^ 8 * i.d + 2 ^ 14 * i.a + 2 ^ 20 * i.b + 2 ^ 26 * i.pg + 2 ^ 29 * i.fn
    | 1 => 2 ^ 8 * i.d + 2 ^ 14 * i.a + 2 ^ 20 * wrapInt 12 i.imm
    | 2 => 2 ^ 8 * i.d + 2 ^ 14 * i.a + 2 ^ 18 * wrapInt 8 i.imm + 2 ^ 26 * i.pg + 2 ^ 29 * i.fn
    | _ => 2 ^ 8 * i.d + 2 ^ 12 * i.a + 2 ^ 16 * i.imm.toNat

/-- The roles of an instruction's register fields (R159-R160): those of its opcode, without a source that its FN does not read. -/
def Ins.roles (i : Ins) : List Role :=
  match i.op, i.fn, (insSpec i.op).elim [] (·.roles) with
  | 0x10, 0, l | 0x10, 3, l | 0x12, 7, l => l
  | 0x10, _, _ | 0x12, _, _ => [.v, .v, .u]
  | 0x1A, 4, _ => [.p, .p, .u]
  | 0x1A, 5, _ | 0x1A, 6, _ => [.p, .u, .u]
  | _, _, l => l

/-- The instruction is ILLEGAL (R159, R160, R163). -/
def Ins.illegal (i : Ins) : Bool :=
  match insSpec i.op with
  | none => true
  | some sp =>
    sp.fmt != i.fmt || ((i.fmt == 0 || i.fmt == 2) && !sp.fns.contains i.fn)
      || ([i.d, i.a, i.b].zip i.roles).any (fun x => decide (2 ^ x.2.width ≤ x.1))
      || (i.op == 0x11 && bits i.b 2 4 == 15) || (i.op == 0x0E && i.pg < 4)

/-- The vector registers it names, v(n+1) among them (R159). -/
def Ins.vregs (i : Ins) : List Nat :=
  (([i.d, i.a, i.b].zip i.roles).filter fun x => x.2 == .v).map (·.1) ++ (if i.op == 0x2B || i.op == 0x31 || i.op == 0x19 || (i.op == 0x12 && i.fn == 6) then [i.d + 1] else [])
    ++ (if i.op == 0x11 && i.fn == 6 then [i.a + 1] else [])

/-- A thread at its next instruction. -/
structure VCtx where
  t : ThreadRef
  th : Thread
  l : Launch
  i : Ins
  deriving Repr

/-- The lanes that execute (R158, R161), and whether the mask is poisoned. -/
def VCtx.mask (c : VCtx) : Nat := if 4 ≤ c.i.pg then c.th.p.getD (c.i.pg % 4) 0 else 0xFFFFFFFF
def VCtx.maskBad (c : VCtx) : Bool := decide (4 ≤ c.i.pg) && c.th.badP.contains (c.i.pg % 4)

/-- Registers of the thread. -/
def Thread.vec (t : Thread) (r : Nat) : List Nat := lanes (Sparse.get 0 t.v r)
def Thread.scalar (t : Thread) (r : Nat) : Nat := (t.s.getD r 0).toNat

/-- Set or clear a poison mark (R167). -/
def remark (l : List Nat) (r : Nat) (bad whole : Bool) : List Nat :=
  if bad then r :: l.filter (· != r) else if whole then l.filter (· != r) else l

/-- Write the masked lanes of a vector register (R161, R167). -/
def Thread.setVec (t : Thread) (r : Nat) (vals : List Nat) (mask : Nat) (bad : Bool) : Thread :=
  let new := (List.range 32).map fun i => if bit mask i then vals.getD i 0 else (t.vec r).getD i 0
  { t with v := Sparse.set t.v r (ofLanes new), badV := remark t.badV r bad (mask == 0xFFFFFFFF) }

/-- Write a scalar register. -/
def Thread.setScalar (t : Thread) (r v : Nat) (bad : Bool) : Thread :=
  { t with s := setAt t.s r (BitVec.ofNat 64 v), badS := remark t.badS r bad true }

/-- Write the masked bits of a predicate. -/
def Thread.setMask (t : Thread) (r v mask : Nat) (bad : Bool) : Thread :=
  let new := ofBits ((List.range 32).filter fun i => if bit mask i then bit v i else bit (t.p.getD r 0) i)
  { t with p := setAt t.p r new, badP := remark t.badP r bad (mask == 0xFFFFFFFF) }

/-- The next instruction's index, `k` further on (R148: 12 bits). -/
def Thread.advance (t : Thread) (k : Int := 1) : Thread := { t with pc := wrapInt 12 ((t.pc : Int) + k) }

/-- Hold a thread. -/
def State.setThread (s : State) (t : ThreadRef) (th : Thread) : State :=
  s.modBlock t.node t.blk fun b => { b with threads := Sparse.set b.threads t.key th }

/-- The vector cells of a block run: it is in service and its clock runs (R69, R400). -/
def State.vecRuns (s : State) (node blk : Nat) : Bool :=
  s.works node blk && !(s.block node blk).stopped

/-- The test holds the cell's issue slots (R170); for a checked pair, either cell's test. -/
def State.underTest (s : State) (t : ThreadRef) (checked : Bool) : Bool :=
  let c := s.fld F.vxcStat_testCell t.node t.blk
  c == t.cell || (checked && c == t.cell + 1)

/-- A thread that may issue, at its next instruction (R152). -/
def State.vecCtx (s : State) (t : ThreadRef) : Option VCtx :=
  match Sparse.find? (s.block t.node t.blk).threads t.key with
  | some th => match (s.block t.node t.blk).launch? th.launch with
    | some l => match l.image[th.pc]? with
      | some w => if th.park == .ready && l.fault.isNone && s.vecRuns t.node t.blk && !s.underTest t l.checked then
          some ⟨t, th, l, decodeIns w⟩ else none
      | none => none
    | none => none
  | none => none

/-- A thread fault (R166, R174): POISON_USE and CHECK end the launch POISONED, the other causes ACCESS_FAULT. -/
def State.threadFault (s : State) (c : VCtx) (cause : Nat) : State :=
  s.faultLaunch c.t.node c.t.blk c.t.cell c.t.entry c.l cause (if cause = 5 ∨ cause = 7 then .poisoned else .accessFault) c.th.pc c.th.group

/-- One instruction of opcode `op` of a thread (R159): the checks every instruction passes, then `run`. An unassigned opcode faults under
any row. -/
def vecStep (op : Nat) (t : ThreadRef) (s : State) (run : VCtx → Out) : Out :=
  need (decide (t.cell < 14) && decide (t.entry < 256)) .noSuch <|
  match s.vecCtx t with
  | none => .refused .wrongState
  | some c =>
    need ((insSpec c.i.op).isNone || c.i.op == op) .wrongCommand <|
    if c.i.illegal then .next (s.threadFault c 0)
    else if c.i.vregs.any (fun r => decide (c.l.regs ≤ r)) then .next (s.threadFault c 1)
    else run c

/-- An instruction that changes its thread alone, or faults with a cause. -/
def regRow (op : Nat) (t : ThreadRef) (s : State) (f : VCtx → Except Nat Thread) : Out :=
  vecStep op t s fun c => match f c with
    | .ok th => .next (s.setThread t th.advance)
    | .error cause => .next (s.threadFault c cause)

/-- A vector register is poisoned. -/
def VCtx.badVec (c : VCtx) (r : Nat) : Bool := c.th.badV.contains r
def VCtx.badScalar (c : VCtx) (r : Nat) : Bool := c.th.badS.contains r

/-- VADD to VMAX, VAND to VSH: a lane operation of va and vb (R160-R161). A poisoned shift count faults (R166). -/
def laneRow (op : Nat) (t : ThreadRef) (s : State) : Out :=
  regRow op t s fun c =>
    if op = 0x0B ∧ c.badVec c.i.b then .error 5
    else .ok (c.th.setVec c.i.d (((c.th.vec c.i.a).zip (c.th.vec c.i.b)).map fun x => laneOp op c.i.fn x.1 x.2) c.mask
      (c.badVec c.i.a || c.badVec c.i.b || c.maskBad))

/-- VADD (R160). -/
def execVadd (t : ThreadRef) (s : State) : Out := laneRow 0x00 t s
/-- VSUB (R160). -/
def execVsub (t : ThreadRef) (s : State) : Out := laneRow 0x01 t s
/-- VMUL (R160). -/
def execVmul (t : ThreadRef) (s : State) : Out := laneRow 0x02 t s
/-- VMIN (R147, R160). -/
def execVmin (t : ThreadRef) (s : State) : Out := laneRow 0x04 t s
/-- VMAX (R147, R160). -/
def execVmax (t : ThreadRef) (s : State) : Out := laneRow 0x05 t s
/-- VAND (R160). -/
def execVand (t : ThreadRef) (s : State) : Out := laneRow 0x08 t s
/-- VOR (R160). -/
def execVor (t : ThreadRef) (s : State) : Out := laneRow 0x09 t s
/-- VXOR (R160). -/
def execVxor (t : ThreadRef) (s : State) : Out := laneRow 0x0A t s
/-- VSH (R160). -/
def execVsh (t : ThreadRef) (s : State) : Out := laneRow 0x0B t s

/-- VFMA (R146, R160): vd = va × vb + vd, fused. -/
def execVfma (t : ThreadRef) (s : State) : Out :=
  regRow 0x03 t s fun c =>
    let f := if c.i.fn = 0 then fma32 else fmaBf2
    .ok (c.th.setVec c.i.d (((c.th.vec c.i.a).zip ((c.th.vec c.i.b).zip (c.th.vec c.i.d))).map fun x => f x.1 x.2.1 x.2.2) c.mask
      (c.badVec c.i.a || c.badVec c.i.b || c.badVec c.i.d || c.maskBad))

/-- A lane function of va alone. -/
def oneRow (op : Nat) (f : Nat → Nat) (t : ThreadRef) (s : State) : Out :=
  regRow op t s fun c => .ok (c.th.setVec c.i.d ((c.th.vec c.i.a).map f) c.mask (c.badVec c.i.a || c.maskBad))

/-- VRCP (R147, R160). -/
def execVrcp (t : ThreadRef) (s : State) : Out := oneRow 0x06 rcp32 t s
/-- VRSQ (R147, R160). -/
def execVrsq (t : ThreadRef) (s : State) : Out := oneRow 0x07 rsq32 t s

/-- A lane comparison into predicate VD (R160-R161). -/
def cmpRow (op : Nat) (f : Nat → Nat → Nat → Bool) (t : ThreadRef) (s : State) : Out :=
  regRow op t s fun c =>
    let r := ofBits ((List.range 32).filter fun i => f c.i.fn ((c.th.vec c.i.a).getD i 0) ((c.th.vec c.i.b).getD i 0))
    .ok (c.th.setMask c.i.d r c.mask (c.badVec c.i.a || c.badVec c.i.b || c.maskBad))

/-- VCMPF (R160). -/
def execVcmpf (t : ThreadRef) (s : State) : Out := cmpRow 0x0C cmpF t s
/-- VCMPI (R160). -/
def execVcmpi (t : ThreadRef) (s : State) : Out := cmpRow 0x0D cmpI t s

/-- VSEL (R160): the mask selects; every lane is written. -/
def execVsel (t : ThreadRef) (s : State) : Out :=
  regRow 0x0E t s fun c =>
    .ok (c.th.setVec c.i.d ((List.range 32).map fun i => if bit c.mask i then (c.th.vec c.i.a).getD i 0 else (c.th.vec c.i.b).getD i 0)
      0xFFFFFFFF (c.badVec c.i.a || c.badVec c.i.b || c.maskBad))

/-- VPERM (R160). -/
def execVperm (t : ThreadRef) (s : State) : Out :=
  regRow 0x0F t s fun c =>
    .ok (c.th.setVec c.i.d ((c.th.vec c.i.b).map fun j => (c.th.vec c.i.a).getD (j % 32) 0) c.mask
      (c.badVec c.i.a || c.badVec c.i.b || c.maskBad))

/-- VCVT (R110, R160). -/
def execVcvt (t : ThreadRef) (s : State) : Out :=
  regRow 0x10 t s fun c =>
    .ok (c.th.setVec c.i.d (((c.th.vec c.i.a).zip (c.th.vec c.i.b)).map fun x => laneCvt c.i.fn x.1 x.2) c.mask
      (c.badVec c.i.a || ((c.i.fn == 0 || c.i.fn == 3) && c.badVec c.i.b) || c.maskBad))

/-- Record in BLK_NUMSTAT what a conversion reports (R94, R111-R112, R116). -/
def State.numNotes (s : State) (node blk sat : Nat) (clamp badCode : Bool) : State :=
  let s := if 0 < sat then (s.put F.blkNumstat_qsat node blk 0 1).bump F.blkNumstat_qsatCount node blk 0 sat else s
  let s := if clamp then s.put F.blkNumstat_qscaleClamp node blk 0 1 else s
  if badCode then s.put F.blkNumstat_t5Badcode node blk 0 1 else s

/-- VQNT (R111-R115, R163). Under a mask every lane counts towards the block's scale, and the mask guards the lanes of the destination (log entry 120). -/
def execVqnt (t : ThreadRef) (s : State) : Out :=
  vecStep 0x11 t s fun c =>
    let n := bits c.i.b 2 4
    let st := bit c.i.b 1
    let t5 := c.i.fn == 6
    let vals := c.th.vec c.i.a ++ (if t5 then (c.th.vec (c.i.a + 1)).take 8 else [])
    let q := quantise c.i.fn vals (bit c.i.b 0) (if st then some (c.th.scalar n, c.th.scalar (n + 1)) else none)
    let bad := c.badVec c.i.a || (t5 && c.badVec (c.i.a + 1)) || (st && (c.badScalar n || c.badScalar (n + 1))) || c.maskBad
    .next ((s.numNotes t.node t.blk q.sat q.clamp false).setThread t (c.th.setVec c.i.d (lanes (quantReg c.i.fn q)) c.mask bad).advance)

/-- VDQNT (R94, R110, R163). For T5 lanes 0-7 of v(d+1) hold elements 32-39; its other lanes have no element and are free values of
the block (log entries 2, 118). -/
def execVdqnt (t : ThreadRef) (s : State) : Out :=
  vecStep 0x12 t s fun c =>
    let v := (Sparse.get 0 c.th.v c.i.a).toNat
    let book := (Sparse.get 0 c.th.v c.i.b).toNat % 2 ^ 128
    let out := dequantise c.i.fn book v
    let bad := c.badVec c.i.a || (c.i.fn == 7 && c.badVec c.i.b) || c.maskBad
    let th := c.th.setVec c.i.d (out.take 32) c.mask bad
    if c.i.fn = 6 then
      let rest := out.drop 32 ++ (List.range 24).map fun k => (Config.openResult 0x12 [v, k]).toNat
      .next ((s.numNotes t.node t.blk 0 false (badTrits v)).setThread t
        (th.setVec (c.i.d + 1) rest c.mask bad).advance)
    else .next (s.setThread t th.advance)

/-- VCRV (R164-R165, R167): a table never loaded gives 0. -/
def execVcrv (t : ThreadRef) (s : State) : Out :=
  regRow 0x13 t s fun c =>
    let b := s.block t.node t.blk
    let f := match Sparse.find? b.curves c.i.b with | some tab => curve tab | none => fun _ => 0
    .ok (c.th.setVec c.i.d ((c.th.vec c.i.a).map f) c.mask (c.badVec c.i.a || b.badCurves.contains c.i.b || c.maskBad))

/-- VRED (R161-R162): the 32-bit result in the low half of the scalar; the high half is a free value of the
operands (log entries 2, 118). -/
def execVred (t : ThreadRef) (s : State) : Out :=
  regRow 0x14 t s fun c =>
    let x := c.th.vec c.i.a
    let high := bits (Config.openResult 0x14 (c.i.fn :: c.mask :: x)).toNat 32 32
    .ok (c.th.setScalar c.i.d (reduce c.i.fn c.mask x + high * 2 ^ 32) (c.badVec c.i.a || c.maskBad))

/-- VSCAN (R161-R162). -/
def execVscan (t : ThreadRef) (s : State) : Out :=
  regRow 0x15 t s fun c => .ok (c.th.setVec c.i.d (scan c.i.fn c.mask (c.th.vec c.i.a)) c.mask (c.badVec c.i.a || c.maskBad))

/-- VZBM (R161, R163). -/
def execVzbm (t : ThreadRef) (s : State) : Out :=
  regRow 0x16 t s fun c =>
    let r := if c.i.fn = 7 then ofBits ((List.range 32).filter fun i => bit c.mask i && (c.th.vec c.i.a).getD i 0 % 2 ^ 31 == 0)
      else zeroBits c.i.fn (Sparse.get 0 c.th.v c.i.a).toNat
    .ok (c.th.setScalar c.i.d r (c.badVec c.i.a || (c.i.fn == 7 && c.maskBad)))

/-- VBCS (R160). -/
def execVbcs (t : ThreadRef) (s : State) : Out :=
  regRow 0x17 t s fun c => .ok (c.th.setVec c.i.d (List.replicate 32 (c.th.scalar c.i.a % 2 ^ 32)) c.mask (c.badScalar c.i.a || c.maskBad))

/-- PLOG (R160). -/
def execPlog (t : ThreadRef) (s : State) : Out :=
  regRow 0x1A t s fun c =>
    let x := c.th.p.getD c.i.a 0 % 2 ^ 32
    let y := c.th.p.getD c.i.b 0 % 2 ^ 32
    let all := 2 ^ 32 - 1
    let r := match c.i.fn with
      | 0 => Nat.land x y | 1 => Nat.lor x y | 2 => Nat.xor x y | 3 => Nat.land x (all - y) | 4 => all - x | 5 => all | _ => 0
    let bad := (decide (c.i.fn < 5) && c.th.badP.contains c.i.a) || (decide (c.i.fn < 4) && c.th.badP.contains c.i.b) || c.maskBad
    .ok (c.th.setMask c.i.d r c.mask bad)

/-- VIDX (R160). -/
def execVidx (t : ThreadRef) (s : State) : Out :=
  regRow 0x1B t s fun c =>
    let base := match c.i.fn with | 0 => 0 | 1 => 32 * c.th.index | _ => 32 * c.th.group
    .ok (c.th.setVec c.i.d ((List.range 32).map fun i => (base + i) % 2 ^ 32) c.mask c.maskBad)

/-- SOP (R160). A count of 64 or more of SHL and SHR gives a free value of the operands (log entries 2, 118); a poisoned count faults
(R166). -/
def execSop (t : ThreadRef) (s : State) : Out :=
  regRow 0x1C t s fun c =>
    let x := c.th.scalar c.i.a
    let y := c.th.scalar c.i.b
    if 6 ≤ c.i.fn ∧ c.badScalar c.i.b then .error 5
    else
      let r := if 6 ≤ c.i.fn ∧ 64 ≤ y then (Config.openResult 0x1C [c.i.fn, x, y]).toNat else match c.i.fn with
        | 0 => x + y | 1 => x + 2 ^ 64 - y | 2 => x * y | 3 => Nat.land x y | 4 => Nat.lor x y | 5 => Nat.xor x y
        | 6 => x * 2 ^ y | _ => x / 2 ^ y
      .ok (c.th.setScalar c.i.d r (c.badScalar c.i.a || c.badScalar c.i.b))

/-- SMOVV (R160). -/
def execSmovv (t : ThreadRef) (s : State) : Out :=
  regRow 0x1D t s fun c => .ok (c.th.setScalar c.i.d ((c.th.vec c.i.a).getD c.i.b 0) (c.badVec c.i.a))

/-- SRD (R160): the core cycle count is a free value (log entry 2). -/
def execSrd (t : ThreadRef) (s : State) : Out :=
  vecStep 0x1E t s fun c =>
    let (k, s') := s.draw
    let r := match c.i.fn with
      | 0 => s.timeAt t.node | 1 => (Config.cycleCount k).toNat | 2 => c.l.tag | 3 => s.lnum t.node | _ => t.blk
    .next ((if c.i.fn = 1 then s' else s).setThread t (c.th.setScalar c.i.d r false).advance)

/-- A scalar operation with IMM12 (R160). -/
def immRow (op : Nat) (f : Nat → Int → Nat) (t : ThreadRef) (s : State) : Out :=
  regRow op t s fun c => .ok (c.th.setScalar c.i.d (f (c.th.scalar c.i.a) c.i.imm) (c.badScalar c.i.a))

/-- SADDI (R160). -/
def execSaddi (t : ThreadRef) (s : State) : Out := immRow 0x20 (fun x k => wrapInt 64 (x + k)) t s
/-- SANDI (R160). -/
def execSandi (t : ThreadRef) (s : State) : Out := immRow 0x21 (fun x k => Nat.land x (wrapInt 64 k)) t s
/-- SORI (R160). -/
def execSori (t : ThreadRef) (s : State) : Out := immRow 0x22 (fun x k => Nat.lor x (wrapInt 64 k)) t s
/-- SSHI (R160): IMM12[6] selects a right logical shift. -/
def execSshi (t : ThreadRef) (s : State) : Out :=
  immRow 0x23 (fun x k => let n := wrapInt 12 k
    if bit n 6 then x / 2 ^ (n % 64) else x * 2 ^ (n % 64)) t s
/-- SSHIN (R160). -/
def execSshin (t : ThreadRef) (s : State) : Out := immRow 0x24 (fun x k => x * 4096 + wrapInt 12 k) t s

/-- VBCI (R160). -/
def execVbci (t : ThreadRef) (s : State) : Out :=
  regRow 0x25 t s fun c => .ok (c.th.setVec c.i.d (List.replicate 32 (wrapInt 32 c.i.imm)) 0xFFFFFFFF false)

/-- VADDI (R160). -/
def execVaddi (t : ThreadRef) (s : State) : Out :=
  regRow 0x26 t s fun c => .ok (c.th.setVec c.i.d ((c.th.vec c.i.a).map fun (x : Nat) => wrapInt 32 ((x : Int) + c.i.imm)) 0xFFFFFFFF (c.badVec c.i.a))

/-- A branch: a poisoned condition faults (R166); the offset counts from the branch's own index. -/
def branchRow (op : Nat) (bad take : VCtx → Bool) (t : ThreadRef) (s : State) : Out :=
  vecStep op t s fun c =>
    if bad c then .next (s.threadFault c 5)
    else .next (s.setThread t (c.th.advance (if take c then sext 16 c.i.imm.toNat else 1)))

/-- The scalars a branch compares. -/
def VCtx.pair (c : VCtx) : Nat × Nat := (c.th.scalar c.i.d, c.th.scalar c.i.a)
def VCtx.pairBad (c : VCtx) : Bool := c.badScalar c.i.d || c.badScalar c.i.a

/-- BRA (R160). -/
def execBra (t : ThreadRef) (s : State) : Out := branchRow 0x34 (fun _ => false) (fun _ => true) t s
/-- BEQ (R160). -/
def execBeq (t : ThreadRef) (s : State) : Out := branchRow 0x35 VCtx.pairBad (fun c => c.pair.1 == c.pair.2) t s
/-- BNE (R160). -/
def execBne (t : ThreadRef) (s : State) : Out := branchRow 0x36 VCtx.pairBad (fun c => c.pair.1 != c.pair.2) t s
/-- BLT (R160). -/
def execBlt (t : ThreadRef) (s : State) : Out := branchRow 0x37 VCtx.pairBad (fun c => decide (sext 64 c.pair.1 < sext 64 c.pair.2)) t s
/-- BGE (R160). -/
def execBge (t : ThreadRef) (s : State) : Out := branchRow 0x38 VCtx.pairBad (fun c => decide (sext 64 c.pair.2 ≤ sext 64 c.pair.1)) t s
/-- BPANY (R160). -/
def execBpany (t : ThreadRef) (s : State) : Out :=
  branchRow 0x39 (fun c => c.th.badP.contains c.i.d) (fun c => c.th.p.getD c.i.d 0 != 0) t s
/-- BPALL (R160). -/
def execBpall (t : ThreadRef) (s : State) : Out :=
  branchRow 0x3A (fun c => c.th.badP.contains c.i.d) (fun c => c.th.p.getD c.i.d 0 == 0xFFFFFFFF) t s

end Sys2Proof.Machine
end

