-- ==== Sys2Proof/Machine/VecMem.lean ====
section
/-!
DEFINITION. Vector instructions that reach memory, the fabric, the gate unit, hurdles, and the end of a thread (R154-R157, R160, R164-R169,
R289, R293); compare points of checked launches.
-/
namespace Sys2Proof.Machine

/-- Free bytes, for a range that is written with poison marks and whose data the spec leaves open (log entry 2). -/
def freeBytes (k n : Nat) : List Byte := (List.range n).map fun i => Config.freeByte k i

/-- The group a thread belongs to. -/
def State.groupOf (s : State) (c : VCtx) : Option Group :=
  (s.block c.t.node c.t.blk).groups.find? fun g => g.launch == c.th.launch && g.group == c.th.group

/-- The requester a thread is. -/
def VCtx.who (c : VCtx) : Requester := ⟨c.t.node, c.t.blk, c.l.tag⟩

/-- First byte of a group's local memory on a cell, as an offset of the block window (R38). -/
def Spot.base (p : Spot) : Nat := 0x3000000 + p.cell * 0x10000 + p.unit * 4096

/-- What a local instruction reaches (R154). -/
inductive Reach where
  /-- VLD, VLDX, SLD -/
  | load
  /-- VST, VSTX, SST, VATOM -/
  | store
  /-- VCLD -/
  | table
  deriving DecidableEq, Repr

/-- The block-window offset a local access names, where the thread may reach it (R154, R198, R205, R259). -/
def State.ownLoc (s : State) (c : VCtx) (k : Reach) (a n : Nat) : Option Nat :=
  match s.locate c.t.node (s.fld F.rtrEpoch_injEpoch c.t.node) a n with
  | .ok (_, .scratch node blk off) =>
    let local' := match s.groupOf c with
      | some g => decide (g.spot.base ≤ off) && decide (off + n ≤ g.spot.base + g.units * 4096)
      | none => false
    let ok := node == c.t.node && blk == c.t.blk && (local' ||
      (inAS off && (if k = .store then s.mayWriteAS c.who node blk off n else s.mayReadAS c.who node blk off n)) ||
      (inPS off && k != .table && !inShadow off n) || (inWS off && k == .load))
    if ok then some off else none
  | _ => none

/-- Read bytes a thread reaches at a window offset. -/
def State.ownRead (s : State) (c : VCtx) (off n : Nat) : List Byte × Bool × State := s.readBlk c.t.node c.t.blk off n

/-- Write bytes a thread reaches: local memory of a pair is written on both cells (R168). -/
def State.ownWrite (s : State) (c : VCtx) (off : Nat) (bs : List Byte) (poison : Bool) : State :=
  let s1 := s.writeBlk c.t.node c.t.blk off (allOn bs) poison
  match s.groupOf c with
  | some g => match g.twin with
    | some p => if 0x3000000 ≤ off then s1.writeBlk c.t.node c.t.blk (p.base + (off - g.spot.base)) (allOn bs) poison else s1
    | none => s1
  | none => s1

/-- The launch will complete POISONED, unless a condition was detected before (R7, R167). -/
def State.poisonLaunch (s : State) (c : VCtx) : State :=
  (s.modBlock c.t.node c.t.blk fun b => match b.launch? c.l.id with
    | some l => b.setLaunch { l with poisoned := true }
    | none => b).condition c.l.q .poisoned

/-- A mismatch at a compare point (R169): counted and logged, both cells tested at once, the launch stopped. -/
def State.checkMismatch (s : State) (c : VCtx) (skew : Bool) : State :=
  let n := c.t.node
  let j := c.t.cell / 2
  let s := ((s.bump F.vxcCheck_mismatches n c.t.blk 0).put F.vxcCheck_lastPair n c.t.blk 0 j).put F.vxcCheck_lastSkew n c.t.blk 0 (b2n skew)
  let s := s.error ⟨n, pageOf .vxc n c.t.blk, 2 * j, some c.l.tag⟩ 8 .de ((((s.queue c.l.q).cur).map InFlight.addr).getD 0) 0
  (s.modBlock n c.t.blk fun b => { b with vecQueue := b.vecQueue ++ [2 * j, 2 * j + 1] }).threadFault c 7

/-- A compare point (R168-R169). `mism` is none where the two cells agree or the launch is unchecked; on a mismatch it says whether both named
the same address, and `spoil` writes that range with poison marks. -/
def compare (c : VCtx) (mism : Option Bool) (s : State) (spoil : State → State) (commit : Out) : Out :=
  match mism with
  | none => commit
  | some same => need c.l.checked .wrongState <| .next ((if same then spoil s else s).checkMismatch c false)

/-- The lanes of an instruction and their addresses. -/
def VCtx.lanesAt (c : VCtx) (f : Nat → Nat) : List (Nat × Nat) := (setBits 32 c.mask).map fun i => (i, f i % 2 ^ 64)

/-- sSB + IMM8 × scale (R158). -/
def VCtx.addr (c : VCtx) (scale : Nat) : Nat := wrapInt 64 ((c.th.scalar c.i.a : Int) + c.i.imm * scale)

/-- Bytes of an element of VLD and VST (R160). -/
def elemSize : Nat → Nat | 0 => 4 | 1 => 2 | _ => 1

/-- Every address is aligned, then every one is reachable: the window offsets, or the first cause (R154-R155). -/
def State.reachAll (s : State) (c : VCtx) (k : Reach) (size : Nat) (l : List (Nat × Nat)) : Except Nat (List (Nat × Nat)) :=
  if l.any fun x => x.2 % size != 0 then .error 2
  else
    let offs := l.filterMap fun x => (s.ownLoc c k x.2 size).map fun o => (x.1, o)
    if offs.length = l.length then .ok offs else .error 3

/-- Load the lanes: values by lane, poison found. -/
def State.loadLanes (s : State) (c : VCtx) (size : Nat) (l : List (Nat × Nat)) : List (Nat × Nat) × Bool × State :=
  l.foldl (fun x o =>
    let (bs, p, s) := x.2.2.ownRead c o.2 size
    (x.1 ++ [(o.1, leNat bs)], x.2.1 || p, s)) ([], false, s)

/-- The loaded values as lanes. -/
def asLanes (l : List (Nat × Nat)) : List Nat := (List.range 32).map fun i => ((l.find? fun x => x.1 == i).map (·.2)).getD 0

/-- Loads of lanes at addresses. -/
def gather (c : VCtx) (s : State) (size : Nat) (f : Nat → Nat) : Out :=
  match s.reachAll c .load size (c.lanesAt f) with
  | .error e => .next (s.threadFault c e)
  | .ok offs =>
    let (vals, p, s) := s.loadLanes c size offs
    .next (s.setThread c.t (c.th.setVec c.i.d (asLanes vals) c.mask (p || c.maskBad)).advance)

/-- VLD (R154-R155, R160-R161, R167). -/
def execVld (t : ThreadRef) (s : State) : Out :=
  vecStep 0x28 t s fun c =>
    let n := elemSize c.i.fn
    if c.badScalar c.i.a then .next (s.threadFault c 5)
    else if c.addr 128 % n ≠ 0 then .next (s.threadFault c 2)
    else gather c s n fun i => c.addr 128 + i * n

/-- VLDX (R160): a word at sSB + v[i] for each lane. -/
def execVldx (t : ThreadRef) (s : State) : Out :=
  vecStep 0x2A t s fun c =>
    if c.badScalar c.i.a || c.badVec c.i.d then .next (s.threadFault c 5)
    else gather c s 4 fun i => c.th.scalar c.i.a + (c.th.vec c.i.d).getD i 0

/-- The bytes lanes store, by window offset; a byte that two lanes name is a free value of what the lanes store (log entries 2, 118). -/
def laneBytes (size : Nat) (l : List (Nat × Nat × Nat)) : Sparse Byte :=
  let clash := fun (a : Nat) => (Config.openResult 0x2B (a :: size :: l.flatMap fun x => [x.2.1, x.2.2])).setWidth 8
  l.foldl (fun m x => (List.range size).foldl (fun m j =>
    Sparse.set m (x.2.1 + j) (if (Sparse.find? m (x.2.1 + j)).isSome then clash (x.2.1 + j) else BitVec.ofNat 8 (x.2.2 / 256 ^ j))) m) []

/-- Adjacent bytes as runs. -/
def byteRuns (m : Sparse Byte) : List (Nat × List Byte) :=
  m.foldr (fun e l => match l with
    | (a, bs) :: rest => if e.1 + 1 = a then (e.1, e.2 :: bs) :: rest else (e.1, [e.2]) :: l
    | [] => [(e.1, [e.2])]) []

/-- Store lanes: one access, its lanes merged by 8-byte word (R190). A compare point (R168). -/
def scatter (c : VCtx) (s : State) (mism : Option Bool) (size src : Nat) (f : Nat → Nat) : Out :=
  match s.reachAll c .store size (c.lanesAt f) with
  | .error e => .next (s.threadFault c e)
  | .ok offs =>
    let vals := c.th.vec src
    let runs := byteRuns (laneBytes size (offs.map fun o => (o.1, o.2, vals.getD o.1 0)) |>.map fun e => (e.1, e.2))
    let bad := c.badVec src || c.maskBad
    let s := { s with freeCount := s.freeCount + 1 }
    compare c mism s
      (fun s => runs.foldl (fun s r => s.ownWrite c r.1 (freeBytes (s.freeCount - 1) r.2.length) true) s)
      (let s := runs.foldl (fun s r => s.ownWrite c r.1 r.2 bad) s
       .next ((if bad then s.poisonLaunch c else s).setThread c.t c.th.advance))

/-- VST (R154-R155, R160-R161, R167-R169, R190). -/
def execVst (t : ThreadRef) (mism : Option Bool) (s : State) : Out :=
  vecStep 0x29 t s fun c =>
    let n := elemSize c.i.fn
    if c.badScalar c.i.a then .next (s.threadFault c 5)
    else if c.addr 128 % n ≠ 0 then .next (s.threadFault c 2)
    else scatter c s mism n c.i.d fun i => c.addr 128 + i * n

/-- VSTX (R160, R190): lane i of v+1 at sSB + v[i]. -/
def execVstx (t : ThreadRef) (mism : Option Bool) (s : State) : Out :=
  vecStep 0x2B t s fun c =>
    if c.badScalar c.i.a || c.badVec c.i.d then .next (s.threadFault c 5)
    else scatter c s mism (elemSize c.i.fn) (c.i.d + 1) fun i => c.th.scalar c.i.a + (c.th.vec c.i.d).getD i 0

/-- SLD (R154-R155, R160, R167). -/
def execSld (t : ThreadRef) (s : State) : Out :=
  vecStep 0x2C t s fun c =>
    let a := c.addr 8
    if c.badScalar c.i.a then .next (s.threadFault c 5)
    else if a % 8 ≠ 0 then .next (s.threadFault c 2)
    else match s.ownLoc c .load a 8 with
      | none => .next (s.threadFault c 3)
      | some off =>
        let (bs, p, s) := s.ownRead c off 8
        .next (s.setThread t (c.th.setScalar c.i.d (leNat bs) p).advance)

/-- SST (R154-R155, R160, R167-R169). -/
def execSst (t : ThreadRef) (mism : Option Bool) (s : State) : Out :=
  vecStep 0x2D t s fun c =>
    let a := c.addr 8
    if c.badScalar c.i.a then .next (s.threadFault c 5)
    else if a % 8 ≠ 0 then .next (s.threadFault c 2)
    else match s.ownLoc c .store a 8 with
      | none => .next (s.threadFault c 3)
      | some off =>
        let bad := c.badScalar c.i.d
        compare c mism { s with freeCount := s.freeCount + 1 } (fun s => s.ownWrite c off (freeBytes (s.freeCount - 1) 8) true)
          (let s := s.ownWrite c off (leBytes 8 (c.th.scalar c.i.d)) bad
           .next ((if bad then s.poisonLaunch c else s).setThread t c.th.advance))

/-- VATOM's operation (R160). -/
def atomOp (fn old x : Nat) : Nat :=
  match fn with | 0 => add32 old x | 1 => (old + x) % 2 ^ 32 | 2 => maxS old x | _ => minS old x

/-- VATOM (R109, R154, R160, R167-R169): lanes in ascending order. -/
def execVatom (t : ThreadRef) (mism : Option Bool) (s : State) : Out :=
  vecStep 0x31 t s fun c =>
    if c.badScalar c.i.a || c.badVec c.i.d then .next (s.threadFault c 5)
    else match s.reachAll c .store 4 (c.lanesAt fun i => c.th.scalar c.i.a + (c.th.vec c.i.d).getD i 0) with
      | .error e => .next (s.threadFault c e)
      | .ok offs =>
        let src := c.badVec (c.i.d + 1) || c.maskBad
        let vals := c.th.vec (c.i.d + 1)
        let one := fun (x : Bool × State) (o : Nat × Nat) =>
          let (bs, p, s) := x.2.ownRead c o.2 4
          (x.1 || p, s.ownWrite c o.2 (leBytes 4 (atomOp c.i.fn (leNat bs) (vals.getD o.1 0))) (src || p))
        compare c mism { s with freeCount := s.freeCount + 1 }
          (fun s => offs.foldl (fun s o => s.ownWrite c o.2 (freeBytes (s.freeCount - 1) 4) true) s)
          (let (bad, s) := offs.foldl one (src, s)
           .next ((if bad then s.poisonLaunch c else s).setThread t c.th.advance))

/-- VCLD (R154-R155, R164-R165, R167). It writes no range of memory, so a mismatch of its values marks nothing (log entry 121). -/
def execVcld (t : ThreadRef) (mism : Option Bool) (s : State) : Out :=
  vecStep 0x33 t s fun c =>
    let a := c.addr 16
    if c.badScalar c.i.a then .next (s.threadFault c 5)
    else if !bit c.l.ctWrite c.i.d then .next (s.threadFault c 8)
    else if a % 16 ≠ 0 then .next (s.threadFault c 2)
    else match s.ownLoc c .table a 1040 with
      | none => .next (s.threadFault c 3)
      | some off =>
        let (bs, p, s) := s.ownRead c off 1040
        let v := leNat bs
        if 1 < bits v 64 8 then .next (s.threadFault c 0)
        else compare c mism s id
          (.next ((s.modBlock t.node t.blk fun b => { b with curves := Sparse.set b.curves c.i.d v, badCurves := remark b.badCurves c.i.d p true }).setThread
            t c.th.advance))

/-- Where a remote access may go (R154): over the fabric as it stands, into a held pen, or the cause it faults with. -/
inductive Remote where
  | plain | pen
  | faults (cause : Nat)
  deriving DecidableEq, Repr

/-- What VSTR and SATOMR may name (R154): a scratchpad outside a held pen faults NO_PEN; a cell's local memory, control-core memory and register
pages fault ADDRESS. -/
def State.remoteAt (s : State) (c : VCtx) (a n : Nat) : Remote :=
  let store := fun (off : Nat) => Remote.faults (if inAS off || inPS off || inWS off then 4 else 3)
  if s.inHeldPen c.t.node c.t.blk a n then .pen
  else match s.locate c.t.node (s.fld F.rtrEpoch_injEpoch c.t.node) a n with
    | .ok (_, .stack ..) | .ok (_, .host _) | .ok (_, .peer ..) | .error .routeNone => .plain
    | .ok (_, .scratch _ _ off) => store off
    | .error .targetRetired => store (windowOff a)
    | _ => .faults 3

/-- What VLDR may name (R36, R154): never register pages, control-core memory or the local memory of another cell or of the scalar cell. -/
def State.remoteRead (s : State) (c : VCtx) (a : Nat) : Bool :=
  match s.locate c.t.node (s.fld F.rtrEpoch_injEpoch c.t.node) a 128 with
  | .ok (_, .scratch _ _ off) => decide (off < 0x3000000) || (s.ownLoc c .load a 128).isSome
  | .ok (_, .reg ..) => false
  | .error .targetRetired => decide (windowOff a < 0x3000000)
  | .error .accessFault => false
  | _ => true

/-- VLDRs of a cell whose replies are awaited (R156). -/
def State.replySlots (s : State) (t : ThreadRef) : Nat :=
  (s.outstanding.filter fun r => match r.purpose with
    | .threadRead u _ _ => u.node == t.node && u.blk == t.blk && u.cell == t.cell | _ => false).length

/-- VLDR (R154-R156, R160): parks until the reply; without a free reply slot it does not issue. -/
def execVldr (t : ThreadRef) (s : State) : Out :=
  vecStep 0x2E t s fun c =>
    let a := c.addr 128
    if c.badScalar c.i.a then .next (s.threadFault c 5)
    else if a % 4 ≠ 0 then .next (s.threadFault c 2)
    else if !s.remoteRead c a then .next (s.threadFault c 3)
    else
      need (decide (s.replySlots t < 64)) .notDue <|
      .next ((s.setThread t { c.th.advance with park := .reply }).request t.node
        { op := .readReq, cls := 2, srcUnit := t.blk, jobTag := c.l.tag, addr := a, oparg0 := 128 } (.threadRead t c.l.id c.i.d))

/-- The active words of a register as runs: address and bytes. -/
def maskedRuns (c : VCtx) (r a : Nat) : List (Nat × List Byte) :=
  let vals := c.th.vec r
  byteRuns (laneBytes 4 ((setBits 32 c.mask).map fun i => (i, a + 4 * i, vals.getD i 0)))

/-- A remote store of a vector register (R154-R155, R161, R167-R169). -/
def remoteStore (c : VCtx) (s : State) (mism : Option Bool) (a : Nat) (pen : Bool) : Out :=
  let bad := c.badVec c.i.d || c.maskBad
  let runs := maskedRuns c c.i.d a
  let send := fun (s : State) (bs : Nat × List Byte) (p : Bool) =>
    s.sendBytes c.t.node c.t.blk c.l.tag bs.1 bs.2 p pen (.threadWrite c.t c.l.id c.th.pc)
  let th := { c.th.advance with writes := c.th.writes + runs.length }
  compare c mism { s with freeCount := s.freeCount + 1 }
    (fun s => runs.foldl (fun s r => send s (r.1, freeBytes (s.freeCount - 1) r.2.length) true) (s.setThread c.t th))
    (let s := s.setThread c.t th
     .next (runs.foldl (fun s r => send s r bad) (if bad then s.poisonLaunch c else s)))

/-- VSTR (R154-R155, R160): inside a pen the block holds it is sent as PEN_PUT. -/
def execVstr (t : ThreadRef) (mism : Option Bool) (s : State) : Out :=
  vecStep 0x2F t s fun c =>
    let a := c.addr 128
    if c.badScalar c.i.a then .next (s.threadFault c 5)
    else if a % 4 ≠ 0 then .next (s.threadFault c 2)
    else match s.remoteAt c a 128 with
      | .faults e => .next (s.threadFault c e)
      | .plain => remoteStore c s mism a false
      | .pen => remoteStore c s mism a true

/-- VPUT (R154-R155, R160, R208): into a pen that was revoked it faults NO_PEN. -/
def execVput (t : ThreadRef) (mism : Option Bool) (s : State) : Out :=
  vecStep 0x30 t s fun c =>
    let a := c.addr 128
    if c.badScalar c.i.a then .next (s.threadFault c 5)
    else if a % 4 ≠ 0 then .next (s.threadFault c 2)
    else match s.remoteAt c a 128 with
      | .pen => remoteStore c s mism a true
      | _ => .next (s.threadFault c (if s.inRevokedPen t.node t.blk a 128 then 4 else 3))

/-- The kind of an ATOMIC_ADD in OPARG1 (log entry 12): FP32, INT32, 64-bit. -/
def atomicPacket (unit tag addr value kind : Nat) : Packet :=
  { op := .atomicAdd, cls := 2, srcUnit := unit, jobTag := tag, addr := addr, oparg0 := value, oparg1 := kind }

/-- SATOMR (R154-R155, R160, R166): parks until the completion. -/
def execSatomr (t : ThreadRef) (mism : Option Bool) (s : State) : Out :=
  vecStep 0x32 t s fun c =>
    let a := c.addr 8
    if c.badScalar c.i.a || c.badScalar c.i.d then .next (s.threadFault c 5)
    else if a % 4 ≠ 0 then .next (s.threadFault c 2)
    else
      let go := fun (pen : Bool) => compare c mism { s with freeCount := s.freeCount + 1 }
        (fun s => (s.setThread t { c.th with writes := c.th.writes + 1 }).sendBytes t.node t.blk c.l.tag a (freeBytes (s.freeCount - 1) 4) true pen
          (.threadWrite t c.l.id c.th.pc))
        (.next ((s.setThread t { c.th.advance with park := .atomic }).request t.node
          (atomicPacket t.blk c.l.tag a (c.th.scalar c.i.d % 2 ^ 32) c.i.fn) (.threadAtomic t c.l.id)))
      match s.remoteAt c a 4 with
      | .faults e => .next (s.threadFault c e)
      | .plain => go false
      | .pen => go true

/-- The thread of a launch, where it still stands there. -/
def State.threadOf (s : State) (t : ThreadRef) (launch : Nat) : Option (Thread × Launch) :=
  match Sparse.find? (s.block t.node t.blk).threads t.key, (s.block t.node t.blk).launch? launch with
  | some th, some l => if th.launch = launch then some (th, l) else none
  | _, _ => none

/-- A remote access of a thread completes with a non-DONE status other than POISONED (R166). -/
def State.remoteFault (s : State) (t : ThreadRef) (th : Thread) (l : Launch) (st : Status) (pc : Nat) : State :=
  s.faultLaunch t.node t.blk t.cell t.entry l 6 st pc th.group

/-- The reply of a VLDR arrives (R156, R160-R161, R166-R167): the mask is that of the instruction, which the parked thread still has. -/
def State.threadReadDone (s : State) (t : ThreadRef) (launch vd : Nat) (st : Status) (bs : List Byte) : State :=
  match s.threadOf t launch with
  | none => s
  | some (th, l) =>
    let pc := wrapInt 12 ((th.pc : Int) - 1)
    if st = .done ∨ st = .poisoned then
      let c : VCtx := ⟨t, th, l, decodeIns (l.image.getD pc 0)⟩
      let v := leNat bs
      s.setThread t { th.setVec vd ((List.range 32).map fun i => bits v (32 * i) 32) c.mask (st == .poisoned || c.maskBad) with park := .ready }
    else s.remoteFault t th l st pc

/-- A remote write of a thread completes (R155, R166). -/
def State.threadWriteDone (s : State) (t : ThreadRef) (launch pc : Nat) (st : Status) : State :=
  match s.threadOf t launch with
  | none => s
  | some (th, l) =>
    let s := s.setThread t { th with writes := th.writes - 1 }
    let s := if st = .done ∨ st = .poisoned then s else s.remoteFault t th l st pc
    s.settleLaunch t.node t.blk launch

/-- A remote atomic of a thread completes (R155, R160, R166). -/
def State.threadAtomicDone (s : State) (t : ThreadRef) (launch : Nat) (st : Status) : State :=
  match s.threadOf t launch with
  | none => s
  | some (th, l) =>
    if st = .done ∨ st = .poisoned then s.setThread t { th with park := .ready }
    else s.remoteFault t th l st (wrapInt 12 ((th.pc : Int) - 1))

/-- The order of R290: the higher score, then the lower expert; zeros of both signs are equal. -/
def betterCand (a b : Nat × Nat) : Bool :=
  let x := f32.decode a.1
  let y := f32.decode b.1
  y.lt x || (!x.lt y && decide (a.2 < b.2))

/-- Put a candidate in its place; a NaN score is never selected (R289-R290). -/
def insertCand (l : List (Nat × Nat)) (e : Nat × Nat) : List (Nat × Nat) :=
  if (f32.decode e.1).isNan then l else (l.takeWhile fun x => !betterCand e x) ++ [e] ++ l.dropWhile fun x => !betterCand e x

/-- The gate unit of a block runs a select, with scores from VGSC or with any (R289, R293). -/
def State.selecting (s : State) (node blk : Nat) (fromLists : Bool) : Bool :=
  (List.range 4).any fun i => match (s.queue ⟨node, blk, 3, i⟩).cur with
    | some x => dOpcode x.desc == 0x40 && x.status.isNone && !(fromLists && bit x.desc 154)
    | none => false

/-- VGSC (R167, R289): the scores of the active lanes join the token's candidate list. It writes no range of memory, so a mismatch of its values
marks nothing (log entry 121). -/
def execVgsc (t : ThreadRef) (mism : Option Bool) (s : State) : Out :=
  vecStep 0x18 t s fun c =>
    need (!s.selecting t.node t.blk true) .notDue <|
    let tok := c.th.scalar c.i.d
    let e := c.th.scalar c.i.b
    let act := setBits 32 c.mask
    if c.badScalar c.i.d || c.badScalar c.i.b then .next (s.threadFault c 5)
    else if 4095 < tok ∨ act.any (fun i => decide (1023 < (e + i) % 2 ^ 64)) then .next (s.threadFault c 3)
    else compare c mism s id
      (if act.isEmpty then .next (s.setThread t c.th.advance) else
       .next (((s.put F.gtuStat_listsHeld t.node t.blk 0 1).modBlock t.node t.blk fun b =>
        let x := Sparse.get {} b.cands tok
        let best := act.foldl (fun l i => (insertCand l ((c.th.vec c.i.a).getD i 0, (e + i) % 2 ^ 64)).take 8) x.best
        { b with cands := Sparse.set b.cands tok ⟨x.count + act.length, best, x.bad || c.badVec c.i.a || c.maskBad⟩ }).setThread t c.th.advance))

/-- VGRD (R293): the token's record into lanes 0-15 of vd, its status entry into lane 0 of vd+1. -/
def execVgrd (t : ThreadRef) (s : State) : Out :=
  vecStep 0x19 t s fun c =>
    need (!s.selecting t.node t.blk false) .notDue <|
    let tok := c.th.scalar c.i.a
    if c.badScalar c.i.a then .next (s.threadFault c 5)
    else match (s.block t.node t.blk).selects with
      | [] => .next (s.threadFault c 3)
      | x :: _ =>
        if x.tokens ≤ tok ∨ !s.mayReadAS c.who t.node t.blk (x.recOff + 64 * tok) 64 ∨ !s.mayReadAS c.who t.node t.blk (x.statusOff + 2 * tok) 2 then
          .next (s.threadFault c 3)
        else
          let (bs, p, s) := s.ownRead c (x.recOff + 64 * tok) 64
          let (cs, q, s) := s.ownRead c (x.statusOff + 2 * tok) 2
          let v := leNat bs
          let m := Nat.land c.mask 0xFFFF
          let th := c.th.setVec c.i.d ((List.range 16).map fun i => bits v (32 * i) 32) m (p || c.maskBad)
          .next (s.setThread t (th.setVec (c.i.d + 1) (leNat cs :: List.replicate 31 0) c.mask (q || c.maskBad)).advance)

/-- YIELD (R160): parks until YIELD_END. -/
def execYield (t : ThreadRef) (s : State) : Out :=
  vecStep 0x3B t s fun c => .next (s.setThread t { c.th.advance with park := .yield })

/-- YIELD_END (R160): the park time ends. -/
def execYieldEnd (t : ThreadRef) (s : State) : Out :=
  need (decide (t.cell < 14) && decide (t.entry < 256)) .noSuch <|
  match Sparse.find? (s.block t.node t.blk).threads t.key with
  | none => .refused .noSuch
  | some th => need (th.park == .yield && s.vecRuns t.node t.blk) .wrongState <| .next (s.setThread t { th with park := .ready })

/-- The generation a thread's next arrival or wait takes (R233): from its queue's counts at launch start, and its own. -/
def VCtx.gen (c : VCtx) (wait : Bool) (id : Nat) : Nat :=
  if wait then Sparse.get 0 c.l.waits0 id + Sparse.get 0 c.th.waits id + 1 else Sparse.get 0 c.l.arrivals0 id + Sparse.get 0 c.th.arrivals id + 1

/-- HARV (R155, R160, R231, R233): issues when the thread's remote writes are complete. A refused arrival stops the launch. -/
def execHarv (t : ThreadRef) (mism : Option Bool) (s : State) : Out :=
  vecStep 0x3C t s fun c =>
    let id := c.i.imm.toNat
    let g := c.gen false id
    need (c.th.writes == 0) .notDue <|
    compare c mism s (fun s => s) <|
      if !hurdleOk false id || !s.hurdleKnown t.node t.blk c.l.tag id then .next (s.stopLaunch t.node t.blk c.l .accessFault)
      else match s.judgeArrival t.node t.blk c.l.tag id g with
        | .later => .refused .notDue
        | .refused => .next (s.stopLaunch t.node t.blk c.l .accessFault)
        | .admitted =>
          let th := { c.th.advance with arrivals := Sparse.upd 0 c.th.arrivals id (· + 1) }
          .next ((((s.setThread t th).hurdleEvent c.l.q 0x08 c.l.tag id g).arriveHurdle t.node t.blk c.l.tag id g false).wakeNode t.node)

/-- The threads of a group that have not ended. -/
def Block.members (b : Block) (launch group : Nat) : Sparse Thread := b.threads.filter fun e => e.2.launch == launch && e.2.group == group

/-- The group barrier releases once every thread of the group that has not ended stands at it (R160). -/
def Block.barrier (b : Block) (launch group : Nat) : Block :=
  let m := b.members launch group
  if m.all fun e => e.2.park == .barrier then
    { b with threads := b.threads.map fun e => if e.2.launch == launch && e.2.group == group then (e.1, { e.2 with park := .ready }) else e }
  else b

/-- HWAIT (R155, R160, R231, R233-R234). -/
def execHwait (t : ThreadRef) (mism : Option Bool) (s : State) : Out :=
  vecStep 0x3D t s fun c =>
    let id := c.i.imm.toNat
    need (c.th.writes == 0) .notDue <|
    compare c mism s (fun s => s) <|
      if id = 0 then
        .next ((s.setThread t { c.th.advance with park := .barrier }).modBlock t.node t.blk fun b => b.barrier c.th.launch c.th.group)
      else if !hurdleOk false id || !s.hurdleKnown t.node t.blk c.l.tag id then .next (s.stopLaunch t.node t.blk c.l .accessFault)
      else
        let g := c.gen true id
        let th := { c.th.advance with waits := Sparse.upd 0 c.th.waits id (· + 1), park := .hurdle id g }
        .next (((s.setThread t th).hurdleEvent c.l.q 0x09 c.l.tag id g).wakeThread t.node t.blk t.key)

/-- A group whose threads have all ended is freed (R149). -/
def Block.endThread (b : Block) (key : Nat) (th : Thread) : Block :=
  let b := { b with threads := Sparse.del b.threads key }
  let l := b.launch? th.launch
  let b := match l with
    | some l => b.setLaunch { l with arrivals := maxCounts l.arrivals th.arrivals, waits := maxCounts l.waits th.waits,
                                     ended := l.ended + b2n (b.members th.launch th.group).isEmpty }
    | none => b
  if (b.members th.launch th.group).isEmpty then { b with groups := b.groups.filter fun g => !(g.launch == th.launch && g.group == th.group) }
  else b.barrier th.launch th.group

/-- EXIT (R155, R160). -/
def execExit (t : ThreadRef) (mism : Option Bool) (s : State) : Out :=
  vecStep 0x3E t s fun c =>
    need (c.th.writes == 0) .notDue <|
    compare c mism s (fun s => s) <|
      .next ((s.modBlock t.node t.blk fun b => b.endThread t.key c.th).showVec t.node t.blk)

/-- CHECK_SKEW_TIMEOUT (R169): one cell of a pair reaches a compare point and the other does not within VXC_CTRL.CHECK_SKEW core cycles; the
thread stands at the compare point. -/
def execCheckSkewTimeout (t : ThreadRef) (s : State) : Out :=
  need (decide (t.cell < 14) && decide (t.entry < 256)) .noSuch <|
  match s.vecCtx t with
  | none => .refused .wrongState
  | some c =>
    let points := [0x29, 0x2B, 0x2D, 0x2F, 0x30, 0x31, 0x32, 0x33, 0x18, 0x3C, 0x3D, 0x3E]
    need (c.l.checked && points.contains c.i.op) .wrongState <| .next (s.checkMismatch c true)

end Sys2Proof.Machine
end

