-- ==== Sys2Proof/Machine/Launch.lean ====
section
/-!
DEFINITION. Launches of the vector engine (R149-R151, R165-R168, R176), the placing of groups, the end of a launch (R233), and the rounds of
the vector cells (R170-R171).
-/
namespace Sys2Proof.Machine

/-- Fields of VXE_LAUNCH (R225). -/
def lImage (d : Nat) : Nat := bits d 128 48
def lInstr (d : Nat) : Nat := bits d 176 13
def lSx (d : Nat) : Bool := bit d 191
def lRegs (d : Nat) : Nat := bits d 192 3
def lThreads (d : Nat) : Nat := bits d 196 8 + 1
def lGroups (d : Nat) : Nat := bits d 204 20
def lLmem (d : Nat) : Nat := bits d 224 5

/-- Granules a group takes (R149). -/
def Launch.granules (l : Launch) : Nat := l.threads * (l.regs / 8)

/-- A vector cell is retired (R173). -/
def State.vecRetired (s : State) (node blk c : Nat) : Bool := bit (s.fld F.vxcStat_retired node blk) c

/-- The cells, or the even cells of the pairs, that may take a group (R149, R168). -/
def State.vecCells (s : State) (node blk : Nat) (checked : Bool) : List Nat :=
  allBelow 14 fun c => !s.vecRetired node blk c && (!checked || (c % 2 == 0 && !s.vecRetired node blk (c + 1)))

/-- What one cell's groups occupy: their spots with granules and units. -/
def Block.taken (b : Block) (cell : Nat) : List (Spot × Nat × Nat) :=
  b.groups.flatMap fun g => (g.spots.filter (·.cell == cell)).map fun p => (p, g.granules, g.units)

/-- The lowest start of `n` free units of `size`, where `used` lists what is taken (start, length). -/
def firstRun (size n : Nat) (used : List (Nat × Nat)) : Option Nat :=
  firstBelow (size + 1) fun a => decide (a + n ≤ size) && used.all fun u => decide (a + n ≤ u.1) || decide (u.1 + u.2 ≤ a)

/-- The room a cell has for a group of a launch (R149). -/
def Block.room (b : Block) (l : Launch) (cell : Nat) : Option Spot :=
  let u := b.taken cell
  let free := (List.range 256).filter fun e => !u.any fun x => x.1.entries.contains e
  match firstRun 256 l.granules (u.map fun x => (x.1.granule, x.2.1)), firstRun 16 l.lmem (u.map fun x => (x.1.unit, x.2.2)) with
  | some g, some m => if l.threads ≤ free.length then some ⟨cell, free.take l.threads, g, m⟩ else none
  | _, _ => none

/-- The first cell, or pair, with room for the launch's next group (R149, R168). -/
def State.findRoom (s : State) (node blk : Nat) (l : Launch) : Option (Spot × Option Spot) :=
  let b := s.block node blk
  (s.vecCells node blk l.checked).findSome? fun c =>
    match b.room l c, l.checked with
    | some p, false => some (p, none)
    | some p, true => (b.room l (c + 1)).map fun q => (p, some q)
    | none, _ => none

/-- The panel address of an offset of a block's window (R38). -/
def State.windowAddr (s : State) (node blk off : Nat) : Nat := 0x100000000000 + s.lnum node * 0x10000000 + blk * 0x4000000 + off

/-- A thread at its start (R150). -/
def newThread (l : Launch) (group index lmem : Nat) : Thread :=
  { launch := l.id, group := group, index := index,
    s := [BitVec.ofNat 64 index, BitVec.ofNat 64 group, l.arg, BitVec.ofNat 64 lmem] ++ List.replicate 12 0 }

/-- Place the next group of a launch (R149-R150); the vector cells record it (R538). -/
def State.placeGroup (s : State) (node blk : Nat) (l : Launch) (p : Spot) (q : Option Spot) : State :=
  let g : Group := ⟨l.id, l.placed, p, q, l.granules, l.lmem⟩
  let a := s.windowAddr node blk p.base
  let cells := p.cell :: (q.map (·.cell)).toList
  let l' := { l with placed := l.placed + 1, cells := l.cells ++ cells.filter fun c => !l.cells.contains c }
  let add := fun (m : Sparse Thread) (e : Nat × Nat) =>
    Sparse.set m (ThreadRef.key ⟨node, blk, p.cell, e.1⟩) (newThread l l.placed e.2 a)
  ((s.event ⟨node, pageOf .vxc node blk, 0x3F, some l.tag⟩ 4 0x20 l.imageAddr (l.placed % 2 ^ 20)).modBlock node blk fun b =>
    let b := b.setLaunch l'
    { b with groups := b.groups ++ [g], threads := (p.entries.zip (List.range l.threads)).foldl add b.threads }).showVec node blk

/-- A group of a launch can be placed now. -/
def State.placeable (s : State) (node blk : Nat) (l : Launch) : Option (Spot × Option Spot) :=
  if l.started && l.fault.isNone && !l.image.isEmpty && decide (l.placed < l.groups) then s.findRoom node blk l else none

/-- Place groups in ascending order while they fit (R149). -/
def State.placeAll (s : State) (node blk id : Nat) : Nat → State
  | 0 => s
  | fuel + 1 => match (s.block node blk).launch? id with
    | some l => match s.placeable node blk l with
      | some (p, q) => (s.placeGroup node blk l p q).placeAll node blk id fuel
      | none => s
    | none => s

/-- A waiting launch may start (R151, R165, R176): its image fits beside the resident ones, its table masks meet none of a running launch's;
for SX, the scalar cell is free. -/
def Block.mayStart (b : Block) (l : Launch) (sx : Bool) : Bool :=
  if sx then b.sx.isNone
  else
    let live := b.launches.filter fun x => x.started && x.id != l.id
    decide ((live.map Launch.instrs).foldl (· + ·) 0 + l.instrs ≤ 4096)
      && live.all fun x => Nat.land l.ctWrite (Nat.lor x.ctRead x.ctWrite) == 0 && Nat.land l.ctRead x.ctWrite == 0

/-- Start a waiting launch: read its image as control data (R151, R557), or start the scalar cell (R176). -/
def State.startLaunch (s : State) (node blk : Nat) (l : Launch) (sx : Bool) : State :=
  if sx then
    let x : List Word := (List.replicate 10 0 ++ [l.arg, BitVec.ofNat 64 l.tag]) ++ List.replicate 20 0
    (s.modBlock node blk fun b => { b.setLaunch { l with started := true } with
      sx := some { launch := l.id, tag := l.tag, pc := l.imageAddr, x := x, started := s.now } }).showVec node blk
  else
    let (st, bs, s) := s.get ⟨node, blk, l.tag⟩ l.imageAddr (4 * l.instrs)
    if st = .done then
      let image := (List.range l.instrs).map fun i => leNat ((bs.drop (4 * i)).take 4)
      s.modBlock node blk fun b => b.setLaunch { l with started := true, image := image }
    else
      (s.modBlock node blk fun b => b.dropLaunch l.id).stopCmd l.q st

/-- A launch's own checks (R149, R225, R227). -/
def State.launchOk (s : State) (q : QueueRef) (checked : Bool) (d : Nat) : Bool :=
  if lSx d then
    !checked && lInstr d == 0 && lRegs d == 0 && lThreads d == 1 && lGroups d == 0 && lLmem d == 0 && bits d 232 32 == 0
  else
    decide (0 < lInstr d) && decide (lInstr d ≤ 4096) && decide (0 < lGroups d) && decide (lLmem d ≤ 16)
      && decide (lThreads d * (lRegs d + 1) ≤ 256) && !(s.vecCells q.node q.blk checked).isEmpty

/-- The launch runs, or waits for room (R149-R151, R165). -/
def State.runLaunch (s : State) (q : QueueRef) (checked : Bool) (d : Nat) : State :=
  let b := s.block q.node q.blk
  let l : Launch := { id := b.launchCount, q := q, tag := s.queueTag q, imageAddr := lImage d, instrs := lInstr d, regs := 8 * (lRegs d + 1),
                      threads := lThreads d, groups := lGroups d, lmem := lLmem d, ctRead := bits d 232 16, ctWrite := bits d 248 16,
                      arg := BitVec.ofNat 64 (bits d 320 64), checked := checked, arrivals0 := (s.queue q).arrivals, waits0 := (s.queue q).waits }
  let s := s.setBlock q.node q.blk { b with launchCount := b.launchCount + 1, launches := b.launches ++ [l] }
  let s := s.modCur q fun c => { c with wait := .launch l.id }
  if (s.block q.node q.blk).mayStart l (lSx d) then
    (s.startLaunch q.node q.blk l (lSx d)).placeAll q.node q.blk l.id 3584
  else s

/-- VXE_LAUNCH (R149-R151, R165, R176); with CHECKED it runs checked (R221). -/
def execVxeLaunch (q : QueueRef) (s : State) : Out :=
  s.startHead q [0x20] (fun s d => s.launchOk q (dChecked d) d) fun s d => s.runLaunch q (dChecked d) d

/-- VXE_LAUNCH_CHECKED (R168). -/
def execVxeLaunchChecked (q : QueueRef) (s : State) : Out :=
  s.startHead q [0x21] (fun s d => s.launchOk q true d) fun s d => s.runLaunch q true d

/-- The launch of the command in flight of a queue. -/
def State.launchOf (s : State) (q : QueueRef) : Option Launch :=
  match (s.queue q).cur with
  | some c => match c.wait with
    | .launch id => (s.block q.node q.blk).launch? id
    | _ => none
  | none => none

/-- GROUP_PLACE (R149, R151, R165, R176): a launch that waited starts once it may, and its next waiting group is placed once room frees. -/
def execGroupPlace (q : QueueRef) (s : State) : Out :=
  need q.ok .noSuch <|
  match s.launchOf q, (s.queue q).cur with
  | some l, some c =>
    need (s.vecRuns q.node q.blk) .wrongState <|
    if l.started then match s.placeable q.node q.blk l with
      | some (p, t) => .next (s.placeGroup q.node q.blk l p t)
      | none => .refused .notDue
    else
      need ((s.block q.node q.blk).mayStart l (lSx c.desc)) .notDue <|
      .next ((s.startLaunch q.node q.blk l (lSx c.desc)).placeAll q.node q.blk l.id 1)
  | _, _ => .refused .wrongState

/-- LAUNCH_END (R166-R167, R171, R233): the last thread has exited. -/
def execLaunchEnd (q : QueueRef) (s : State) : Out :=
  need q.ok .noSuch <|
  match s.launchOf q, (s.queue q).cur with
  | some l, some c =>
    need (l.started && !lSx c.desc && l.fault.isNone && l.ended == l.groups) .wrongState <|
    let s := if l.poisoned then s else s.modBlock q.node q.blk fun b =>
      { b with vecWork := b.vecWork ++ l.cells.map fun x => (x, l.tag, c.addr) }
    .next (s.endLaunch q.node q.blk l (if l.poisoned then .poisoned else .done) 0)
  | _, _ => .refused .wrongState

/-- The vector cells in rotation order, retired ones skipped (R170, R419 function 9). -/
def State.vecOrderOf (s : State) (node blk : Nat) : List Nat :=
  (wholeOrder 14 (s.block node blk).vecOrder).filter fun c => !s.vecRetired node blk c

/-- The vector cell whose slot of 640 µs comes next, and whether it opens a new round (R170). -/
def State.nextVecCell (s : State) (node blk : Nat) : Option (Nat × Bool) :=
  let b := s.block node blk
  nextCell 14 b.vecOrder b.vecOrderNext (fun c => !s.vecRetired node blk c) b.vecLast

/-- A vector cell is retired (R171): launches on it stop POISONED, completed ones are reported, up to 16. -/
def State.retireVecCell (s : State) (node blk c count : Nat) : State :=
  if s.vecRetired node blk c then s else
  let site : Site := ⟨node, pageOf .vxc node blk, c, none⟩
  let b := s.block node blk
  let done := b.vecWork.filter fun w => w.1 == c
  let s := s.retirement site 10 .ce 7 count
  let s := s.put F.vxcStat_retired node blk 0 (ofBits (c :: setBits 14 (s.fld F.vxcStat_retired node blk)))
  let s := (done.take 16).foldl (fun s w => s.errorWith { site with tag := some w.2.1 } 8 10 .de w.2.2 (done.length - min 16 done.length)) s
  let hit := b.launches.filter fun l => b.groups.any fun g => g.launch == l.id && g.spots.any (fun p => p.cell == c)
  (hit.foldl (fun s l => s.stopLaunch node blk l .poisoned) (s.modBlock node blk fun b =>
    { b with vecWork := b.vecWork.filter fun w => w.1 != c, vecQueue := b.vecQueue.filter (· != c) })).showVec node blk

/-- The test of a vector cell starts (R170). -/
def State.startVecTest (s : State) (node blk c : Nat) (extra : Bool) (f : Block → Block) : State :=
  (s.put F.vxcStat_testCell node blk 0 c).modBlock node blk fun b => { f b with vecFailedOnce := false, vecExtra := extra }

/-- VECTOR_ROUNDS_TEST (R169-R170): the next cell's test starts, every 640 µs, or at once after a checked mismatch; with ROUNDS_ENABLE 0 none runs. -/
def execVectorRoundsTest (node blk : Nat) (s : State) : Out :=
  need (isRegion node && decide (blk < 4)) .noSuch <|
  let b := s.block node blk
  need (s.clocked node blk && s.flag F.vxcCtrl_roundsEnable node blk && s.fld F.vxcStat_testCell node blk == 15) .wrongState <|
  match b.vecQueue, s.nextVecCell node blk with
  | c :: rest, _ => .next (s.startVecTest node blk c true fun b => { b with vecQueue := rest })
  | [], none => .refused .wrongState
  | [], some (c, wraps) =>
    need (decide (b.vecStart + b.vecTests * (640 * us) ≤ s.now)) .notDue <|
    .next (s.startVecTest node blk c false fun b =>
      { b with vecTests := b.vecTests + 1, vecLast := some c, vecOrder := if wraps then b.vecOrderNext else b.vecOrder,
               vecOrderNext := if wraps then [] else b.vecOrderNext })

/-- VECTOR_TEST_DONE (R170-R171, R483): a failed test runs again at once; a second failure retires the cell. -/
def execVectorTestDone (node blk : Nat) (pass : Bool) (s : State) : Out :=
  need (isRegion node && decide (blk < 4)) .noSuch <|
  let c := s.fld F.vxcStat_testCell node blk
  let b := s.block node blk
  let page := pageOf .vxc node blk
  need (s.clocked node blk && c != 15) .wrongState <|
  if pass then
    let s := if b.vecFailedOnce then s.error ⟨node, page, c, none⟩ 9 .ce 0 1 else s
    .next ((s.put F.vxcStat_testCell node blk 0 15).modBlock node blk fun b =>
      { b with vecFailedOnce := false, vecWork := b.vecWork.filter fun w => w.1 != c })
  else
    let s := s.bump F.vxcStat_testFails node blk 0
    if b.vecFailedOnce then
      let s := (s.error ⟨node, page, c, none⟩ 9 .ce 0 2).put F.vxcStat_testCell node blk 0 15
      let s := s.modBlock node blk fun b => { b with vecFailedOnce := false }
      .next (s.classified node page 10 (.vectorCell node blk c 2) fun s => s.retireVecCell node blk c 2)
    else .next (s.modBlock node blk fun b => { b with vecFailedOnce := true })

end Sys2Proof.Machine
end

