-- ==== Sys2Proof/Machine/Riscv.lean ====
section
/-!
DEFINITION. The arithmetic of RV64IMAFD (R176), PRESUMED from the RISC-V unprivileged architecture (log entry 13): integer operations, AMO
operations, floating-point operations with their flags.
-/
namespace Sys2Proof.Machine

/-- 64-bit and 32-bit results; a 32-bit result is sign-extended. -/
def to64 (i : Int) : Nat := wrapInt 64 i
def sx32 (v : Nat) : Nat := to64 (sext 32 v)

/-- Quotient and remainder of DIV and REM: by 0, -1 and the dividend. -/
def divS (a b : Int) : Int := if b = 0 then -1 else Int.tdiv a b
def remS (a b : Int) : Int := if b = 0 then a else Int.tmod a b

/-- OP with funct7 0, 0x20 and 1; none for an unassigned one. -/
def rvOp (f7 f3 a b : Nat) : Option Nat :=
  let sa := sext 64 a
  let sb := sext 64 b
  match f7, f3 with
  | 0, 0 => some ((a + b) % 2 ^ 64) | 0x20, 0 => some (to64 (sa - sb))
  | 0, 1 => some (a * 2 ^ (b % 64) % 2 ^ 64)
  | 0, 2 => some (b2n (decide (sa < sb))) | 0, 3 => some (b2n (decide (a < b)))
  | 0, 4 => some (Nat.xor a b) | 0, 5 => some (a / 2 ^ (b % 64)) | 0x20, 5 => some (to64 (sa / (2 ^ (b % 64) : Nat)))
  | 0, 6 => some (Nat.lor a b) | 0, 7 => some (Nat.land a b)
  | 1, 0 => some (a * b % 2 ^ 64) | 1, 1 => some (to64 (sa * sb / (2 ^ 64 : Nat))) | 1, 2 => some (to64 (sa * (b : Int) / (2 ^ 64 : Nat)))
  | 1, 3 => some (a * b / 2 ^ 64)
  | 1, 4 => some (to64 (divS sa sb)) | 1, 5 => some (if b = 0 then 2 ^ 64 - 1 else a / b)
  | 1, 6 => some (to64 (remS sa sb)) | 1, 7 => some (if b = 0 then a else a % b)
  | _, _ => none

/-- OP-32. -/
def rvOp32 (f7 f3 a b : Nat) : Option Nat :=
  let a := a % 2 ^ 32
  let b := b % 2 ^ 32
  let sa := sext 32 a
  let sb := sext 32 b
  match f7, f3 with
  | 0, 0 => some (sx32 (a + b)) | 0x20, 0 => some (to64 (sext 32 (wrapInt 32 (sa - sb)))) | 0, 1 => some (sx32 (a * 2 ^ (b % 32)))
  | 0, 5 => some (sx32 (a / 2 ^ (b % 32))) | 0x20, 5 => some (to64 (sa / (2 ^ (b % 32) : Nat)))
  | 1, 0 => some (sx32 (a * b)) | 1, 4 => some (sx32 (wrapInt 32 (divS sa sb))) | 1, 5 => some (sx32 (if b = 0 then 2 ^ 32 - 1 else a / b))
  | 1, 6 => some (sx32 (wrapInt 32 (remS sa sb))) | 1, 7 => some (sx32 (if b = 0 then a else a % b))
  | _, _ => none

/-- OP-IMM: `i` the sign-extended immediate. -/
def rvImm (f3 a : Nat) (i : Int) : Option Nat :=
  let u := to64 i
  match f3 with
  | 1 => if bits u 6 6 = 0 then rvOp 0 1 a (u % 64) else none
  | 5 => if bits u 6 6 = 0 then rvOp 0 5 a (u % 64) else if bits u 6 6 = 0x10 then rvOp 0x20 5 a (u % 64) else none
  | f => rvOp 0 f a u

/-- OP-IMM-32. -/
def rvImm32 (f3 a : Nat) (i : Int) : Option Nat :=
  let u := to64 i
  match f3 with
  | 0 => rvOp32 0 0 a u
  | 1 => if bits u 5 7 = 0 then rvOp32 0 1 a (u % 32) else none
  | 5 => if bits u 5 7 = 0 then rvOp32 0 5 a (u % 32) else if bits u 5 7 = 0x20 then rvOp32 0x20 5 a (u % 32) else none
  | _ => none

/-- Whether a branch is taken. -/
def rvBranch (f3 a b : Nat) : Option Bool :=
  match f3 with
  | 0 => some (a == b) | 1 => some (a != b) | 4 => some (decide (sext 64 a < sext 64 b)) | 5 => some (decide (sext 64 b ≤ sext 64 a))
  | 6 => some (decide (a < b)) | 7 => some (decide (b ≤ a)) | _ => none

/-- The value an AMO writes, of `w` bits. -/
def rvAmo (f5 w old b : Nat) : Option Nat :=
  let b := b % 2 ^ w
  match f5 with
  | 0x00 => some ((old + b) % 2 ^ w) | 0x01 => some b | 0x04 => some (Nat.xor old b) | 0x0C => some (Nat.land old b) | 0x08 => some (Nat.lor old b)
  | 0x10 => some (if sext w old ≤ sext w b then old else b) | 0x14 => some (if sext w old ≤ sext w b then b else old)
  | 0x18 => some (min old b) | 0x1C => some (max old b) | _ => none

/-- Immediates of the formats S, B, U, J. -/
def immS (w : Nat) : Int := sext 12 (bits w 25 7 * 32 + bits w 7 5)
def immB (w : Nat) : Int := sext 13 (bits w 31 1 * 4096 + bits w 7 1 * 2048 + bits w 25 6 * 32 + bits w 8 4 * 2)
def immU (w : Nat) : Int := sext 32 (bits w 12 20 * 4096)
def immJ (w : Nat) : Int := sext 21 (bits w 31 1 * 2 ^ 20 + bits w 12 8 * 4096 + bits w 20 1 * 2048 + bits w 21 10 * 2)

/-- Flags: NV 16, DZ 8, OF 4, UF 2, NX 1. -/
def fRound (f : FFmt) (rm : Rm) (v : Fl) : Nat × Nat :=
  match v with
  | .nan s => (f.nan, if s then 16 else 0)
  | .inf n => (f.inf n, 0)
  | .fin n m e => let r := f.round rm n m e
    (r.code, (if r.overflow then 4 else 0) + (if r.tiny then 2 else 0) + (if r.inexact then 1 else 0))

/-- The rounding mode an instruction names; none where it is reserved. -/
def rvRm (rm frm : Nat) : Option Rm :=
  match (if rm = 7 then frm else rm) with
  | 0 => some .rne | 1 => some .rtz | 2 => some .rdn | 3 => some .rup | 4 => some .rmm | _ => none

/-- A single in a 64-bit register is NaN-boxed. -/
def unbox (v : Nat) : Nat := if v / 2 ^ 32 = 2 ^ 32 - 1 then v % 2 ^ 32 else f32.nan
def box (v : Nat) : Nat := (2 ^ 32 - 1) * 2 ^ 32 + v

/-- FMIN and FMAX: a number wins over a NaN; a signalling NaN sets NV. -/
def fMinMax (f : FFmt) (mx : Bool) (a b : Nat) : Nat × Nat :=
  let x := f.decode a
  let y := f.decode b
  let nv := match x, y with | .nan true, _ | _, .nan true => 16 | _, _ => 0
  if x.isNan && y.isNan then (f.nan, nv) else if x.isNan then (b, nv) else if y.isNan then (a, nv)
  else
    let less := x.lt y || (!y.lt x && x.sign && !y.sign)
    (if less != mx then a else b, nv)

/-- FLE 0, FLT 1, FEQ 2: the result and the flags. -/
def fCmp (f : FFmt) (f3 a b : Nat) : Option (Nat × Nat) :=
  let x := f.decode a
  let y := f.decode b
  let sig := match x, y with | .nan true, _ | _, .nan true => true | _, _ => false
  let any := x.isNan || y.isNan
  match f3 with
  | 0 => some (b2n (x.lt y || x.eq y), if any then 16 else 0)
  | 1 => some (b2n (x.lt y), if any then 16 else 0)
  | 2 => some (b2n (x.eq y), if sig then 16 else 0)
  | _ => none

/-- FCLASS. -/
def fClass (f : FFmt) (a : Nat) : Nat :=
  let sub := bits a f.mb f.eb == 0
  match f.decode a with
  | .nan s => if s then 2 ^ 8 else 2 ^ 9
  | .inf n => if n then 1 else 2 ^ 7
  | .fin n m _ => if m = 0 then (if n then 2 ^ 3 else 2 ^ 4) else if sub then (if n then 2 ^ 2 else 2 ^ 5) else if n then 2 else 2 ^ 6

/-- To an integer of `w` bits: saturating with NV; inexact sets NX. The result is sign-extended. -/
def fToInt (rm : Rm) (w : Nat) (uns : Bool) (v : Fl) : Nat × Nat :=
  let lo : Int := if uns then 0 else -((2 ^ (w - 1) : Nat) : Int)
  let hi : Int := if uns then ((2 ^ w : Nat) : Int) - 1 else ((2 ^ (w - 1) : Nat) : Int) - 1
  let put := fun (i : Int) => to64 (sext w (wrapInt w i))
  match v with
  | .nan _ => (put hi, 16)
  | .inf n => (put (if n then lo else hi), 16)
  | .fin n m e =>
    let i := (v.toInt rm).getD 0
    if i < lo then (put lo, 16) else if hi < i then (put hi, 16)
    else (put i, b2n (!(v.eq (flInt n i 0)) && m != 0 && decide (e < 0)))

/-- Sign injection: FSGNJ 0, FSGNJN 1, FSGNJX 2. -/
def fSgn (f : FFmt) (f3 a b : Nat) : Option Nat :=
  let k := f.eb + f.mb
  let m := a % 2 ^ k
  match f3 with
  | 0 => some (m + b2n (bit b k) * 2 ^ k) | 1 => some (m + b2n (!bit b k) * 2 ^ k)
  | 2 => some (m + b2n (bit a k != bit b k) * 2 ^ k) | _ => none

/-- What an OP-FP instruction writes: an FP register's value in its format, or an integer register, and the flags. -/
inductive FOut where
  | fp (f : FFmt) (v flags : Nat)
  | int (v flags : Nat)
  deriving DecidableEq, Repr

/-- OP-FP (opcode 0x53) of the formats S and D. `a`, `b` are the FP operands in a format, `raw` the first register as it stands, `x` the integer
operand. -/
def rvFp (f7 f3 rs2 : Nat) (frm : Nat) (a b : FFmt → Nat) (raw x : Nat) : Option FOut :=
  let f := if f7 % 2 = 0 then f32 else f64
  let arith := fun (op : Rm → Fl × Nat) => (rvRm f3 frm).map fun rm =>
    let (v, extra) := op rm
    let r := fRound f rm v
    FOut.fp f r.1 (Nat.lor r.2 extra)
  let da := f.decode (a f)
  let db := f.decode (b f)
  if 2 ≤ f7 % 4 then none else
  match f7 / 4 with
  | 0 => arith fun rm => (da.add db (rm == .rdn), 0)
  | 1 => arith fun rm => (da.add db.neg (rm == .rdn), 0)
  | 2 => arith fun _ => (da.mul db, 0)
  | 3 => arith fun _ => (da.div db, if db.isZero && !da.isZero && !da.isNan && !da.isInf then 8 else 0)
  | 11 => if rs2 = 0 then arith fun _ => (da.sqrt, 0) else none
  | 4 => (fSgn f f3 (a f) (b f)).map fun v => .fp f v 0
  | 5 => if f3 < 2 then let r := fMinMax f (f3 == 1) (a f) (b f)
      some (.fp f r.1 r.2) else none
  | 20 => (fCmp f f3 (a f) (b f)).map fun r => .int r.1 r.2
  | 8 =>
    let src := if f7 % 2 = 0 then f64 else f32
    if rs2 = (if f7 % 2 = 0 then 1 else 0) then (rvRm f3 frm).map fun rm =>
        let r := fRound f rm (src.decode (a src))
        .fp f r.1 r.2
    else none
  | 24 => if rs2 < 4 then (rvRm f3 frm).map fun rm =>
        let r := fToInt rm (if rs2 < 2 then 32 else 64) (rs2 % 2 == 1) da
        .int r.1 r.2
    else none
  | 26 => if rs2 < 4 then (rvRm f3 frm).map fun rm =>
        let i : Int := match rs2 with | 0 => sext 32 x | 1 => ((x % 2 ^ 32 : Nat) : Int) | 2 => sext 64 x | _ => (x : Int)
        let r := fRound f rm (flInt false i 0)
        .fp f r.1 r.2
    else none
  | 28 => if rs2 = 0 ∧ f3 = 0 then some (.int (if f7 % 2 = 0 then sx32 raw else raw) 0)
    else if rs2 = 0 ∧ f3 = 1 then some (.int (fClass f (a f)) 0) else none
  | 30 => if rs2 = 0 ∧ f3 = 0 then some (.fp f (if f7 % 2 = 0 then x % 2 ^ 32 else x) 0) else none
  | _ => none

/-- FMADD, FMSUB, FNMSUB, FNMADD (0 to 3): code and flags. -/
def rvFma (k : Nat) (f : FFmt) (rm : Rm) (a b c : Nat) : Nat × Nat :=
  let p := (f.decode a).mul (f.decode b)
  let p := if 2 ≤ k then p.neg else p
  let d := f.decode c
  let d := if k = 1 ∨ k = 3 then d.neg else d
  fRound f rm (p.add d (rm == .rdn))

end Sys2Proof.Machine
end

