-- ==== Sys2Proof/Machine/Scalar.lean ====
section
/-!
DEFINITION. The scalar cell SX (R176-R178): what it reaches, one instruction, its control registers, traps and tests.
-/
namespace Sys2Proof.Machine

/-- Integer registers; x0 reads 0 and discards writes. -/
def Scalar.get (x : Scalar) (r : Nat) : Nat := if r = 0 then 0 else (x.x.getD r 0).toNat
def Scalar.set (x : Scalar) (r v : Nat) : Scalar := if r = 0 then x else { x with x := setAt x.x r (BitVec.ofNat 64 v) }

/-- Floating-point registers in a format; a single that is not boxed reads as the canonical NaN. -/
def Scalar.getF (x : Scalar) (f : FFmt) (r : Nat) : Nat := let v := (x.f.getD r 0).toNat
  if f = f32 then unbox v else v
def Scalar.setF (x : Scalar) (f : FFmt) (r v : Nat) : Scalar := { x with f := setAt x.f r (BitVec.ofNat 64 (if f = f32 then box v else v)) }

/-- Accumulate fflags. -/
def Scalar.flags (x : Scalar) (n : Nat) : Scalar := { x with fcsr := Nat.lor x.fcsr n }

/-- The next instruction. -/
def Scalar.step (x : Scalar) : Scalar := { x with pc := (x.pc + 4) % 2 ^ 64 }

/-- SX's local memory (R38). -/
def inSx (off n : Nat) : Bool := decide (0x3800000 ≤ off) && decide (off + n ≤ 0x3840000)

/-- Where an access of SX goes (R177). -/
inductive SxPath where
  /-- local memory or the block's own stores: the window offset -/
  | near (off : Nat)
  /-- over the fabric; into a pen the block holds -/
  | far (pen : Bool)
  | refused
  deriving DecidableEq, Repr

/-- R177: the path of a load, a store or an atomic of `n` bytes. -/
def State.sxPath (s : State) (node blk tag a n : Nat) (store : Bool) : SxPath :=
  let r : Requester := ⟨node, blk, tag⟩
  match s.locate node (s.fld F.rtrEpoch_injEpoch node) a n with
  | .ok (_, .scratch nd b off) =>
    if nd = node ∧ b = blk ∧ inSx off n then .near off
    else if nd = node ∧ b = blk ∧ off < 0x2200000 then
      if inAS off then (if (if store then s.mayWriteAS r node blk off n else s.mayReadAS r node blk off n) then .near off
        else if store && s.inHeldPen node blk a n then .far true else .refused)
      else if inPS off then (if inShadow off n then .refused else .near off)
      else if store then .refused else .near off
    else if !store then .far false
    else if s.inHeldPen node blk a n then .far true
    else if inAS off || inCC off then .refused else .far false
  | .ok _ => .far (store && s.inHeldPen node blk a n)
  | .error .accessFault => .refused
  | .error _ => .far (store && s.inHeldPen node blk a n)

/-- What one instruction of SX does. -/
inductive SxOut where
  /-- goes on; state and registers -/
  | goes (s : State) (x : Scalar)
  /-- traps (R178); `poison`: it loaded poisoned data -/
  | traps (s : State) (poison : Bool)
  | ecall
  /-- waits until the posted stores before it are complete -/
  | waits
  | harrive (id : Nat) (x : Scalar)
  | hwaitc (id : Nat) (x : Scalar)
  deriving Repr

/-- A loaded value into a register. -/
def Scalar.load (x : Scalar) (rd : Nat) (fp : Bool) (size : Nat) (signed' : Bool) (v : Nat) : Scalar :=
  if fp then x.setF (if size = 4 then f32 else f64) rd v
  else x.set rd (if signed' then to64 (sext (8 * size) v) else v)

/-- A load (R176-R178): near loads at once, far ones park SX until the reply. -/
def State.sxLoad (s : State) (node blk : Nat) (l : Launch) (x : Scalar) (a size rd : Nat) (fp signed' : Bool) : SxOut :=
  if a % size ≠ 0 then .traps s false
  else match s.sxPath node blk l.tag a size false with
    | .refused => .traps s false
    | .near off =>
      let (bs, p, s) := s.readBlk node blk off size
      if p then .traps s true else .goes s (x.load rd fp size signed' (leNat bs)).step
    | .far _ =>
      .goes (s.request node { op := .readReq, cls := 2, srcUnit := blk, jobTag := l.tag, addr := a, oparg0 := size }
        (.sx node blk l.id (some rd) fp size signed')) { x.step with park := .reply }

/-- A store: near stores at once, far ones are posted. -/
def State.sxStore (s : State) (node blk : Nat) (l : Launch) (x : Scalar) (a size v : Nat) : SxOut :=
  if a % size ≠ 0 then .traps s false
  else match s.sxPath node blk l.tag a size true with
    | .refused => .traps s false
    | .near off => .goes (s.writeBlk node blk off (allOn (leBytes size v))) { x.step with
        reserved := match x.reserved with
          | some (r, k) => if r < off + size ∧ off < r + k then none else some (r, k)
          | none => none }
    | .far pen => .goes (s.sendBytes node blk l.tag a (leBytes size v) false pen (.sx node blk l.id none false size false))
        { x.step with writes := x.writes + 1 }

/-- AMO, LR and SC (R177); one with the release bit waits for the posted stores before it (R176), and each is done before the next instruction. -/
def State.sxAmo (s : State) (node blk : Nat) (l : Launch) (x : Scalar) (w : Nat) : SxOut :=
  let size := if bits w 12 3 = 2 then 4 else 8
  let f5 := bits w 27 5
  let rd := bits w 7 5
  let a := x.get (bits w 15 5)
  let b := x.get (bits w 20 5)
  let up := fun (v : Nat) => to64 (sext (8 * size) v)
  if bits w 12 3 ≠ 2 ∧ bits w 12 3 ≠ 3 then .traps s false
  else if bit w 25 && x.writes != 0 then .waits
  else if a % size ≠ 0 then .traps s false
  else match s.sxPath node blk l.tag a size (f5 != 2), f5 with
    | .refused, _ => .traps s false
    | .near off, 2 =>
      if bits w 20 5 ≠ 0 then .traps s false else
      let (bs, p, s) := s.readBlk node blk off size
      if p then .traps s true else .goes s { (x.set rd (up (leNat bs))).step with reserved := some (off, size) }
    | .near off, 3 =>
      if x.reserved = some (off, size) then
        .goes (s.writeBlk node blk off (allOn (leBytes size b))) { (x.set rd 0).step with reserved := none }
      else .goes s { (x.set rd 1).step with reserved := none }
    | .near off, _ =>
      let (bs, p, s1) := s.readBlk node blk off size
      match rvAmo f5 (8 * size) (leNat bs) b with
      | none => .traps s false
      | some v =>
        if p then .traps s1 true
        else .goes (s1.writeBlk node blk off (allOn (leBytes size v))) { (x.set rd (up (leNat bs))).step with reserved := none }
    | .far _, 0 =>
      .goes (s.request node (atomicPacket blk l.tag a (b % 2 ^ (8 * size)) (if size = 4 then 1 else 2))
        (.sx node blk l.id (some rd) false size true)) { x.step with park := .atomic }
    | .far _, _ => .traps s false

/-- Zicsr over the registers of R178 and fcsr: the value read, and whether the register may be written. The cycle counter and the read
values of HARRIVE and HWAITC are free values (log entry 2). -/
def State.sxCsr (s : State) (node : Nat) (x : Scalar) (csr : Nat) : Option (Nat × Bool) :=
  match csr with
  | 1 => some (x.fcsr % 32, true) | 2 => some (x.fcsr / 32 % 8, true) | 3 => some (x.fcsr % 256, true)
  | 0xC00 => some ((Config.cycleCount s.freeCount).toNat, false) | 0xC01 => some (s.timeAt node, false)
  | 0x7C0 | 0x7C1 => some ((Config.freeWord s.freeCount).toNat, true)
  | _ => none

/-- A SYSTEM instruction. EBREAK traps: the model has no debug mode of the scalar cell (log entry 123). -/
def State.sxSystem (s : State) (node : Nat) (x : Scalar) (w : Nat) : SxOut :=
  let f3 := bits w 12 3
  let rs1 := bits w 15 5
  let csr := bits w 20 12
  let rd := bits w 7 5
  if f3 = 0 then (if w = 0x73 then .ecall else .traps s false)
  else if f3 = 4 then .traps s false
  else match s.sxCsr node x csr with
    | none => .traps s false
    | some (old, writable) =>
      let arg := if 4 < f3 then rs1 else x.get rs1
      let writes := f3 % 4 == 1 || rs1 != 0
      let new := match f3 % 4 with | 1 => arg | 2 => Nat.lor old arg | _ => Nat.land old (2 ^ 64 - 1 - arg)
      let s := { s with freeCount := s.freeCount + 1 }
      let x' := (x.set rd old).step
      if !writes then .goes s x'
      else if !writable then .traps s false
      else match csr with
        | 1 => .goes s { x' with fcsr := putBits x.fcsr 0 5 new }
        | 2 => .goes s { x' with fcsr := putBits x.fcsr 5 3 new }
        | 3 => .goes s { x' with fcsr := new % 256 }
        | 0x7C0 => .harrive (new % 65536) x'
        | _ => .hwaitc (new % 65536) x'

/-- Jump to an address; without compressed instructions it must be 4-byte aligned. -/
def sxJump (s : State) (x : Scalar) (a : Nat) : SxOut := if a % 4 ≠ 0 then .traps s false else .goes s { x with pc := a }

/-- An integer result, or an illegal instruction. -/
def sxInt (s : State) (x : Scalar) (rd : Nat) (v : Option Nat) : SxOut :=
  match v with | some v => .goes s (x.set rd v).step | none => .traps s false

/-- The instruction word `w` of a program of RV64IMAFD with Zicsr (R176). -/
def State.sxExec (s : State) (node blk : Nat) (l : Launch) (x : Scalar) (w : Nat) : SxOut :=
  let rd := bits w 7 5
  let f3 := bits w 12 3
  let a := x.get (bits w 15 5)
  let b := x.get (bits w 20 5)
  let f7 := bits w 25 7
  let immI : Int := sext 12 (bits w 20 12)
  let at' := fun (i : Int) => to64 ((a : Int) + i)
  match bits w 0 7 with
  | 0x37 => .goes s (x.set rd (to64 (immU w))).step
  | 0x17 => .goes s (x.set rd (to64 ((x.pc : Int) + immU w))).step
  | 0x6F => sxJump s (x.set rd ((x.pc + 4) % 2 ^ 64)) (to64 ((x.pc : Int) + immJ w))
  | 0x67 => if f3 = 0 then sxJump s (x.set rd ((x.pc + 4) % 2 ^ 64)) (at' immI / 2 * 2) else .traps s false
  | 0x63 => match rvBranch f3 a b with
    | none => .traps s false
    | some true => sxJump s x (to64 ((x.pc : Int) + immB w))
    | some false => .goes s x.step
  | 0x03 => if f3 = 7 then .traps s false else s.sxLoad node blk l x (at' immI) (2 ^ (f3 % 4)) rd false (f3 < 4)
  | 0x23 => if 4 ≤ f3 then .traps s false else s.sxStore node blk l x (at' (immS w)) (2 ^ f3) (b % 2 ^ (8 * 2 ^ f3))
  | 0x13 => sxInt s x rd (rvImm f3 a immI)
  | 0x1B => sxInt s x rd (rvImm32 f3 a immI)
  | 0x33 => sxInt s x rd (rvOp f7 f3 a b)
  | 0x3B => sxInt s x rd (rvOp32 f7 f3 a b)
  | 0x0F =>
    -- FENCE: with W or O before it, it waits for the posted stores; loads and atomics are complete when the next instruction issues
    if f3 ≠ 0 then .traps s false else if (bit w 24 || bit w 26) && x.writes != 0 then .waits else .goes s x.step
  | 0x73 => s.sxSystem node x w
  | 0x2F => s.sxAmo node blk l x w
  | 0x07 => if f3 = 2 ∨ f3 = 3 then s.sxLoad node blk l x (at' immI) (2 ^ f3) rd true false else .traps s false
  | 0x27 => if f3 = 2 ∨ f3 = 3 then s.sxStore node blk l x (at' (immS w)) (2 ^ f3) ((x.f.getD (bits w 20 5) 0).toNat % 2 ^ (8 * 2 ^ f3))
    else .traps s false
  | 0x53 =>
    match rvFp f7 f3 (bits w 20 5) (x.fcsr / 32 % 8) (fun f => x.getF f (bits w 15 5)) (fun f => x.getF f (bits w 20 5))
        (x.f.getD (bits w 15 5) 0).toNat a with
    | some (.fp f v fl) => .goes s ((x.setF f rd v).flags fl).step
    | some (.int v fl) => .goes s ((x.set rd v).flags fl).step
    | none => .traps s false
  | op =>
    if op = 0x43 ∨ op = 0x47 ∨ op = 0x4B ∨ op = 0x4F then
      match (if bits w 25 2 = 0 then some f32 else if bits w 25 2 = 1 then some f64 else none), rvRm f3 (x.fcsr / 32 % 8) with
      | some f, some rm =>
        let r := rvFma ((op - 0x43) / 4) f rm (x.getF f (bits w 15 5)) (x.getF f (bits w 20 5)) (x.getF f (bits w 27 5))
        .goes s ((x.setF f rd r.1).flags r.2).step
      | _, _ => .traps s false
    else .traps s false

/-- Fetch from local memory and run (R176). -/
def State.sxStep (s : State) (node blk : Nat) (l : Launch) (x : Scalar) : SxOut :=
  match s.sxPath node blk l.tag x.pc 4 false with
  | .near off =>
    if !inSx off 4 || x.pc % 4 != 0 then .traps s false else
    let (bs, p, s) := s.readBlk node blk off 4
    if p then .traps s true else s.sxExec node blk l x (leNat bs)
  | _ => .traps s false

/-- The running program of a block's scalar cell, where it may take an instruction. -/
def State.sxReady (s : State) (node blk : Nat) : Option (Scalar × Launch) :=
  if !s.vecRuns node blk then none else
  match (s.block node blk).sx with
  | some x => match (s.block node blk).launch? x.launch with
    | some l => if x.park == .ready && l.fault.isNone then some (x, l) else none
    | none => none
  | none => none

/-- Hold the scalar cell's program. -/
def State.setSx (s : State) (node blk : Nat) (x : Scalar) : State := s.modBlock node blk fun b => { b with sx := some x }

/-- A trap (R178): recorded as CELL 14, SX_TRAP; the launch completes POISONED or ACCESS_FAULT. -/
def State.sxTrap (s : State) (node blk : Nat) (l : Launch) (pc : Nat) (poison : Bool) : State :=
  s.faultLaunch node blk 14 0 l 9 (if poison then .poisoned else .accessFault) (pc / 4 % 65536) 0

/-- The scalar cell's instruction of a kind. -/
def sxRow (node blk : Nat) (s : State) (f : Scalar → Launch → SxOut → Option Out) : Out :=
  need (isRegion node && decide (blk < 4)) .noSuch <|
  match s.sxReady node blk with
  | none => .refused .wrongState
  | some (x, l) => match f x l (s.sxStep node blk l x) with
    | some o => o
    | none => .refused .wrongCommand

/-- SX_INSTRUCTION (R176-R177): an instruction that neither traps nor ends the program nor names a hurdle. -/
def execSxInstruction (node blk : Nat) (s : State) : Out :=
  sxRow node blk s fun _ _ o => match o with
    | .goes s x =>
      -- the parts of the cell that a store may have changed in the state are those of x
      some (.next (s.setSx node blk x))
    | .waits => some (.refused .notDue)
    | _ => none

/-- SX_TRAP (R178). -/
def execSxTrap (node blk : Nat) (s : State) : Out :=
  sxRow node blk s fun x l o => match o with
    | .traps s poison => some (.next (s.sxTrap node blk l x.pc poison))
    | _ => none

/-- SX_ECALL (R178): the program ends when its posted stores are complete. -/
def execSxEcall (node blk : Nat) (s : State) : Out :=
  sxRow node blk s fun x l o => match o with
    | .ecall => some (need (x.writes == 0) .notDue <| .next (s.endLaunch node blk l .done 0))
    | _ => none

/-- The generation of SX's next arrival or wait (R233): from its queue's counts at launch start, and its own. -/
def Scalar.gen (x : Scalar) (l : Launch) (wait : Bool) (id : Nat) : Nat :=
  if wait then Sparse.get 0 l.waits0 id + Sparse.get 0 x.waits id + 1 else Sparse.get 0 l.arrivals0 id + Sparse.get 0 x.arrivals id + 1

/-- SX_HARRIVE (R178, R233): the arrival is made when prior stores are complete. -/
def execSxHarrive (node blk : Nat) (s : State) : Out :=
  sxRow node blk s fun x l o => match o with
    | .harrive id x' => some <|
      need (x.writes == 0) .notDue <|
      let g := x.gen l false id
      if !hurdleOk false id || !s.hurdleKnown node blk l.tag id then .next (s.stopLaunch node blk l .accessFault)
      else match s.judgeArrival node blk l.tag id g with
        | .later => .refused .notDue
        | .refused => .next (s.stopLaunch node blk l .accessFault)
        | .admitted =>
          let s := s.setSx node blk { x' with arrivals := Sparse.upd 0 x'.arrivals id (· + 1) }
          .next ((({ s with freeCount := s.freeCount + 1 }.hurdleEvent l.q 0x08 l.tag id g).arriveHurdle node blk l.tag id g false).wakeNode node)
    | _ => none

/-- SX_HWAITC (R178, R233): SX stalls until the hurdle releases. -/
def execSxHwaitc (node blk : Nat) (s : State) : Out :=
  sxRow node blk s fun x l o => match o with
    | .hwaitc id x' => some <|
      if !hurdleOk false id || !s.hurdleKnown node blk l.tag id then .next (s.stopLaunch node blk l .accessFault)
      else
        let s := s.setSx node blk { x' with waits := Sparse.upd 0 x'.waits id (· + 1), park := .hurdle id (x.gen l true id) }
        .next (({ s with freeCount := s.freeCount + 1 }.hurdleEvent l.q 0x09 l.tag id (x.gen l true id)).wakeScalar node blk)
    | _ => none

/-- The reply of a fabric access of SX (R177-R178): the value of a load or AMO, or the completion of a posted store. -/
def State.sxReply (s : State) (node blk launch : Nat) (rd : Option Nat) (fp : Bool) (size : Nat) (signed' : Bool) (st : Status) (v : Nat) : State :=
  let b := s.block node blk
  match b.sx, b.launch? launch with
  | some x, some l =>
    if x.launch ≠ launch then s else
    match rd with
    | some r =>
      if st = .done then s.setSx node blk { x.load r fp size signed' v with park := .ready }
      else s.sxTrap node blk l (x.pc - 4) (st == .poisoned)
    | none =>
      let s := s.setSx node blk { x with writes := x.writes - 1 }
      let s := if st = .done ∨ st = .poisoned then s else s.sxTrap node blk l x.pc false
      s.settleLaunch node blk launch
  | _, _ => s

/-- SX_ROUNDS_TEST (R178, R484): a test between programs; a failed one runs again, a second failure retires the block, hence the region. Its failures
leave TEST_FAILS and TEST_CELL alone, which are of the vector cells (log entry 122). -/
def execSxRoundsTest (node blk : Nat) (pass : Bool) (s : State) : Out :=
  need (isRegion node && decide (blk < 4)) .noSuch <|
  let b := s.block node blk
  let page := pageOf .vxc node blk
  need (s.clocked node blk && b.sx.isNone) .wrongState <|
  if pass then .next (s.modBlock node blk fun b => { b with sxTested := s.now, sxFailedOnce := false })
  else
    let s := s.error ⟨node, page, 14, none⟩ 11 .ce 0 0
    if b.sxFailedOnce then
      let s := s.modBlock node blk fun b => { b with sxFailedOnce := false, sxTested := s.now }
      .next (s.classified node page 11 (.block node blk page 11 2) fun s => s.toRetire (.block node blk page 11 2))
    else .next (s.modBlock node blk fun b => { b with sxFailedOnce := true })

end Sys2Proof.Machine
end

