-- ==== Sys2Proof/Machine/Cores.lean ====
section
/-!
DEFINITION. The control-core pair's comparator (R181) and the hubs' task rings (R184).
-/
namespace Sys2Proof.Machine

/-- The comparator of a block's control-core pair finds a mismatch (R181, R484): the block stops at once, its commands in flight abandoned; the
region level retires the region, in host-assisted mode too (R419 function 1). -/
def State.lockstepFault (s : State) (node blk : Nat) : State :=
  let page := pageOf .blk node blk
  let s := (s.error ⟨node, page, 0x3F, none⟩ 3 .ueUnit 0 0).modBlock node blk fun b => { b with
    stopped := true, runs := [], recomputes := [], launches := [], groups := [], threads := [], sx := none }
  let s := (unitQueues node blk).foldl (fun s q => s.modQueue q fun x => { x with cur := none }) s
  ((s.showVec node blk).showOut node blk).toRetire (.block node blk page 3 1)

/-- LOCKSTEP_MISMATCH (R181). -/
def execLockstepMismatch (node blk : Nat) (s : State) : Out :=
  need (isRegion node && decide (blk < 4)) .noSuch <|
  let page := pageOf .blk node blk
  need (s.goesOn node page && !(s.block node blk).stopped) .wrongState <|
  .next (s.lockstepFault node blk)

/-- Fields of a task record (R184). -/
def Task.doneAddr (t : Task) : Nat := bits t.record 128 64
def Task.hurdle (t : Task) : Nat := bits t.record 192 16
def Task.tag (t : Task) : Nat := bits t.record 208 6

/-- Two posters share credits: the queues of one block, or the host (R184). -/
def samePoster (a b : Option QueueRef) : Bool :=
  match a, b with
  | some p, some q => p.node == q.node && p.blk == q.blk
  | none, none => true
  | _, _ => false

/-- Task credits of a poster in use at a hub. -/
def State.tasksOf (s : State) (hub : Nat) (p : Option QueueRef) : Nat := (s.tasks.filter fun t => t.hub == hub && samePoster t.poster p).length

/-- The interrupt to a hub's fall-back cores: raised while its task ring is not empty (R184). -/
def State.taskInterrupt (s : State) (hub : Nat) : Bool := s.tasks.any fun t => t.hub == hub

/-- A record as the ring holds it: its reserved fields read 0 (R10, R184). -/
def taskRecord (v : Nat) : Nat := bits v 0 214 + bits v 216 12 * 2 ^ 216

/-- Post a record under its poster's tag (R184, R233): the status, and the state. -/
def State.postTask (s : State) (hub : Nat) (p : Option QueueRef) (tag bits512 : Nat) (dispatch : Bool := false) : Status × State :=
  if bits bits512 208 6 ≠ tag then (.fenceDenied, s)
  else if (if p.isSome then 2 else 512) ≤ s.tasksOf hub p then
    (.accessFault, { s with taskRefusals := Sparse.upd 0 s.taskRefusals hub (· + 1) })
  else
    let id := bits bits512 192 16
    let (gen, s) := match p with
      | some q =>
        let g := Sparse.get 0 (s.queue q).arrivals id + 1
        (g, if id = 0 then s else s.modQueue q fun x => { x with arrivals := Sparse.set x.arrivals id g })
      | none => (0, s)
    (.done, { s with tasks := s.tasks ++ [⟨hub, taskRecord bits512, p, gen, dispatch⟩] })

/-- The hub's interrupt to its fall-back cores (R184): raised while its task ring is not empty. -/
def State.taskLine (s : State) (hub : Nat) : Bool := s.tasks.any fun t => t.hub == hub

/-- TASK_POST (R184): a control core posts for a queue, or the host under a tag. -/
def execTaskPost (hub : Nat) (poster : Option QueueRef) (tag bits512 : Nat) (s : State) : Out :=
  need (isHub hub && (match poster with | some q => q.ok && isRegion q.node | none => true)) .noSuch <|
  need (match poster with | some q => s.unitRuns q && (s.queue q).tag == some tag | none => true) .wrongState <|
  .next (s.postTask hub poster tag bits512).2

/-- The completion of a task, in the order of R184: the completion word, the credit, the arrival. `core` is the fall-back core. -/
def State.endTask (s : State) (t : Task) (core st : Nat) : State :=
  let s := if t.dispatch then s else (s.putBytes ⟨t.hub, core, s.fld F.hubFbctrl_jobTag t.hub 0 core⟩ t.doneAddr (leBytes 8 st)).2
  let s := { s with tasks := s.tasks.erase t }
  if t.hurdle = 0 then s
  else
    let (node, blk) := match t.poster with | some q => (q.node, q.blk) | none => (t.hub, 0)
    let gen := if t.gen = 0 then match s.hurdleFor node blk t.tag t.hurdle with | some h => h.gen + 1 | none => 0 else t.gen
    match s.judgeArrival node blk t.tag t.hurdle gen with
    | .admitted => ((match t.poster with | some q => s.hurdleEvent q 0x08 t.tag t.hurdle gen | none => s).arriveHurdle node blk t.tag t.hurdle gen false).wakeNode node
    | _ => s

end Sys2Proof.Machine
end

