-- ==== Sys2Proof/Machine/Matrix.lean ====
section
/-!
DEFINITION. Matrix commands (R97, R119-R130, R199, R225, R246-R251, R258-R261, R277-R287, R558): where tiles lie, what a command reads
and computes, shadow results, recomputes; MXE_BIND_HEFT, MXE_GEMM, MXE_GEMM_T, MXE_LOCAL, MXE_CODEBOOK, MXE_DRAIN, RECOMPUTE_DONE.
-/
namespace Sys2Proof.Machine

/-- Operand fields of the matrix commands (R225). -/
def gSlots (d : Nat) : List Nat := setBits 32 (bits d 128 32)
def gA (d : Nat) : Nat := bits d 160 4
def gW (d : Nat) : Nat := bits d 164 4
def gSparse (d : Nat) : Bool := dOpcode d != 0x13 && bit d 171
def gSource (d : Nat) : Nat := bits d 176 2
def gSeq (d : Nat) : Nat := bits d 192 16
def gPs (d : Nat) : Nat := if dOpcode d = 0x13 then bits d 232 13 else if dOpcode d = 0x15 then bits d 160 13 else bits d 256 13
def gKFirst (d : Nat) : Nat := if dOpcode d = 0x13 then 0 else bits d 208 16
def gKTiles (d : Nat) : Nat := if dOpcode d = 0x13 then bits d 208 16 else bits d 224 16

/-- A drove-fed command: its weights come from a drove (R225). -/
def gFed (d : Nat) : Bool := (dOpcode d == 0x11 || dOpcode d == 0x12) && decide (gSource d < 2)

/-- The k-tiles of a record: five for T5 (R245). -/
def perRecord (w : Nat) : Nat := if w = 6 then 5 else 1

/-- No named slot's PS lines reach the shadow region (R259). -/
def psClear (d : Nat) : Bool := (gSlots d).all fun n => decide (gPs d + 8 * n + 8 ≤ 4096)

/-- Token tiles and k-tiles of a heft (R558). -/
def Heft.tokTiles (h : Heft) : Nat := (h.tokens + 31) / 32
def Heft.kTiles (h : Heft) : Nat := h.units * 4096 / (h.tokTiles * actTile h.format)

/-- The heft of a job in a block. -/
def State.heftIn (s : State) (node blk tag id : Nat) : Option Heft :=
  s.hefts.find? fun h => h.id == id && h.tag == tag && h.covers (s.lnum node) blk (h.offset * 4096) 1

/-- R199, R227: a binding that may be made. -/
def State.bindOk (s : State) (q : QueueRef) (d : Nat) : Bool :=
  let first := bits d 176 12
  let n := bits d 188 6
  let k := bits d 200 16
  decide (0 < n) && decide (n ≤ 32) && decide (0 < k) && match s.heftIn q.node q.blk (dTag d) (bits d 128 12) with
    | some h => h.tokens != 0 && decide (first + n ≤ h.tokTiles) && decide (k ≤ h.kTiles)
    | none => false

/-- MXE_BIND_HEFT (R199): the n-th named slot takes token tile TOK_TILE_FIRST + (n mod TOK_TILES). -/
def State.runBind (s : State) (q : QueueRef) (d : Nat) : State :=
  let slots := setBits 32 (bits d 144 32)
  let n := bits d 188 6
  let bind := fun (i : Nat) => (⟨bits d 128 12, bits d 176 12 + i % n, n, bits d 200 16, dTag d⟩ : Binding)
  (s.modBlock q.node q.blk fun b =>
    { b with binds := (slots.zip (List.range 32)).foldl (fun m x => Sparse.set m x.1 (bind x.2)) b.binds }).endCmd q .done

/-- MXE_BIND_HEFT (R199, R225). -/
def execMxeBindHeft (q : QueueRef) (s : State) : Out := s.startHead q [0x10] (fun s d => s.bindOk q d) fun s d => s.runBind q d

/-- The work of MXE_CODEBOOK: codebook c is the descriptor's 16 bytes. -/
def State.runCodebook (s : State) (q : QueueRef) (d : Nat) : State :=
  let c := bits d 128 3
  let s := s.modBlock q.node q.blk fun b => { b with books := Sparse.set b.books c (bits d 256 128) }
  (s.put F.mxcCbStat_loaded q.node q.blk 0 (ofBits (c :: setBits 8 (s.fld F.mxcCbStat_loaded q.node q.blk)))).endCmd q .done

/-- MXE_CODEBOOK (R96-R97, R145): one codebook, for every cell of the block. -/
def execMxeCodebook (q : QueueRef) (s : State) : Out :=
  s.startHead q [0x14] (fun _ _ => true) fun s d => s.runCodebook q d

/-- The PS offset of a line (R38). -/
def psOff (line : Nat) : Nat := 0x1000000 + 512 * line

/-- Write a slot's tile to PS lines (R123): token-major, the poisoned elements marked. -/
def State.writeTile (s : State) (node blk line : Nat) (t : Tile) : State :=
  let s := s.writeBlk node blk (psOff line) (allOn (t.vals.flatMap (leBytes 4)))
  { s with mem := t.bad.foldl (fun m i => m.mark (blkKeyAt node blk (psOff line + 4 * i)) 4) s.mem }

/-- Read a slot's tile from PS lines (R123). -/
def State.readTile (s : State) (node blk line tag : Nat) : Tile × State :=
  let (bs, p, s) := s.readBlk node blk (psOff line) 4096
  let bad := if p then (List.range 1024).filter fun i => s.mem.poisoned (blkKeyAt node blk (psOff line + 4 * i)) 4 else []
  ({ vals := (chunks 4 1024 bs).map leNat, bad := bad, tag := tag }, s)

/-- Drain slots (R123): each held tile is written at `base` + 8n and the slot is left empty. -/
def State.drain (s : State) (q : QueueRef) (slots : List Nat) (base : Nat) : State :=
  slots.foldl (fun s n => match Sparse.find? (s.block q.node q.blk).tiles n with
    | some t =>
      let s := (s.writeTile q.node q.blk (base + 8 * n) t).modBlock q.node q.blk fun b => { b with tiles := Sparse.del b.tiles n }
      (s.modCur q fun c => { c with bytesOut := c.bytesOut + 4096 }).condition q (if t.bad.isEmpty then .done else .poisoned)
    | none => s) s

/-- MXE_DRAIN (R123-R124). -/
def execMxeDrain (q : QueueRef) (s : State) : Out :=
  s.startHead q [0x15] (fun _ d => psClear d) fun s d => (s.drain q (gSlots d) (gPs d)).endCmd q .done

/-- The half of WS a source names. -/
def Block.half (b : Block) (side : Nat) : Half := if side = 0 then b.west else b.east

/-- Change a half. -/
def Block.modHalf (b : Block) (side : Nat) (f : Half → Half) : Block :=
  if side = 0 then { b with west := f b.west } else { b with east := f b.east }

/-- The stream of a sequence in a half. -/
def Half.feed? (h : Half) (seq : Nat) : Option Feed := h.feeds.find? fun f => f.seq == seq

/-- Change a stream of a half. -/
def Half.modFeed (h : Half) (seq : Nat) (f : Feed → Feed) : Half := { h with feeds := h.feeds.map fun x => if x.seq = seq then f x else x }

/-- Whole steps in a buffer (R248). -/
def StreamHeader.spb (h : StreamHeader) : Nat := 8192 / (h.outTiles * h.units)

/-- Passes, steps and fills of a stream (R246, R248). -/
def StreamHeader.passes (h : StreamHeader) : Nat := h.tiles / (h.outTiles * h.kSteps)
def StreamHeader.steps (h : StreamHeader) : Nat := h.passes * h.kSteps
def StreamHeader.fills (h : StreamHeader) : Nat := (h.steps + h.spb - 1) / h.spb

/-- Steps of fill `f`. -/
def StreamHeader.fillSteps (h : StreamHeader) (f : Nat) : Nat := min h.spb (h.steps - f * h.spb)

/-- 64-byte units of fill `f` (R248). -/
def StreamHeader.fillUnits (h : StreamHeader) (f : Nat) : Nat := h.fillSteps f * h.outTiles * h.units

/-- Units [lo, lo+n) of a buffer have arrived. -/
def hasUnits (m lo n : Nat) : Bool := bits m lo n == 2 ^ n - 1

/-- What a block holds of a record (R249, R283): resident, absent, or still to come. -/
inductive Held where
  | resident | absent | coming
  deriving DecidableEq, Repr

/-- The state of [lo, lo+n) units of fill `f` of a stream. -/
def Feed.held (x : Feed) (f lo n : Nat) : Held :=
  let judge := fun (units : Nat) (closed : Bool) => if hasUnits units lo n then Held.resident else if closed then .absent else .coming
  if f % 2 = 0 then (if x.fill0 = some f then judge x.units0 x.closed0 else .coming)
  else (if x.fill1 = some f then judge x.units1 x.closed1 else .coming)

/-- Send a notice on C0. -/
def State.notice (s : State) (src dest tag : Nat) (n : Notice) (seq side flag : Nat) (unit : Nat := 0) : State :=
  s.launch src { op := .control, cls := 0, epoch := s.fld F.rtrEpoch_injEpoch src, dest := dest, src := src, jobTag := tag, srcUnit := unit,
                 oparg0 := seq + side * 2 ^ 16 + flag * 2 ^ 17, oparg1 := n.code, injTime := s.timeAt src }

/-- A stream that is not provisional, or is committed, is over at a member once all four blocks have released its last fill; an undecided one is
kept for its decision (R260-R261). -/
def State.closeFeed (s : State) (node side seq : Nat) : State :=
  let spent := [0, 1, 2, 3].all fun b => match ((s.block node b).half side).feed? seq with
    | some y => y.freed.contains (y.header.fills - 1) && (!y.prov || y.decision == some .commit)
    | none => false
  if spent then
    [0, 1, 2, 3].foldl (fun s b => s.modBlock node b fun y => y.modHalf side fun h => { h with feeds := h.feeds.filter (·.seq != seq) }) s
  else s

/-- A block releases a fill; when all four blocks of the member have, the member's router frees the buffer at the edge die (R250). -/
def State.releaseFill (s : State) (node blk side seq fill : Nat) : State :=
  match ((s.block node blk).half side).feed? seq with
  | none => s
  | some x =>
    if x.freed.contains fill then s else
    let drop := fun (x : Feed) => { x with
      freed := x.freed ++ [fill],
      fill0 := if x.fill0 = some fill then none else x.fill0, fill1 := if x.fill1 = some fill then none else x.fill1 }
    let s := s.modBlock node blk fun b => b.modHalf side fun h => h.modFeed seq drop
    let s := s.event ⟨node, pageOf .blk node blk, 0x3F, some x.tag⟩ 3 0x18 (0x2000000 + side * 0x100000 + fill % 2 * 0x80000) seq
    let all := [0, 1, 2, 3].all fun b => match ((s.block node b).half side).feed? seq with
      | some y => y.freed.contains fill
      | none => false
    if !all then s else
    (s.notice node x.src x.tag .bufFree seq side (fill % 2)).closeFeed node side seq

/-- An acknowledgement that a member owes is sent once none of its blocks has a command of that sequence still to promote (R260). -/
def State.sendAcks (s : State) (node : Nat) : State :=
  let busy := fun (a : AckOwed) => [0, 1, 2, 3].any fun b => (s.block node b).runs.any fun r => r.promote && r.shadow.isSome &&
    (match (s.queue r.q).cur with | some c => gSeq c.desc == a.seq && gSource c.desc == a.side | none => false)
  let due := s.acks.filter fun a => a.node == node && !busy a
  due.foldl (fun s a => s.notice node a.edge a.tag .ack a.seq a.side 0) { s with acks := s.acks.filter fun a => !due.contains a }

/-- Remove a matrix command's run and its recomputes. -/
def State.dropRun (s : State) (q : QueueRef) : State :=
  (s.modBlock q.node q.blk fun b => { b with runs := b.runs.filter (·.q != q), recomputes := b.recomputes.filter (·.q != q) }).showOut q.node q.blk

/-- Change a matrix command's run. -/
def State.modRun (s : State) (q : QueueRef) (f : MatRun → MatRun) : State :=
  s.modBlock q.node q.blk fun b => { b with runs := b.runs.map fun r => if r.q == q then f r else r }

/-- A matrix command ends with a status: it computes no further (R247, R199). -/
def State.endRun (s : State) (q : QueueRef) (st : Status) : State := (s.dropRun q).endCmd q st

/-- The first line of a shadow slot (R259). -/
def shadowLine (i : Nat) : Nat := 4096 + 256 * i

/-- Promote a consumer's shadow results to its own PS lines (R260). -/
def State.promoteRun (s : State) (q : QueueRef) (d i : Nat) : State :=
  let s := (gSlots d).foldl (fun s n =>
    let (t, s) := s.readTile q.node q.blk (shadowLine i + 8 * n) (dTag d)
    s.writeTile q.node q.blk (gPs d + 8 * n) t) s
  s.endRun q .done

/-- The output tile of the n-th named slot of a drove-fed or resident command (R225). -/
def State.outTile (s : State) (q : QueueRef) (d n slot : Nat) : Nat :=
  match Sparse.find? (s.block q.node q.blk).binds slot with
  | some b => bits d 240 12 + n / b.tokTiles
  | none => 0

/-- The named slots with their number among them. -/
def numbered (l : List Nat) : List (Nat × Nat) := l.zip (List.range l.length)

/-- The steps of a command, in order (R246, R251): (pass, k-tile); for a drove-fed command that names no slot, the fills of the stream. -/
def State.runSteps (s : State) (q : QueueRef) (d : Nat) (h : Option StreamHeader) : List (Nat × Nat) :=
  let ks := (List.range (gKTiles d)).map (· + gKFirst d)
  match h with
  | some h =>
    if (gSlots d).isEmpty then (List.range h.fills).map fun f => (f, 0)
    else
      let ps := (numbered (gSlots d)).map fun x => s.outTile q d x.2 x.1 / h.outTiles
      (allBelow h.passes ps.contains).flatMap fun p => ks.map fun k => (p, k)
  | none => ks.map fun k => (0, k)

/-- R247, R279: what a stream header does not admit. -/
def State.headerBreaks (s : State) (q : QueueRef) (d : Nat) (h : StreamHeader) : Bool :=
  h.fmt != gW d || h.sparse != gSparse d ||
    (!(gSlots d).isEmpty && (decide (h.kSteps * perRecord (gW d) < gKFirst d + gKTiles d) ||
      (numbered (gSlots d)).any fun x => decide (h.passes * h.outTiles ≤ s.outTile q d x.2 x.1)))

/-- A run that can go on loads its tiles (R123): FRESH zeros, a held tile, or the slot's PS lines; they are its job's from here on. -/
def State.loadTiles (s : State) (q : QueueRef) (d : Nat) : State :=
  (gSlots d).foldl (fun s n =>
    if bit d 174 then s.modBlock q.node q.blk fun b => { b with tiles := Sparse.set b.tiles n ⟨List.replicate 1024 0, [], dTag d⟩ }
    else match Sparse.find? (s.block q.node q.blk).tiles n with
    | some t => s.modBlock q.node q.blk fun b => { b with tiles := Sparse.set b.tiles n { t with tag := dTag d } }
    | none =>
      let (t, s) := s.readTile q.node q.blk (gPs d + 8 * n) (dTag d)
      s.modBlock q.node q.blk fun b => { b with tiles := Sparse.set b.tiles n t }) s

/-- A free shadow slot of a block (R259). -/
def Block.freeShadow (b : Block) : Option Nat := firstBelow 8 fun i => !b.runs.any fun r => r.shadow == some i

/-- A run begins its work with its steps known. -/
def State.readyRun (s : State) (q : QueueRef) (d : Nat) (h : Option StreamHeader) (shadow : Option Nat) (promote : Bool) : State :=
  let todo := s.runSteps q d h
  (s.loadTiles q d).modRun q fun r => { r with ready := true, shadow := shadow, todo := todo, promote := promote }

/-- A run that waits for its stream (R224, R247, R258-R259, R302): it begins, ends, or waits on. -/
def State.beginRun (s : State) (q : QueueRef) (d : Nat) : Option State :=
  if !gFed d then some (s.readyRun q d none none false)
  else
    let b := s.block q.node q.blk
    let half := b.half (gSource d)
    match half.feed? (gSeq d) with
    | none => if half.table.any (fun e => e.1 == gSeq d && e.2.1 == dTag d && e.2.2 == .empty) then some (s.endRun q .done) else none
    | some f =>
      if f.decision = some .cancel then none
      else if s.headerBreaks q d f.header then some (s.endRun q .accessFault)
      else if !f.prov || f.decision = some .commit then some (s.readyRun q d (some f.header) none true)
      else if !dProvisional d then none
      else if (gSlots d).any fun n => (Sparse.find? b.tiles n).isSome then some (s.endRun q .accessFault)
      else match b.freeShadow with
        | some i => some (s.readyRun q d (some f.header) (some i) false)
        | none => none

/-- An operand tile's bytes from AS for the block's own cells (R198): none where the rules refuse it. -/
def State.asTile (s : State) (q : QueueRef) (off n : Nat) : Option (List Byte × State) :=
  if off + n ≤ 0x600000 ∧ s.mayReadAS (s.engine q) q.node q.blk off n then
    let (bs, _, s) := s.readBlk q.node q.blk off n
    some (bs, s)
  else none

/-- Some granule of [off, off+n) of a block window is poisoned. -/
def State.badBlk (s : State) (node blk off n : Nat) : Bool := s.mem.poisoned (blkKeyAt node blk off) n

/-- An activation tile at an AS offset as rows, the poisoned tokens marked. -/
def State.actTile (s : State) (q : QueueRef) (fmt off : Nat) (zb : List Byte) : Option (List ARow × State) :=
  (s.asTile q off (Sys2Proof.Machine.actTile fmt)).map fun (bs, s) =>
    let b := blockBytes fmt
    let any := s.badBlk q.node q.blk off (Sys2Proof.Machine.actTile fmt)
    let mark := fun (x : ARow × Nat) => if any then { x.1 with bad := s.badBlk q.node q.blk (off + x.2 * b) b ||
      (!isFloatFmt fmt && s.badBlk q.node q.blk (off + 32 * b + x.2) 1) } else x.1
    (((actRows fmt bs zb).zip (List.range 32)).map mark, s)

/-- The AS offset of a slot's activation tile for a k-tile, and of its zero bitmap (R225, R286, R558). -/
def State.actPlace (s : State) (q : QueueRef) (d slot k : Nat) : Option (Nat × Nat) :=
  if dOpcode d = 0x13 then
    let a := bits d 224 6
    some (512 * bits d 176 14 + ((slot % a) * gKTiles d + k) * Sys2Proof.Machine.actTile (gA d), 0)
  else match Sparse.find? (s.block q.node q.blk).binds slot with
    | none => none
    | some b => match s.heftIn q.node q.blk b.tag b.heft with
      | none => none
      | some h =>
        if b.kTiles ≤ k then none
        else some (h.offset * 4096 + (b.tokTile * h.kTiles + k) * Sys2Proof.Machine.actTile h.format,
          512 * bits d 320 14 + 128 * (b.tokTile * h.kTiles + k))

/-- A weight tile as a slot reads it: decoded, absent, or refused. -/
inductive WRead where
  | tile (t : WTile) (s : State)
  | absent
  | refused
  deriving Repr

/-- Mark the outputs whose string, scales or metadata are poisoned; `meta'` is where the metadata of a resident tile lie (R279). -/
def State.markOuts (s : State) (q : QueueRef) (off len fmt : Nat) (sparse transposed : Bool) (meta' : Option Nat) (t : WTile) : WTile :=
  if !s.badBlk q.node q.blk off len && !(meta'.any fun m => s.badBlk q.node q.blk m 128) then t else
  let b := if fmt = 6 then 32 else if sparse then blockBytes fmt / 2 else blockBytes fmt
  let e := 32 * b
  let sc := if fmt = 6 then 4 else if isFloatFmt fmt then 0 else 1
  let bad := fun (o : Nat) => s.badBlk q.node q.blk (off + o * b) b || s.badBlk q.node q.blk (off + e + o * sc) sc ||
    (sparse && s.badBlk q.node q.blk (meta'.getD (off + e + 32 * sc) + 4 * o) 4)
  let any := (List.range 32).any bad || s.badBlk q.node q.blk off len
  { t with outs := (t.outs.zip (List.range 32)).map fun x => { x.1 with bad := if transposed then any else bad x.2 } }

/-- The weight tile of a slot for step (pass, k) (R246, R248, R276-R279, R283). The place of a resident tile is a free value (log entry 2). -/
def State.weightAt (s : State) (q : QueueRef) (d book n slot p k : Nat) : WRead :=
  let w := gW d
  let tr := dOpcode d == 0x12
  if dOpcode d = 0x13 then
    let off := 512 * bits d 192 14 + ((slot / bits d 224 6) * gKTiles d + k) * Sys2Proof.Machine.actTile w
    match s.asTile q off (Sys2Proof.Machine.actTile w) with
    | some (bs, s) => .tile (s.markOuts q off (Sys2Proof.Machine.actTile w) w false false none (weightTile w book false false 0 bs none)) s
    | none => .refused
  else if gFed d then
    match ((s.block q.node q.blk).half (gSource d)).feed? (gSeq d) with
    | none => .refused
    | some f =>
      let h := f.header
      let j := p * h.kSteps + k / perRecord w
      let unit := ((j % h.spb) * h.outTiles + s.outTile q d n slot % h.outTiles) * h.units
      match f.held (j / h.spb) unit h.units with
      | .resident =>
        let off := 0x2000000 + gSource d * 0x100000 + (j / h.spb % 2) * 0x80000 + 64 * unit
        let (bs, _, s) := s.readBlk q.node q.blk off (64 * h.units)
        .tile (s.markOuts q off (64 * h.units) w h.sparse tr none (weightTile w book h.sparse tr (k % perRecord w) bs none)) s
      | _ => .absent
  else
    let o := s.outTile q d n slot
    let outs := (numbered (gSlots d)).map fun x => s.outTile q d x.2 x.1
    let distinct := outs.eraseDups
    let i := (k / perRecord w - gKFirst d / perRecord w) * distinct.length + (distinct.takeWhile (· != o)).length
    if bit d 172 && !bit ((s.readBlk q.node q.blk (0x2000000 + 64 * bits d 304 15 + i / 8) 1).1.headD 0).toNat (i % 8) then .absent
    else
      let off := 0x2000000 + 64 * (Config.residentUnit o (k / perRecord w) % 32768)
      let len := 64 * (recordUnits w (gSparse d) - (if gSparse d then 2 else 0))
      if 0x2200000 < off + len then .refused else
      let (bs, _, s) := s.readBlk q.node q.blk off len
      let mo := 0x2000000 + 64 * (bits d 288 15 + 2 * i)
      let (ms, _, s) := if gSparse d then s.readBlk q.node q.blk mo 128 else ([], false, s)
      .tile (s.markOuts q off len w (gSparse d) tr (if gSparse d then some mo else none)
        (weightTile w book (gSparse d) tr (k % perRecord w) bs (if gSparse d then some ms else none))) s

/-- Every slot of step (pass, k) finds its record, or finds it absent (R122, R249). -/
def State.stepReady (s : State) (q : QueueRef) (d p k : Nat) : Bool :=
  if !gFed d then true else
  match ((s.block q.node q.blk).half (gSource d)).feed? (gSeq d) with
  | none => false
  | some f =>
    let h := f.header
    if (gSlots d).isEmpty then f.held p 0 (h.fillUnits p) != .coming
    else (numbered (gSlots d)).all fun x =>
      let o := s.outTile q d x.2 x.1
      let j := p * h.kSteps + k / perRecord (gW d)
      o / h.outTiles != p || f.held (j / h.spb) (((j % h.spb) * h.outTiles + o % h.outTiles) * h.units) h.units != .coming

/-- Sticky bits and counts that a k-tile leaves (R94, R104, R116). -/
def State.numStat (s : State) (node blk : Nat) (f : NumFlags) : State :=
  let s := if f.psOvf then s.put F.blkNumstat_psOvf node blk 0 1 else s
  let s := if f.nanOut then s.put F.blkNumstat_nanOut node blk 0 1 else s
  if f.badCode then s.put F.blkNumstat_t5Badcode node blk 0 1 else s

/-- The check of the segment that a disturbance falls in fails (R126); a segment without a sum is not checked. -/
def hitFails (rows : List ARow) (w : WTile) (h : Hit) : Bool :=
  match rows[h.elem / 32]?, w.outs[h.elem % 32]? with
  | some a, some o => match o.segs[h.seg]? with
    | some sg => let ps := segProducts a o sg
                 (special a.scale sg.2.2 ps).isNone && !residueOk ps h.err h.res
    | none => false
  | _, _ => false

/-- The disturbance of an element in a segment, as a list of them has it. -/
def hitOf (l : List Hit) (elem seg : Nat) : Hit := (l.find? fun h => h.elem == elem && h.seg == seg).getD ⟨elem, seg, 0, 0⟩

/-- The operand tiles of a slot (the `n`-th named) for step (pass, k): none where one is refused; no tiles where the weight tile is absent (R283). -/
def State.slotOps (s : State) (q : QueueRef) (d book n slot p k : Nat) : Option (Option (List ARow × WTile) × State) :=
  match s.weightAt q d book n slot p k with
  | .refused => none
  | .absent => some (none, s)
  | .tile w s =>
    match s.actPlace q d slot k with
    | none => none
    | some (off, zoff) =>
      let zb := if dOpcode d != 0x13 && bit d 173 then (s.asTile q zoff 128).map fun x => (x.1, x.2) else some ([], s)
      match zb with
      | none => none
      | some (zs, s) => (s.actTile q (gA d) off zs).map fun x => (some (x.1, w), x.2)

/-- A k-tile is added into a slot's sums (R102); `err` is what stays of an upset by element and segment, `poison` the elements that are replaced by a
poisoned value, under which the exact sum stands (log entry 124). -/
def State.slotAdd (s : State) (q : QueueRef) (d slot : Nat) (rows : List ARow) (w : WTile) (err : Nat → Nat → Int) (poison : List Nat) : State :=
  match Sparse.find? (s.block q.node q.blk).tiles slot with
  | none => s
  | some t =>
    let (vals, fl) := tileStep (gA d) (gW d) rows w t.vals {} err
    let bad := (List.range 1024).filter fun i => t.bad.contains i || poison.contains i || (match rows[i / 32]? with | some r => r.bad | none => false) ||
      (match w.outs[i % 32]? with | some o => o.bad | none => false)
    let (gated, formed) := tileProducts rows w
    let cell := s.slotCell q.node q.blk slot
    let cells := if cell < 33 then [cell] else (s.cellOrder q.node q.blk).filter (· != s.outCell q.node q.blk)
    let s := s.modBlock q.node q.blk fun b => { b with tiles := Sparse.set b.tiles slot { t with vals := vals, bad := bad } }
    let s := s.modRun q fun r => { r with cells := (cells ++ r.cells).eraseDups }
    let s := s.modCur q fun c => { c with
      macs := c.macs + formed, skips := c.skips + gated, psOvf := c.psOvf || fl.psOvf,
      bytesIn := c.bytesIn + Sys2Proof.Machine.actTile (gA d) + 64 * recordUnits (gW d) (gSparse d) }
    (s.condition q (if bad.isEmpty then .done else .poisoned)).numStat q.node q.blk fl

/-- The residue check of a slot's segment fails (R126-R129, R143): the result is held, and the segment waits for the cell out of service, or for
the cell itself where none is out. -/
def State.mismatch (s : State) (q : QueueRef) (n slot p k cell : Nat) (hits : List Hit) : State :=
  let c := s.slotCell q.node q.blk slot
  let c := if c < 33 then c else cell
  let out := s.outCell q.node q.blk
  let s := (s.bump F.mxcResidue_mismatches q.node q.blk 0).put F.mxcResidue_lastCell q.node q.blk 0 c
  (s.modBlock q.node q.blk fun b => { b with recomputes := b.recomputes ++ [⟨q, slot, n, p, k, hits, c, if out < 33 then out else c⟩] }).showOut q.node q.blk

/-- One slot's part of a step (R126-R127): none where an operand is refused. BF16 and FP16 are not checked. -/
def State.slotStep (s : State) (q : QueueRef) (d : Nat) (r : MatRun) (n slot p k : Nat) : Option State :=
  match s.slotOps q d r.book n slot p k with
  | none => none
  | some (none, s) => some (s.modCur q fun c => { c with skips := c.skips + 1024 * (if gSparse d then 16 else 32) })
  | some (some (rows, w), s) =>
    let ups := if isFloatFmt (gA d) then [] else r.upsets.filter fun u => u.slot == slot && u.k == k
    let hits := ups.flatMap (·.hits)
    if hits.any (hitFails rows w) then some (s.mismatch q n slot p k ((ups.head?.map (·.cell)).getD 0) hits)
    else some (s.slotAdd q d slot rows w (fun e j => (hitOf hits e j).err) [])

/-- The steps of a stream that a run has just read to their end (R250-R251): the last k-tile of a step in its pass; whole fills for a command that
names no slot. -/
def stepsRead (d : Nat) (h : StreamHeader) (p k : Nat) (rest : List (Nat × Nat)) : List Nat :=
  if (gSlots d).isEmpty then (List.range (h.fillSteps p)).map (· + p * h.spb)
  else
    let m := perRecord (gW d)
    if rest.any fun x => x.1 == p && x.2 / m == k / m then [] else [p * h.kSteps + k / m]

/-- The step at the head of a run's list, computed for every slot of its pass. -/
def State.computeStep (s : State) (q : QueueRef) (d : Nat) (r : MatRun) (p k : Nat) (rest : List (Nat × Nat)) : State :=
  let feed := if gFed d then ((s.block q.node q.blk).half (gSource d)).feed? (gSeq d) else none
  let mine := (numbered (gSlots d)).filter fun x => match feed with
    | some f => s.outTile q d x.2 x.1 / f.header.outTiles == p
    | none => true
  match mine.foldl (fun (o : Option State) x => o.bind fun s => s.slotStep q d r x.2 x.1 p k) (some s) with
  | none => s.endRun q .accessFault
  | some s =>
    let s := s.modRun q fun r => { r with todo := rest }
    match feed with
    | none => s
    | some f => s.modBlock q.node q.blk fun b => b.modHalf (gSource d) fun h => h.modFeed (gSeq d) fun x =>
        { x with covered := x.covered ++ (stepsRead d f.header p k rest).filter fun j => !x.covered.contains j }

/-- The descriptors that the control core holds of a queue's list from its walk on (R180): those of its fetched lines, up to the one with LAST. -/
def heldAhead (lines : List FetchLine) (a : Nat) : Nat → List Nat
  | 0 => []
  | n + 1 => match lines.find? fun l => l.addr == a / 512 * 512 with
    | none => []
    | some l =>
      let d := lineDesc l.bytes a
      d :: if dLast d then [] else heldAhead lines (a + 64) n

/-- A drove-fed command reads some step of a fill of a stream (R246, R248, R251). -/
def readsFill (d side seq : Nat) (h : StreamHeader) (fill : Nat) : Bool :=
  let m := perRecord (gW d)
  gFed d && gSource d == side && gSeq d == seq && ((gSlots d).isEmpty || (List.range (h.fillSteps fill)).any fun i =>
    let j := (fill * h.spb + i) % h.kSteps
    decide (gKFirst d / m ≤ j) && decide (j < (gKFirst d + gKTiles d + m - 1) / m))

/-- A matrix command of the block has yet to finish with a fill (R127, R250): one that runs, one whose recompute waits, one in flight that has not
started, one that the control core has fetched (log entry 29). -/
def State.fillWanted (s : State) (node blk side seq : Nat) (h : StreamHeader) (fill : Nat) : Bool :=
  let b := s.block node blk
  let step := fun (d p k : Nat) => if (gSlots d).isEmpty then p == fill else (p * h.kSteps + k / perRecord (gW d)) / h.spb == fill
  (List.range 4).any fun i =>
    let q : QueueRef := ⟨node, blk, 0, i⟩
    let x := s.queue q
    let ahead := match x.walk with | some a => (heldAhead x.lines a 16).any fun d => dTag d == s.queueTag q && readsFill d side seq h fill | none => false
    ahead || match x.cur with
      | none => false
      | some c => c.status.isNone && readsFill c.desc side seq h fill && match b.runs.find? fun r => r.q == q with
        | none => true
        | some r => !r.ready || r.todo.any (fun t => step c.desc t.1 t.2) || b.recomputes.any fun y => y.q == q && step c.desc y.p y.k

/-- The fills of a block that are read whole, and that no command still wants, are released (R127, R250). -/
def State.settleFills (s : State) (node blk : Nat) : State :=
  let done := [0, 1].flatMap fun side => ((s.block node blk).half side).feeds.flatMap fun f =>
    ((f.fill0.toList ++ f.fill1.toList).filter fun fill =>
      ((List.range (f.header.fillSteps fill)).all fun i => f.covered.contains (fill * f.header.spb + i)) &&
      !s.fillWanted node blk side f.seq f.header fill).map fun fill => (side, f.seq, fill)
  done.foldl (fun s x => s.releaseFill node blk x.1 x.2.1 x.2.2) s

/-- A run that has no step left ends (R123, R259-R260): it drains, holds its tiles, or drains to its shadow slot and awaits the decision. -/
def State.finishRun (s : State) (q : QueueRef) (d : Nat) (r : MatRun) : State :=
  let s := if isFloatFmt (gA d) then
      s.modBlock q.node q.blk fun b => { b with floatWork := b.floatWork ++ r.cells.map fun c => (c, dTag d, ((s.queue q).cur.map InFlight.addr).getD 0) }
    else s
  match r.shadow with
  | some i =>
    let s := s.drain q (gSlots d) (shadowLine i)
    if r.promote then s.promoteRun q d i else s.modRun q fun r => { r with awaiting := true }
  | none => (if bit d 175 then s.drain q (gSlots d) (gPs d) else s).endRun q .done

/-- One move of a run, if it has one. -/
def State.runMove (s : State) (r : MatRun) : Option State :=
  match (s.queue r.q).cur with
  | none => some (s.dropRun r.q)
  | some c =>
    let d := c.desc
    if c.status.isSome then some (s.dropRun r.q)
    else if !r.ready then s.beginRun r.q d
    else if r.awaiting then (if r.promote then r.shadow.map fun i => s.promoteRun r.q d i else none)
    else if (s.block r.q.node r.q.blk).recomputes.any fun x => x.q == r.q then none
    else match r.todo with
      | [] => some (s.finishRun r.q d r)
      | (p, k) :: rest => if s.stepReady r.q d p k then some (s.computeStep r.q d r p k rest) else none

/-- Move a block's matrix commands as far as they go. -/
def State.moveRuns (s : State) (node blk : Nat) : Nat → State
  | 0 => s
  | fuel + 1 =>
    match (s.block node blk).runs.findSome? fun r => s.runMove r with
    | some s => s.moveRuns node blk fuel
    | none => s

/-- The moves a block's matrix commands can make at most. -/
def Block.moves (b : Block) : Nat := b.runs.foldl (fun a r => a + r.todo.length + 70000) 8

/-- Advance the matrix commands of a block, release what they have finished with, then send the acknowledgements that are due. -/
def State.matrixTick (s : State) (node blk : Nat) : State :=
  ((s.moveRuns node blk (s.block node blk).moves).settleFills node blk).sendAcks node

/-- What the blocks have finished with since is released: a command that was to read it may have been skipped (R250). -/
def State.settleWeights (s : State) : State :=
  s.blocks.foldl (fun s e => if e.2.west.feeds.isEmpty && e.2.east.feeds.isEmpty then s else s.settleFills (e.1 / 4) (e.1 % 4)) s

/-- Start a matrix command (R97, R123, R199, R259): its slots' bindings and held tiles are checked, its codebook latched. -/
def State.startMatrix (s : State) (q : QueueRef) (d : Nat) (ups : List Upset) : State :=
  let b := s.block q.node q.blk
  let unbound := dOpcode d != 0x13 && (gSlots d).any fun n => match Sparse.find? b.binds n with
    | some x => x.tag != dTag d
    | none => true
  let held := dProvisional d && (gSlots d).any fun n => (Sparse.find? b.tiles n).isSome
  if unbound || held then s.endCmd q .accessFault
  else
    let run : MatRun := { q := q, book := Sparse.get 0 b.books (bits d 168 3), upsets := ups }
    ((s.modCur q fun c => { c with wait := .matrix }).modBlock q.node q.blk fun b => { b with runs := b.runs ++ [run] }).matrixTick q.node q.blk

/-- R86, R124, R225, R227, R246, R259, R279-R280: an MXE_GEMM or MXE_GEMM_T that is well formed. -/
def gemmOk (d : Nat) : Bool :=
  pairOk (gA d) (gW d) && gSource d != 3 && gKTiles d != 0 && psClear d && !(gW d == 6 && (dOpcode d == 0x12 || gSparse d))
    && (gW d != 6 || (gKFirst d % 5 == 0 && gKTiles d % 5 == 0))
    && (decide (2 ≤ gSource d) || (!bit d 172 && bits d 288 15 == 0 && bits d 304 15 == 0))

/-- MXE_GEMM (R124). `ups`: upsets of the exact path while it runs (R126). -/
def execMxeGemm (q : QueueRef) (ups : List Upset) (s : State) : Out := s.startHead q [0x11] (fun _ d => gemmOk d) fun s d => s.startMatrix q d ups

/-- MXE_GEMM_T (R124, R278, R281). -/
def execMxeGemmT (q : QueueRef) (ups : List Upset) (s : State) : Out := s.startHead q [0x12] (fun _ d => gemmOk d) fun s d => s.startMatrix q d ups

/-- MXE_LOCAL (R124-R125): both operands from AS. -/
def execMxeLocal (q : QueueRef) (ups : List Upset) (s : State) : Out :=
  s.startHead q [0x13] (fun _ d => pairOk (gA d) (gW d) && gW d != 6 && gW d != 7 && gKTiles d != 0 && psClear d && decide (0 < bits d 224 6)
    && decide (bits d 224 6 ≤ 32)) fun s d => s.startMatrix q d ups

/-- MISMATCH_LIMIT and WINDOW as they act (R144). -/
def State.classify (s : State) (node blk : Nat) : Nat × Nat :=
  (max 2 (s.fld F.mxcClassify_mismatchLimit node blk), max 1 (s.fld F.mxcClassify_window node blk) * ms)

/-- Count a mismatch on a cell; at the limit it is classified permanently faulty (R130). -/
def State.chargeCell (s : State) (node blk c : Nat) (sev : Severity) : State :=
  let (limit, window) := s.classify node blk
  let (n, s) := s.countEvent (eventKey 1 (blockKey node blk * 33 + c)) window
  if limit ≤ n then s.cellFaulty node blk c sev n false else s

/-- A recompute's result against the held one (R127 steps 3 to 5): what stays of the upsets by element and segment, the elements that both leave
poisoned, and those on which the recompute itself mismatched. Segments that passed keep the held result. -/
def choose (rows : List ARow) (w : WTile) (held again : List Hit) : (Nat → Nat → Int) × List Nat × List Nat :=
  let wrong := (held.filter (hitFails rows w)).map (·.seg)
  let fails := fun (l : List Hit) (e j : Nat) => hitFails rows w (hitOf l e j)
  let err := fun (e j : Nat) =>
    if !wrong.contains j then (hitOf held e j).err
    else if !fails again e j then (hitOf again e j).err
    else if !fails held e j then (hitOf held e j).err else 0
  let failed := again.filter fun h => wrong.contains h.seg && hitFails rows w h
  (err, ((failed.filter fun h => fails held h.elem h.seg).map (·.elem)).eraseDups, (failed.map (·.elem)).eraseDups)

/-- The elements a recompute leaves poisoned, and those on which it mismatched; the k-tile is added into the slot's sums (R127 steps 4 and 5). -/
def State.resolveRecompute (s : State) (x : Recompute) (again : List Hit) : List Nat × List Nat × State :=
  match (s.queue x.q).cur, (s.block x.q.node x.q.blk).runs.find? fun r => r.q == x.q with
  | some c, some r => match s.slotOps x.q c.desc r.book x.n x.slot x.p x.k with
    | some (some (rows, w), s) =>
      let (err, both, failed) := choose rows w x.hits again
      (both, failed, s.slotAdd x.q c.desc x.slot rows w err both)
    | some (none, s) => ([], [], s)
    | none => ([], [], s.endRun x.q .accessFault)
  | _, _ => ([], [], s)

/-- RECOMPUTE_DONE (R127-R130): the oldest recompute of a block ends; `hits` is what disturbs it in its turn. A recompute that fails counts in
RECOMPUTE_FAILS and on its cell, and leaves MISMATCHES and LAST_CELL alone (log entry 125). -/
def execRecomputeDone (node blk : Nat) (hits : List Hit) (s : State) : Out :=
  need (isRegion node && decide (blk < 4)) .noSuch <|
  match (s.block node blk).recomputes with
  | [] => .refused .wrongState
  | x :: rest =>
    let addr := ((s.queue x.q).cur.map InFlight.addr).getD 0
    let tag := (s.queue x.q).tag
    let s := s.modBlock node blk fun b => { b with recomputes := rest }
    let (both, failed, s) := s.resolveRecompute x hits
    let sev : Severity := if both.isEmpty then .ce else .de
    let s := s.put F.mxcResidue_lastMasked node blk 0 (b2n both.isEmpty)
    let s := if failed.isEmpty then s else s.bump F.mxcResidue_recomputeFails node blk 0
    let s := (s.error (cellSite node blk x.cell tag) (if both.isEmpty then 4 else 5) sev addr both.length).showOut node blk
    let s := s.chargeCell node blk x.cell sev
    let s := if failed.isEmpty then s else s.chargeCell node blk x.helper sev
    .next (s.matrixTick node blk)

end Sys2Proof.Machine
end

