-- ==== Sys2Proof/Machine/Move.lean ====
section
/-!
DEFINITION. The move engine: pens (R202-R211, R225), MVE_COPY, MVE_BCAST, MVE_DIGEST (R240); what a packet of a command in flight answers (R230);
the scrubber's slots (R193-R194).
-/
namespace Sys2Proof.Machine

/-- The purpose of a packet of a queue's command in flight. -/
def State.cmdPurpose (s : State) (q : QueueRef) : Purpose := .engine q (s.queue q).records

/-- The CRC-64 of R240. -/
def crc64 (init : Nat) (bs : List Byte) : Nat := crcMsb 64 0x42F0E1EBA9EA3693 init bs

/-- The whole transfer of a move command is over: what it writes may be undefined (R6); MVE_DIGEST folds what it has read into its word (R240). -/
def State.endMove (s : State) (q : QueueRef) (c : InFlight) : State :=
  let d := c.desc
  let s := if c.found.leavesUndefined then s.undefineDest q d else s
  match dOpcode d with
  | 0x36 =>
    let r := s.engine q
    let out := bits d 224 48
    let (x, old, s) := if bit d 208 then s.get r out 8 else (.done, leBytes 8 (2 ^ 64 - 1), s)
    let bad := fun (x : Status) => x ≠ .done ∧ x ≠ .poisoned
    if bad x then s.endCmd q x
    else if bad c.found then (s.condition q x).endCmd q .done
    else
      let v := crc64 (leNat old) (c.got.flatMap (·.2))
      let (z, s) := s.putBytes r out (leBytes 8 v)
      ((s.modCur q fun c => { c with detail := v % 2 ^ 32, bytesIn := bits d 176 32, bytesOut := 8 }).condition q x).endCmd q z
  | _ => s.endCmd q .done

/-- A packet of a command in flight is answered (R7, R230): the first status that is not DONE is kept; with the last answer the command ends. -/
def State.packetDone (s : State) (q : QueueRef) (cmd : Nat) (st : Status) : State :=
  match (s.queue q).cur with
  | some c =>
    if (s.queue q).records ≠ cmd ∨ c.status.isSome ∨ c.wait ≠ .packets then s
    else
      let s := (s.modCur q fun c => { c with left := c.left - 1 }).condition q st
      match (s.queue q).cur with
      | some c => if c.left = 0 then s.endMove q c else s
      | none => s
  | none => s

/-- The command waits for the answers to `n` packets; with none it has ended. -/
def State.awaitPackets (s : State) (q : QueueRef) (n : Nat) : State :=
  if n = 0 then s.endCmd q .done else s.modCur q fun c => { c with wait := .packets, left := n }

/-- Cut a transfer at 512-byte boundaries (R36): address and bytes of each packet. -/
def cutBytes : Nat → Nat → List Byte → List (Nat × List Byte)
  | 0, _, _ => []
  | fuel + 1, a, bs => if bs.isEmpty then [] else
    let k := firstPart a bs.length
    (a, bs.take k) :: cutBytes fuel (a + k) (bs.drop k)

/-- Write what a move command has read: to pens and peer panels in packets whose answers it awaits, elsewhere at once. -/
def State.moveWrite (s : State) (q : QueueRef) (dst : Nat) (bs : List Byte) (poison pen : Bool) : State :=
  if pen || inPeer dst then
    let parts := cutBytes (packets bs.length) dst bs
    let p := s.cmdPurpose q
    let s := s.modCur q fun c => { c with left := c.left + parts.length }
    parts.foldl (fun s x => s.sendBytes q.node q.blk (s.queueTag q) x.1 x.2 poison pen p) s
  else
    let (st, s) := s.putBytes (s.engine q) dst bs poison
    s.condition q st

/-- A part of a move command: read, and written to its destinations; with none it is kept for MVE_DIGEST. A part in a peer's memory is asked for. -/
def State.movePart (s : State) (q : QueueRef) (dsts : List Nat) (pen : Bool) (src n : Nat) : State :=
  if inPeer src then
    (s.modCur q fun c => { c with left := c.left + 1 }).request q.node
      { op := .readReq, cls := 2, srcUnit := q.blk, jobTag := s.queueTag q, addr := src, oparg0 := n } (.copy q (s.queue q).records src dsts pen)
  else
    let (st, bs, s) := s.get (s.engine q) src n
    let s := (s.modCur q fun c => { c with got := if dsts.isEmpty then Sparse.set c.got src bs else c.got }).condition q st
    if st = .done ∨ st = .poisoned then dsts.foldl (fun s d => s.moveWrite q d bs (st == .poisoned) pen) s else s

/-- A peer's answer to such a part (R7, R230). -/
def State.moveAnswer (s : State) (q : QueueRef) (cmd src : Nat) (dsts : List Nat) (pen : Bool) (st : Status) (bs : List Byte) : State :=
  match (s.queue q).cur with
  | some c =>
    if (s.queue q).records ≠ cmd ∨ c.status.isSome ∨ c.wait ≠ .packets then s
    else
      let s := s.modCur q fun c => { c with got := if dsts.isEmpty then Sparse.set c.got src bs else c.got }
      let s := if st = .done ∨ st = .poisoned then dsts.foldl (fun s d => s.moveWrite q d bs (st == .poisoned) pen) s else s
      s.packetDone q cmd st
  | none => s

/-- A move command over parts (source, length, destinations), some of them in a peer's memory. It ends with the last answer. -/
def State.moveParts (s : State) (q : QueueRef) (pen : Bool) (parts : List (Nat × Nat × List Nat)) : State :=
  let cmd := (s.queue q).records
  let s := s.modCur q fun c => { c with wait := .packets, left := 1 }
  (parts.foldl (fun s x => s.movePart q x.2.2 pen x.1 x.2.1) s).packetDone q cmd .done

/-- Put bytes into pens at an offset (R205): one PEN_PUT for each packet and pen. -/
def State.putPens (s : State) (q : QueueRef) (bases : List Nat) (off : Nat) (bs : List Byte) (poison : Bool) : State :=
  let parts := bases.flatMap fun b => cutBytes (packets bs.length) (b + off) bs
  let p := s.cmdPurpose q
  let s := s.awaitPackets q parts.length
  parts.foldl (fun s x => s.sendBytes q.node q.blk (s.queueTag q) x.1 x.2 poison true p) s

/-- The handles are held by the block, revoked ones among them (R227). -/
def State.handlesHeld (s : State) (q : QueueRef) (hs : List Nat) : Bool :=
  hs.all fun h => match s.handle? q.node q.blk h with | some e => e.granted | none => false

/-- Read a source as the queue's engine, and put it into the pens of handles. A revoked pen ends the command (R208). -/
def State.runPut (s : State) (q : QueueRef) (hs : List Nat) (src off n : Nat) : State :=
  let es := hs.filterMap fun h => s.handle? q.node q.blk h
  match es.find? (·.revoked) with
  | some e => s.endCmd q e.cause
  | none =>
    if inPeer src then
      let parts := (accessParts (packets n) src n).map fun (a, k) => (a, k, es.map fun e => e.base + off + (a - src))
      (s.modCur q fun c => { c with bytesIn := n, bytesOut := n * hs.length }).moveParts q true parts
    else
    let (st, bs, s) := s.get (s.engine q) src n
    if st = .done ∨ st = .poisoned then
      let s := (s.modCur q fun c => { c with bytesIn := n, bytesOut := n * hs.length }).condition q st
      s.putPens q (es.map (·.base)) off bs (st == .poisoned)
    else s.endCmd q st

/-- MVE_PEN_PUT (R205, R208, R225). -/
def execMvePenPut (q : QueueRef) (s : State) : Out :=
  s.startHead q [0x32] (fun s d => s.handlesHeld q [bits d 128 6]) fun s d =>
    s.runPut q [bits d 128 6] (bits d 160 48) (bits d 208 24) (bits d 232 24)

/-- The members of a mask, ascending. -/
def membersOf (m : Nat) : List Nat := setBits 12 m

/-- MVE_BCAST (R225, R227). -/
def execMveBcast (q : QueueRef) (s : State) : Out :=
  s.startHead q [0x34] (fun s d => (bcastHandles d).all (· < 64) && bits d 136 12 / 2 ^ s.lcols == 0 && s.handlesHeld q (bcastHandles d))
    fun s d => s.runPut q (bcastHandles d) (bits d 160 48) (bits d 208 24) (bits d 232 24)

/-- The handle is in use: held, requested, or waiting for a holder entry (R225). -/
def State.handleBusy (s : State) (node blk h : Nat) : Bool :=
  let u := s.holderUnit node blk
  u.holders.any (fun e => e.handle == some h) || u.waiting.any (fun w => w.handle == some h)

/-- The work of MVE_PEN_REQ: its request goes out, and its queue waits for the answer (R202, R225). -/
def State.runPenReq (s : State) (q : QueueRef) (d : Nat) : State :=
  let p : Packet := { op := .penReq, cls := 2, srcUnit := q.blk, jobTag := s.queueTag q, prio := bits d 185 2, addr := bits d 128 48, oparg0 := bits d 176 9 }
  (s.modCur q fun c => { c with wait := .grant }).penAsk q.node p (.penQueue q) (some (bits d 192 6))

/-- MVE_PEN_REQ (R202, R225, R227). -/
def execMvePenReq (q : QueueRef) (s : State) : Out :=
  s.startHead q [0x31] (fun s d => bits d 176 9 != 0 && bits d 185 2 != 3 && !s.handleBusy q.node q.blk (bits d 192 6)) fun s d => s.runPenReq q d

/-- The block's MVE_PEN_REQ in flight that waits for a grant. -/
def State.grantCmd (s : State) (q : QueueRef) : Option InFlight :=
  match (s.queue q).cur with
  | some c => if c.status.isNone && c.wait == .grant then some c else none
  | none => none

/-- Set PRED_OUT of an MVE_PEN_REQ. -/
def State.predOut (s : State) (q : QueueRef) (d : Nat) (v : Bool) : State :=
  if bit d 204 then s.setPred q.node q.blk (bits d 200 4) v else s

/-- A pen request of a queue ends without a grant (R202-R204, R225): its handle is free again. -/
def State.penRefused (s : State) (q : QueueRef) (st : Status) : State :=
  match s.grantCmd q with
  | some c =>
    let s := if st = .penFull then s.predOut q c.desc false else s
    s.endCmd q st
  | none => s

/-- A grant reaches the requesting queue (R204, R225): the base address is stored at BASE_OUT, PRED_OUT set; DETAIL is
the base counted in pool units from the start of the pool of the granting block of `node` (R237, log entry 60). -/
def State.penGranted (s : State) (q : QueueRef) (st : Status) (node base : Nat) : State :=
  match s.grantCmd q with
  | some c =>
    let s := (s.predOut q c.desc true).modCur q fun x => { x with
      detail := base % 0x4000000 / 4096 + s.fld F.blkPenCfg_poolUnits node (base / 0x4000000 % 4) - 1536 }
    if bit c.desc 228 then
      let off := 8 * bits c.desc 208 20
      if inAS off && s.mayWriteAS (s.engine q) q.node q.blk off 8 then (s.writeBlk q.node q.blk off (allOn (leBytes 8 base))).endCmd q st
      else s.endCmd q .accessFault
    else s.endCmd q st
  | none => s

/-- The work of MVE_PEN_RELEASE: a revoked pen's handle is freed at once, a held one's once the target has answered (R206, R208). -/
def State.runPenRelease (s : State) (q : QueueRef) (d : Nat) : State :=
  let h := bits d 128 6
  match s.handle? q.node q.blk h with
  | some e =>
    if e.revoked then (s.dropHolder q.node q.blk fun x => x.handle == some h).endCmd q .done
    else (s.modCur q fun c => { c with wait := .release }).sendRelease q.node e.unit e.tag e.base (.penRelease q)
  | none => s.endCmd q .accessFault

/-- MVE_PEN_RELEASE (R206, R208, R211, R225): a revoked pen's entry frees without a packet. -/
def execMvePenRelease (q : QueueRef) (s : State) : Out :=
  s.startHead q [0x33] (fun s d => s.handlesHeld q [bits d 128 6]) fun s d => s.runPenRelease q d

/-- The answer to a queue's PEN_RELEASE: once the release is applied the entry frees (R206, R211). -/
def State.penReleased (s : State) (q : QueueRef) (st : Status) : State :=
  match (s.queue q).cur with
  | some c =>
    if c.status.isSome ∨ c.wait ≠ .release then s
    else
      let h := bits c.desc 128 6
      let s := if st = .done then s.dropHolder q.node q.blk fun x => x.handle == some h else s
      s.endCmd q st
  | none => s

/-- HOLDER_WAIT_EXPIRY (R202): a request that waits for a holder-table entry reaches its limit and completes PEN_FULL unsent. The request is
the oldest one of the requester. -/
def execHolderWaitExpiry (node unit : Nat) (s : State) : Out :=
  need ((isRegion node && decide (unit < 4)) || isHub node) .noSuch <|
  let u := s.holderUnit node unit
  match u.waiting with
  | [] => .refused .wrongState
  | w :: rest =>
    let lim := if isHub node then 2000 * ns else max 1 (s.fld F.blkPenCfg_waitNs node unit) * ns
    need (decide (w.since + lim ≤ s.now)) .notDue <|
    let s := s.updHolders node unit { u with waiting := rest }
    let s := if isHub node then s else s.bump F.blkPenCount_holderWaits node unit 0
    .next (match w.purpose with | .penQueue q => s.penRefused q .penFull | _ => s)

/-- REVOKE_NOTICE (R208-R209, R211): the holder marks its entry revoked; its commands in flight that use the pen complete with the notice's status.
A notice for a pen already released is dropped. -/
def execRevokeNotice (p : Packet) (s : State) : Out :=
  need (p.op == .completion && decide (p.dest < 182) && (p.status == 4 || p.status == 5) && p.oparg0 != 0) .noSuch <|
  need (!s.ahead p) .notDue <|
  match s.arrive p.dest p with
  | (none, s) => .next s
  | (some p, s) =>
    if isEdge p.dest then .next (s.penProxyRevoked p) else
    let u := s.holderUnit p.dest p.srcUnit
    let st : Status := if p.status = 5 then .targetRetired else .targetResetting
    let hit := fun (e : Holder) => e.granted && !e.revoked && e.base == p.oparg0
    match u.holders.find? hit with
    | none => .next s
    | some e =>
      let s := s.updHolders p.dest p.srcUnit { u with holders := u.holders.map fun x => if hit x then { x with revoked := true, cause := st } else x }
      let uses := fun (q : QueueRef) => match (s.queue q).cur, e.handle with
        | some c, some h => c.status.isNone && (c.wait == .packets || dOpcode c.desc == 0x35) && (match dOpcode c.desc with
          | 0x32 => bits c.desc 128 6 == h | 0x34 => (bcastHandles c.desc).contains h
          | 0x41 => decide (bits c.desc 140 6 ≤ h) && decide (h < bits c.desc 140 6 + 12)
          | 0x35 => decide (e.base ≤ bits c.desc 232 48) && decide (bits c.desc 232 48 < e.base + e.units * 4096) | _ => false)
        | _, _ => false
      .next ((if isRegion p.dest then (unitQueues p.dest (p.srcUnit % 4)).filter uses else []).foldl (fun s q => s.endCmd q st) s)

/-- Copy one row packet by packet, each judged on its own (R36): the status and the bytes moved. -/
def State.copyRow (s : State) (r : Requester) : Nat → Nat → Nat → Nat → Status × State
  | 0, _, _, _ => (.done, s)
  | fuel + 1, a, b, n =>
    if n = 0 then (.done, s) else
    let k := firstPart a n
    let (x, bs, s) := s.get r a k
    let (x, s) := if x = .done ∨ x = .poisoned then
        let (y, s) := s.putBytes r b bs (x == .poisoned)
        (x.first y, s)
      else (x, s)
    let (y, s) := s.copyRow r fuel (a + k) (b + k) (n - k)
    (x.first y, s)

/-- The work of MVE_COPY (R229-R230). -/
def State.runCopy (s : State) (q : QueueRef) (d : Nat) : State :=
  let n := bits d 224 24
  if (copyRows d).any fun r => inPeer r.1 || inPeer r.2 then
    (s.modCur q fun c => { c with bytesIn := n * bits d 248 16, bytesOut := n * bits d 248 16 }).moveParts q false
      ((copyRows d).flatMap fun r => (accessParts (packets n) r.1 n).map fun (a, k) => (a, k, [r.2 + (a - r.1)]))
  else
  let one := fun (x : Status × State) (r : Nat × Nat) =>
    let (st, s) := x.2.copyRow (s.engine q) (packets n) r.1 r.2 n
    (x.1.first st, s)
  let (st, s) := (copyRows d).foldl one (.done, s)
  let s := if st.leavesUndefined then s.undefineDest q d else s
  (s.modCur q fun c => { c with bytesIn := n * bits d 248 16, bytesOut := n * bits d 248 16 }).endCmd q st

/-- MVE_COPY (R6, R36, R225). -/
def execMveCopy (q : QueueRef) (s : State) : Out :=
  s.startHead q [0x30] (fun _ d => bits d 224 24 != 0 && bits d 248 16 != 0) fun s d => s.runCopy q d

/-- The work of MVE_DIGEST: its source is read packet by packet. -/
def State.runDigest (s : State) (q : QueueRef) (d : Nat) : State :=
  let src := bits d 128 48
  let n := bits d 176 32
  s.moveParts q false ((if inPeer src then accessParts (packets n) src n else [(src, n)]).map fun (a, k) => (a, k, []))

/-- MVE_DIGEST (R225, R240). -/
def execMveDigest (q : QueueRef) (s : State) : Out :=
  s.startHead q [0x36] (fun _ d => bits d 176 32 != 0 && bits d 224 48 % 8 == 0) fun s d => s.runDigest q d

/-- The words of row `j` of every bank of a block with a latent error: window offset, double. -/
def State.rowErrors (s : State) (node blk j : Nat) : List (Nat × Bool) :=
  let lo := blkKeyAt node blk 0
  (s.mem.latent.filter fun l => decide (lo ≤ l.1) && decide (l.1 < lo + 0x2200000) && (bankOf (l.1 - lo)).2.2 == j).map fun l => (l.1 - lo, l.2)

/-- SCRUB_SLOT (R192-R194): the slot's row of every bank is read; a double error, or a single one in three consecutive passes, remaps its row. -/
def execScrubSlot (node blk : Nat) (s : State) : Out :=
  need (isRegion node && decide (blk < 4)) .noSuch <|
  let b := s.block node blk
  need (s.works node blk) .wrongState <|
  need (decide (b.scrubStart + 30 * us * b.scrubSlot ≤ s.now)) .notDue <|
  let j := b.scrubSlot
  let one := fun (s : State) (e : Nat × Bool) =>
    let (st, bank, row) := bankOf e.1
    let n := bankNumber st bank
    let (_, _, s) := s.readBlk node blk e.1 8
    if e.2 then s
    else
      let b := s.block node blk
      let (p, c) := Sparse.get (0, 0) b.singles (n * 2048 + row)
      let c := if c != 0 && p == b.pass then c else if c != 0 && p + 1 == b.pass then c + 1 else 1
      let s := s.modBlock node blk fun b => { b with singles := Sparse.set b.singles (n * 2048 + row) (b.pass, c) }
      if 3 ≤ c then s.remapRow node blk n row else s
  let s := (s.rowErrors node blk j).foldl one s
  if j = 2047 then
    .next ((s.count F.blkSramErr_scrubPasses node blk 0).modBlock node blk fun b =>
      { b with scrubSlot := 0, pass := b.pass + 1, scrubStart := b.scrubStart + 2048 * 30 * us })
  else .next (s.modBlock node blk fun b => { b with scrubSlot := j + 1 })

end Sys2Proof.Machine
end

