-- ==== Sys2Proof/Machine/Drove.lean ====
section
/-!
DEFINITION. The drove engine (R244-R262, R270-R271, R282): streams, what they send and when, decisions, withdrawal; DVE_STREAM, DVE_STREAM_LINK,
DVE_COMMIT, DVE_CANCEL; BUF_FREE, DECISION_ACK, STREAM_STALL_TIMEOUT, LINK_READ_FAIL.
-/
namespace Sys2Proof.Machine

/-- The physical row of an edge die. -/
def edgeRow (node : Nat) : Nat := (node - 156) % 12

/-- The nodes of a MEMBERS mask in an edge die's row (R244, R68). -/
def State.rowMembers (s : State) (node mask : Nat) : List Nat :=
  (setBits 12 mask).map fun m => s.mapEntry node (s.fld F.rtrEpoch_injEpoch node) (s.lcols * edgeRow node + m)

/-- A multicast from an edge die reaches a node: it lies on the row, and no dead router and no bridge that is down lies between (R77, R81-R82). -/
def State.reaches (s : State) (node m : Nat) : Bool := s.onLine { op := .droveTile, cls := 3, src := node, mcDir := edgeSide node } m

/-- The stream header a 64-byte record spells (R244). -/
def headerOf (v tiles : Nat) : StreamHeader := ⟨bits v 0 4, bit v 4, bits v 8 8, bits v 16 12, bits v 32 16, tiles⟩

/-- A weight format of R86. -/
def weightFmt (f : Nat) : Bool := decide (f < 10)

/-- R244, R248: a header that may be sent. -/
def headerOk (v fmt tiles : Nat) : Bool :=
  let h := headerOf v tiles
  bits v 5 3 == 0 && bits v 28 4 == 0 && bits v 48 464 == 0 && h.fmt == fmt && recordUnits h.fmt h.sparse != 0 && h.units == recordUnits h.fmt h.sparse
    && h.outTiles != 0 && h.kSteps != 0 && tiles % (h.outTiles * h.kSteps) == 0 && h.spb != 0

/-- Bytes of a stream. -/
def streamBytes (tiles units : Nat) : Nat := 64 + 64 * tiles * units

/-- [a, a+n) lies in the stack range in the placement in force (R36, R244). -/
def State.inStacks (s : State) (a n : Nat) : Bool := decide (a + n ≤ 24 * (if s.paired then halfStack else stackSize))

/-- Change one stream of a drove engine: its own or a companion. -/
def Drove.modStream (d : Drove) (seq tag : Nat) (companion : Bool) (f : Stream → Stream) : Drove :=
  { d with streams := d.streams.map fun x => if x.seq = seq ∧ x.tag = tag ∧ x.companion = companion ∧ !x.gone then f x else x }

/-- Change a drove engine. -/
def State.modDrove (s : State) (node : Nat) (f : Drove → Drove) : State := s.setDrove node (f (s.drove node))

/-- Drop a stream that is not a cancelled one's place. -/
def Drove.dropStream (d : Drove) (seq tag : Nat) (companion : Bool) : Drove :=
  { d with streams := d.streams.filter fun x => !(x.seq == seq && x.tag == tag && x.companion == companion && !x.gone) }

/-- Enter a stream: a replacement takes the place of the stream it replaces (R262). -/
def Drove.enter (d : Drove) (x : Stream) : Drove :=
  match d.streams.find? fun y => y.gone && y.seq == x.seq && y.tag == x.tag && y.companion == x.companion with
  | some y => { d with streams := d.streams.filter (· != y) ++ [{ x with place := y.place, replaces := true }] }
  | none => { d with streams := d.streams ++ [{ x with place := d.places }], places := d.places + 1 }

/-- A buffer's number for a member (R250). -/
def busyKey (node side buf : Nat) : Nat := node * 4 + side * 2 + buf

/-- OPARG0 of a drove packet (R253). -/
def Stream.word (x : Stream) (header : Bool) (line buf : Nat) : Nat :=
  packFields [(0, 16, x.seq), (16, 1, x.side), (17, 1, b2n x.provisional), (18, 1, b2n header), (19, 1, b2n x.companion), (20, 19, line), (39, 1, buf)]

/-- A drove packet goes to every member as a row multicast (R76, R253); a member that is not ACTIVE discards its copy. OPARG1: TILES with the
header, else which of a line's units it carries (log entry 11). -/
def State.droveSend (s : State) (node : Nat) (x : Stream) (oparg0 oparg1 off len : Nat) (payload : List Byte) (poison : Bool) : State :=
  let first := s.lnum (x.members.headD 0)
  let p : Packet := { op := .droveTile, cls := 3, len := len, mcast := true, poison := poison, jobTag := x.tag, src := node, mcDir := edgeSide node,
                      epoch := s.fld F.rtrEpoch_injEpoch node, injTime := s.timeAt node,
                      addr := 0x100000000000 + first * 0x10000000 + off, oparg0 := oparg0, oparg1 := oparg1, payload := payload }
  s.multicast p x.members

/-- Bytes of staged link data from a stream offset (R255), poisoned or not; fewer where they have not come. -/
def Stream.take (x : Stream) : Nat → Nat → Nat → List Byte × Bool
  | 0, _, _ => ([], false)
  | fuel + 1, a, n =>
    if n = 0 then ([], false) else
    match List.find? (fun (e : Nat × List Byte × Bool) => decide (e.1 ≤ a) && decide (a < e.1 + e.2.1.length)) x.staged with
    | none => ([], false)
    | some (o, bs, p) =>
      let part := (bs.drop (a - o)).take n
      let (rest, q) := x.take fuel (a + part.length) (n - part.length)
      (part ++ rest, p || q)

/-- Read bytes of a stream: from memory, or from the staging buffer. -/
def State.streamRead (s : State) (node : Nat) (x : Stream) (a n : Nat) : Status × List Byte × State :=
  match x.link with
  | none => s.get ⟨node, 0, x.tag⟩ (x.src + a) n
  | some _ =>
    let (bs, p) := x.take (n + 1) a n
    (if p then .poisoned else .done, bs, s)

/-- Record `i` of the stream is present (R282). -/
def Stream.present (x : Stream) (i : Nat) : Bool := x.tskip == 0 || bit (x.skip.getD (i / 8) 0).toNat (i % 8)

/-- Which of the eight units of line `i` of fill `f` are sent. -/
def Stream.unitMask (x : Stream) (h : StreamHeader) (f i : Nat) : Nat :=
  ofBits ((List.range 8).filter fun u => decide (8 * i + u < h.fillUnits f) && x.present (f * h.spb * h.outTiles + (8 * i + u) / h.units))

/-- Lines of a full buffer. -/
def StreamHeader.fillLines (h : StreamHeader) : Nat := (h.spb * h.outTiles * h.units + 7) / 8

/-- Send one line; nothing of a line whose records are all absent. The status of the read, lines sent. -/
def State.sendLine (s : State) (node : Nat) (x : Stream) (h : StreamHeader) (i : Nat) : Status × Nat × State :=
  let f := x.fill
  let m := x.unitMask h f i
  if m = 0 then (.done, 0, s) else
  let n := 64 * min 8 (h.fillUnits f - 8 * i)
  let (st, bs, s) := s.streamRead node x (64 + 64 * (f * h.spb * h.outTiles * h.units + 8 * i)) n
  if st = .done ∨ st = .poisoned then
    let s := s.droveSend node x (x.word false (f * h.fillLines + i) (f % 2)) m (0x2000000 + x.side * 0x100000 + f % 2 * 0x80000 + 512 * i) 8
      (bs ++ List.replicate (512 - bs.length) 0) (st == .poisoned)
    (st, 1, s)
  else (st, 0, s)

/-- Send the lines of a fill up to the first read that fails: worst status so far, lines sent. -/
def State.sendLines (s : State) (node : Nat) (x : Stream) (h : StreamHeader) : List Nat → Status × Nat × State
  | [] => (.done, 0, s)
  | i :: rest =>
    let (a, n, s) := s.sendLine node x h i
    if a ≠ .done ∧ a ≠ .poisoned then (a, n, s) else
    let (b, k, s) := s.sendLines node x h rest
    (if b = .done then a else b, n + k, s)

/-- A stream fails: its command ends with the status; where that has completed, or for a stream of DVE_EXPERTS or a companion, that command or the
job ends. Buffers that hold part of it may be undefined (R6). -/
def State.failStream (s : State) (node : Nat) (x : Stream) (st : Status) : State :=
  let s := if st.leavesUndefined then s.undefineFeeds x.members x.side x.tag x.seq else s
  let s := s.modDrove node fun d => d.dropStream x.seq x.tag x.companion
  match x.q, (s.drove node).experts with
  | some q, _ => s.endCmd q st
  | none, some e => if x.expert.isSome && e.tag == x.tag then (s.modDrove node fun d => { d with experts := none }).endCmd e.q st else s.abortJob x.tag st
  | none, none => s.abortJob x.tag st

/-- The last line is sent: the command completes; the stream stays while its decision is open (R230, R258). -/
def State.streamSent (s : State) (node : Nat) (x : Stream) : State :=
  let open' := x.provisional && x.decision.isNone
  let s := s.modDrove node fun d =>
    if open' then d.modStream x.seq x.tag x.companion fun y => { y with done := true, q := none } else d.dropStream x.seq x.tag x.companion
  match x.q with
  | some q => s.endCmd q .done
  | none => s

/-- A stream may send: it is whole, no cancelled stream of its half waits for a replacement before it, and no cancel of its sequence or an earlier
one is still unacknowledged (R261-R262). -/
def Drove.maySend (d : Drove) (x : Stream) : Bool :=
  !x.done && !x.gone && x.header.isSome
    && !(d.streams.any fun y => y.gone && y.side == x.side && decide (y.place < x.place))
    && !(d.deciding.any fun y => y.cancel && y.tag == x.tag && (y.seq == x.seq || d.streams.any fun z => z.seq == y.seq && z.tag == y.tag &&
      z.side == x.side && decide (z.place < x.place)))

/-- The members that have not freed the stream's next buffer (R250). -/
def Drove.holders (d : Drove) (x : Stream) : List Nat := x.members.filter fun m => (Sparse.find? d.busy (busyKey m x.side (x.fill % 2))).isSome

/-- The data of the next fill has come (R255). -/
def Stream.fetched (x : Stream) (h : StreamHeader) : Bool :=
  match x.link with
  | none => true
  | some _ =>
    let n := 64 * h.fillUnits x.fill
    decide ((x.take (n + 1) (64 + 64 * (x.fill * h.spb * h.outTiles * h.units)) n).1.length = n)

/-- The command whose tally counts a stream's reads (R252, R530): a companion's are those of the stream it carries on. -/
def State.tallyQueue (s : State) (node : Nat) (x : Stream) : Option QueueRef :=
  if x.companion then ((s.drove (farEnd node)).streams.find? fun y => y.seq == x.seq && y.tag == x.tag && !y.companion && !y.gone).bind (·.q) else x.q

/-- Bytes a stream has read, own-stack and far reads alike, and lines it has sent, each counted once (R252, R530). -/
def State.tallyStream (s : State) (node : Nat) (x : Stream) (read lines : Nat) : State :=
  match s.tallyQueue node x with
  | some q => s.modCur q fun c => { c with bytesIn := c.bytesIn + read, bytesOut := c.bytesOut + if x.companion then 0 else 512 * lines }
  | none => s

/-- One move of a stream: the header packet, a fill, or the end. -/
def State.streamMove (s : State) (node : Nat) (x : Stream) : Option State :=
  let d := s.drove node
  if !d.maySend x then none else
  match x.header with
  | none => none
  | some h =>
    if !x.begun then
      let (st, bs, s) := s.streamRead node x 0 64
      if st ≠ .done then some (s.failStream node x st) else
      let s := (s.tallyStream node x 64 0).droveSend node x (x.word true 0 0) x.tiles 0x2000000 1 bs false
      some (s.modDrove node fun d => d.modStream x.seq x.tag x.companion fun y => { y with begun := true, lastLine := s.now })
    else if h.fills ≤ x.fill then some (s.streamSent node x)
    else if !x.fetched h then none
    else if !(d.holders x).isEmpty then none
    else
      let (st, n, s) := s.sendLines node x h (List.range ((h.fillUnits x.fill + 7) / 8))
      if st ≠ .done ∧ st ≠ .poisoned then some (s.failStream node x st) else
      let s := if x.tskip = 0 then s else
        s.droveSend node x (x.word false (x.fill * h.fillLines + (h.fillUnits x.fill + 7) / 8) (x.fill % 2)) 0
          (0x2000000 + x.side * 0x100000 + x.fill % 2 * 0x80000) 0 [] false
      let s := s.modDrove node fun d =>
        { d.modStream x.seq x.tag x.companion fun y => { y with fill := y.fill + 1, lines := y.lines + n, waiting := false, lastLine := s.now } with
          busy := x.members.foldl (fun b m => Sparse.set b (busyKey m x.side (x.fill % 2)) (x.tag, x.seq)) d.busy, turn := !(x.companion || x.side != edgeSide node) }
      let s := s.tallyStream node x (512 * n) n
      some (match x.q with | some q => s.condition q st | none => s)

/-- A move of the engine: of the class whose turn it is, or of the other. -/
def State.droveMove (s : State) (node : Nat) : Option State :=
  let d := s.drove node
  let try' := fun (other : Bool) => (d.current (edgeSide node) other).bind fun x => s.streamMove node x
  match try' d.turn with
  | some s => some s
  | none => try' (!d.turn)

/-- Moves that can follow one another. -/
def State.droveMoves (s : State) (node : Nat) : Nat → State
  | 0 => s
  | fuel + 1 => match s.droveMove node with
    | some s => s.droveMoves node fuel
    | none => s

/-- Streams that now wait for a buffer are so counted (R251, R256, R274). -/
def State.noteWaits (s : State) (node : Nat) : State :=
  [false, true].foldl (fun s other =>
    let d := s.drove node
    match d.current (edgeSide node) other with
    | none => s
    | some x => if d.maySend x && x.begun && !x.waiting && !(d.holders x).isEmpty then
        (s.modDrove node fun d => d.modStream x.seq x.tag x.companion fun y => { y with waiting := true }).bump F.drvPace_bufWaits node 0 0
      else s) s

/-- Ask for the stream data that the staging buffer of 1 MiB has room for (R255). -/
def State.linkAsk (s : State) (node seq tag : Nat) : Nat → State
  | 0 => s
  | fuel + 1 =>
    match (s.drove node).streams.find? fun x => x.seq == seq && x.tag == tag && !x.gone && x.link.isSome with
    | none => s
    | some x =>
      let total := match x.header with | some h => streamBytes x.tiles h.units | none => 64
      let used := match x.header with | some h => 64 + 64 * (x.fill * h.spb * h.outTiles * h.units) | none => 0
      let k := min (firstPart (x.src + x.asked) 512) (total - x.asked)
      if x.done || decide (total ≤ x.asked) || decide (used + 0x100000 < x.asked + k) then s else
      let (t, s) := s.freshTxn
      let p : Packet := { op := .readReq, cls := 2, src := node, jobTag := tag, txn := t, addr := x.src + x.asked, oparg0 := k,
                          epoch := s.fld F.rtrEpoch_injEpoch node, injTime := s.timeAt node }
      let (panel, bundle) := x.link.getD (0xFFF, 7)
      let s := { s with outstanding := s.outstanding ++ [Request.mk node t (.drove seq tag x.asked) .readReq node 0 tag p.addr s.now] }
      let s := s.modDrove node fun d => d.modStream seq tag x.companion fun y => { y with asked := y.asked + k }
      let lp : LinkPacket := ⟨p, panel, s.panelId, 0⟩
      (if bundle = 7 then s.linkSend node lp false else s.queueOn node bundle (.data 2 [lp])).linkAsk node seq tag fuel

/-- The engine goes on as far as it can (R250-R251). -/
def State.droveRun (s : State) (node : Nat) : State :=
  if !s.goesOn node (pageOf .drv node 0) then s else
  let n := (s.drove node).streams.foldl (fun a x => a + x.tiles + 4) 4
  let s := ((s.droveMoves node n).noteWaits node).showDrove node
  ((s.drove node).streams.filter fun x => x.link.isSome).foldl (fun s x => s.linkAsk node x.seq x.tag 2100) s

/-- The members of a stream an end feeds, and those only the other end reaches (R270). -/
def State.splitMembers (s : State) (node mask : Nat) : List Nat × List Nat :=
  let ms := s.rowMembers node mask
  (ms.filter (s.reaches node), ms.filter fun m => !s.reaches node m && s.reaches (farEnd node) m)

/-- A stream starts at its engine, with a companion at the other end where the row is split (R262, R270). -/
def State.enterStream (s : State) (node mask : Nat) (x : Stream) : State :=
  let (mine, far) := s.splitMembers node mask
  let s := s.modDrove node fun d => d.enter { x with members := mine }
  if far.isEmpty then s else
  (s.modDrove (farEnd node) fun d => d.enter { x with members := far, q := none, companion := true }).droveRun (farEnd node)

/-- Read the tile-skip bitmap (R282), a control read (R557). -/
def State.readSkip (s : State) (node tag tskip tiles : Nat) : Status × List Byte × State :=
  if tskip = 0 then (.done, [], s) else s.get ⟨node, 0, tag⟩ tskip ((tiles + 7) / 8)

/-- A stream from the stacks with its header checked (R244): the stream, or the status that refuses it and whether the list stops. -/
def State.openStream (s : State) (node tag src tiles fmt tskip : Nat) : Except (Status × Bool) (StreamHeader × List Byte) × State :=
  if !s.inStacks src 64 then (.error (.accessFault, false), s) else
  let (st, bs, s) := s.get ⟨node, 0, tag⟩ src 64
  if st ≠ .done then (.error (st, false), s) else
  let v := leNat bs
  let h := headerOf v tiles
  if !headerOk v fmt tiles || !s.inStacks src (streamBytes tiles h.units) then (.error (.accessFault, false), s) else
  let (sk, skip, s) := s.readSkip node tag tskip tiles
  if sk ≠ .done then (.error (sk, true), s) else (.ok (h, skip), s)

/-- R227: MEMBERS names logical columns of the geometry. -/
def State.membersOk (s : State) (m : Nat) : Bool := m / 2 ^ s.lcols == 0

/-- The work of DVE_STREAM: its header and mask are read, and the stream joins the drove (R246, R251-R253). -/
def State.runStream (s : State) (q : QueueRef) (d : Nat) : State :=
  let node := s.servedBy q.node
  let tag := s.queueTag q
  match s.openStream node tag (bits d 128 48) (bits d 176 16) (bits d 192 4) (bits d 232 48) with
  | (.error (st, stops), s) => if stops then s.stopCmd q st else s.endCmd q st
  | (.ok (h, skip), s) =>
    let x : Stream := { place := 0, seq := bits d 216 16, tag := tag, q := some q, src := bits d 128 48, tiles := bits d 176 16, fmt := bits d 192 4,
                        tskip := bits d 232 48, members := [], side := edgeSide q.node, prov := dProvisional d, header := some h, skip := skip, lastLine := s.now }
    ((s.modCur q fun c => { c with wait := .stream }).enterStream node (bits d 200 12) x).droveRun node

/-- DVE_STREAM (R244, R252, R258). -/
def execDveStream (q : QueueRef) (s : State) : Out :=
  s.startHead q [0x60] (fun s d => bits d 176 16 != 0 && weightFmt (bits d 192 4) && s.membersOk (bits d 200 12)) fun s d => s.runStream q d

/-- The work of DVE_STREAM_LINK (R246, R255). -/
def State.runStreamLink (s : State) (q : QueueRef) (d : Nat) : State :=
  let node := s.servedBy q.node
  let tag := s.queueTag q
  let (sk, skip, s) := s.readSkip node tag (bits d 240 48) (bits d 192 16)
  if sk ≠ .done then s.stopCmd q sk else
  let x : Stream := { place := 0, seq := bits d 224 16, tag := tag, q := some q, src := bits d 144 48, link := some (bits d 128 12, bits d 140 3),
                      tiles := bits d 192 16, fmt := bits d 208 4, tskip := bits d 240 48, members := [], side := edgeSide q.node,
                      prov := dProvisional d, skip := skip, lastLine := s.now }
  ((s.modCur q fun c => { c with wait := .stream }).enterStream node (bits d 212 12) x).droveRun node

/-- DVE_STREAM_LINK (R255): the stream comes over a bundle; its header is checked when it arrives. -/
def execDveStreamLink (q : QueueRef) (s : State) : Out :=
  s.startHead q [0x61] (fun s d => bits d 192 16 != 0 && weightFmt (bits d 208 4) && s.membersOk (bits d 212 12) && bits d 140 3 != 5 && bits d 140 3 != 6)
    fun s d => s.runStreamLink q d

/-- Data of a link read has come (R255): the first 64 bytes are the header. -/
def State.droveData (s : State) (node seq tag off : Nat) (bs : List Byte) (poison : Bool) : State :=
  match (s.drove node).streams.find? fun x => x.seq == seq && x.tag == tag && !x.gone && x.link.isSome with
  | none => s
  | some x =>
    let x' := { x with staged := Sparse.set x.staged off (bs, poison) }
    let (head, bad) := x'.take 65 0 64
    if x.header.isNone && head.length == 64 then
      if bad then s.failStream node x .poisoned
      else if !headerOk (leNat head) x.fmt x.tiles then s.failStream node x .accessFault
      else (s.modDrove node fun d => d.modStream seq tag x.companion fun _ => { x' with header := some (headerOf (leNat head) x.tiles) }).droveRun node
    else (s.modDrove node fun d => d.modStream seq tag x.companion fun _ => x').droveRun node

/-- A link read of a stream has failed (R255): the stream stops with the status; buffers that hold part of it are undefined (R6). -/
def State.linkReadFailed (s : State) (node seq tag : Nat) (st : Status) : State :=
  match (s.drove node).streams.find? fun x => x.seq == seq && x.tag == tag && !x.gone && x.link.isSome with
  | none => s
  | some x => (s.failStream node x st).droveRun node

/-- LINK_READ_FAIL (R255): a link read of a stream is answered with a failing status. -/
def execLinkReadFail (p : Packet) (s : State) : Out :=
  need (p.op == .completion && isEdge p.dest && p.status != 0 && p.status != 1) .noSuch <|
  need (!s.ahead p) .notDue <|
  match s.arrive p.dest p with
  | (none, s) => .next s
  | (some p, s) =>
    match s.takeRequest p.dest p.srcUnit p.txn with
    | (some r, s') => match r.purpose with
      | .drove seq tag _ => .next (s'.linkReadFailed p.dest seq tag ((Status.ofCode p.status).getD .timeout))
      | _ => .refused .wrongState
    | (none, _) => .refused .noSuch

/-- BUF_FREE (R250, R256, R274): a member has freed a buffer; the engine goes on once every member has. -/
def execBufFree (p : Packet) (s : State) : Out :=
  need (p.op == .control && isEdge p.dest && p.oparg1 == Notice.bufFree.code) .noSuch <|
  need (!s.ahead p) .notDue <|
  match s.arrive p.dest p with
  | (none, s) => .next s
  | (some p, s) =>
    let side := bits p.oparg0 16 1
    let awaited := (s.drove p.dest).streams.any fun x => x.waiting && x.side == side && x.fill % 2 == bits p.oparg0 17 1 && x.members.contains p.src
    let s := if awaited then s.put F.drvPace_slowNode p.dest 0 0 p.src else s
    .next ((s.modDrove p.dest fun d => { d with busy := Sparse.del d.busy (busyKey p.src side (bits p.oparg0 17 1)) }).droveRun p.dest)

/-- STREAM_STALL_TIMEOUT (R251): a stream that sends no line for STALL_LIMIT because a buffer is not freed completes TIMEOUT. -/
def execStreamStallTimeout (node seq : Nat) (s : State) : Out :=
  need (isEdge node) .noSuch <|
  let d := s.drove node
  match d.streams.find? fun x => x.seq == seq && x.waiting && !x.gone with
  | none => .refused .wrongState
  | some x =>
    need (decide (x.lastLine + max 1 (s.fld F.drvCfg_stallLimit node) * 10 * us ≤ s.now)) .notDue <|
    let s := s.put F.drvPace_slowNode node 0 0 ((d.holders x).headD 0xFF)
    .next (((s.failStream node x .timeout).showDrove node).droveRun node)

/-- The copies of a stream: its own and its companion at the other end. -/
def State.copies (s : State) (node seq tag : Nat) : List (Nat × Stream) :=
  [(node, false), (farEnd node, true)].flatMap fun (n, c) =>
    ((s.drove n).streams.filter fun x => x.seq == seq && x.tag == tag && !x.gone && x.companion == c).map fun x => (n, x)

/-- Every member of a stream, whichever end feeds it. -/
def State.allMembers (s : State) (node seq tag : Nat) : List Nat := (s.copies node seq tag).flatMap fun c => c.2.members

/-- Send a commit or cancel notice to members and await their acknowledgements (R260-R261). The mark of a member says, for a cancel, that nothing of the
stream has been sent to it; for a commit, that the decision is empty (R302; log entries 11 and 54). -/
def State.decide' (s : State) (node seq tag side : Nat) (kind : Decision) (members : List (Nat × Bool)) (q : Option QueueRef) : State :=
  let n : Notice := if kind = .cancel then .cancel else .commit
  let s := s.modDrove node fun d => { d with deciding := d.deciding ++ [⟨seq, tag, kind == .cancel, members.map (·.1), q⟩] }
  members.foldl (fun s m => s.notice node m.1 tag n seq side (b2n m.2)) s

/-- Commit a stream (R260): its later lines are no longer provisional; once sent it is over. -/
def State.commitStream (s : State) (node seq tag side : Nat) (q : Option QueueRef) : State :=
  let ms := s.allMembers node seq tag
  let s := (s.copies node seq tag).foldl (fun s c => s.modDrove c.1 fun d =>
    if c.2.done then d.dropStream seq tag c.2.companion else d.modStream seq tag c.2.companion fun y => { y with decision := some .commit }) s
  (s.showDrove node).decide' node seq tag side .commit (ms.map fun m => (m, false)) q

/-- Count the bytes of a cancelled or withdrawn stream (R261-R262, R273, R530). -/
def State.countCancelled (s : State) (node : Nat) (x : Stream) (q : Option QueueRef) : State :=
  let s := s.bump F.drvStat_cancelledKib node 0 0 (x.lines * 512 / 1024)
  match q with
  | some q => s.modCur q fun c => { c with cancelled := c.cancelled + 512 * x.lines }
  | none => s

/-- Later provisional streams of the half, of whatever job, that have sent any line are withdrawn, to be sent again (R262). -/
def State.withdraw (s : State) (node : Nat) (x : Stream) (q : Option QueueRef) : State :=
  let hit := fun (y : Stream) => y.lines != 0 && y.provisional && !y.gone && y.side == x.side && decide (x.place < y.place)
  let s := ((s.drove node).streams.filter hit).foldl (fun s y => s.countCancelled node y (if y.q.isSome then y.q else q)) s
  s.modDrove node fun d => { d with streams := d.streams.map fun y => if hit y then
    { y with begun := false, fill := 0, lines := 0, done := false, waiting := false, asked := 0, staged := [], lastLine := s.now,
             header := if y.link.isSome then none else y.header } else y }

/-- Cancel a stream (R261-R262): it stops at its next line, and every member is told; its command completes DONE with the lines sent; later provisional
streams of its half are withdrawn. -/
def State.cancelStream (s : State) (node seq tag side : Nat) (q : Option QueueRef) : State :=
  let cs := s.copies node seq tag
  let ms := cs.flatMap fun c => c.2.members.map fun m => (m, !c.2.begun)
  let s := cs.foldl (fun s c =>
    let s := match c.2.q with
      | some r => (s.modCur r fun x => { x with detail := c.2.lines }).endAs r .done
      | none => s
    let s := s.countCancelled c.1 c.2 (if c.2.q.isSome then c.2.q else q)
    let s := s.modDrove c.1 fun d => d.modStream seq tag c.2.companion fun y => { y with gone := true, q := none, decision := some .cancel, waiting := false }
    (s.withdraw c.1 c.2 q).showDrove c.1) s
  s.decide' node seq tag side .cancel ms q

/-- Decisions whose acknowledgements are all in take effect (R260-R261): the command ends, its arrival carrying CANCELLED for a cancel; DVE_EXPERTS
arrives. -/
def State.settleDecisions (s : State) (node : Nat) : State :=
  let due := (s.drove node).deciding.filter fun x => x.left.isEmpty
  let s := s.modDrove node fun d => { d with deciding := d.deciding.filter fun x => !x.left.isEmpty }
  let s := due.foldl (fun s x => match x.q with
    | some q => (s.modCur q fun c => { c with cancels := x.cancel }).endCmd q .done
    | none => s) s
  s.expertArrivals node

/-- The stream a DVE_COMMIT or DVE_CANCEL names (R263). -/
def State.namedStream (s : State) (node seq tag : Nat) : Option Stream :=
  (s.drove node).streams.find? fun x => x.seq == seq && x.tag == tag && !x.gone && !x.companion

/-- A decision of this stream must wait: that of a replacement before it is still to be issued (R234). -/
def Drove.waitsItsTurn (d : Drove) (x : Stream) : Bool :=
  d.streams.any fun y => y.tag == x.tag && y.side == x.side && !y.companion && decide (y.place < x.place)
    && (y.gone || (y.replaces && y.prov && y.decision.isNone))

/-- The work of DVE_COMMIT: the named provisional stream is committed (R259-R260), once no replacement before it is undecided (R234). -/
def State.runCommit (s : State) (q : QueueRef) (d : Nat) : State :=
  let node := s.servedBy q.node
  match s.namedStream node (bits d 128 16) (s.queueTag q) with
  | none => s.endCmd q .accessFault
  | some x =>
    if !x.prov || x.decision.isSome then s.endCmd q .done
    else if (s.drove node).waitsItsTurn x then s.modCur q fun c => { c with wait := .turn }
    else (((s.modCur q fun c => { c with wait := .decision }).commitStream node x.seq x.tag x.side (some q)).settleDecisions node).droveRun node

/-- DVE_COMMIT (R260, R263). -/
def execDveCommit (q : QueueRef) (s : State) : Out :=
  s.startHead q [0x63] (fun _ _ => true) fun s d => s.runCommit q d

/-- The work of DVE_CANCEL: the named stream is cancelled (R259-R261), once no replacement before it is undecided (R234). -/
def State.runCancel (s : State) (q : QueueRef) (d : Nat) : State :=
  let node := s.servedBy q.node
  match s.namedStream node (bits d 128 16) (s.queueTag q) with
  | none => s.endCmd q .accessFault
  | some x =>
    if (s.drove node).waitsItsTurn x then s.modCur q fun c => { c with wait := .turn }
    else (((s.modCur q fun c => { c with wait := .decision }).cancelStream node x.seq x.tag x.side (some q)).settleDecisions node).droveRun node

/-- DVE_CANCEL (R261-R263). -/
def execDveCancel (q : QueueRef) (s : State) : Out :=
  s.startHead q [0x64] (fun _ _ => true) fun s d => s.runCancel q d

/-- DECISION_ACK (R260-R261): a member has acknowledged; after a cancel its buffers of the discarded streams count as freed. -/
def execDecisionAck (p : Packet) (s : State) : Out :=
  need (p.op == .control && isEdge p.dest && p.oparg1 == Notice.ack.code) .noSuch <|
  need (!s.ahead p) .notDue <|
  match s.arrive p.dest p with
  | (none, s) => .next s
  | (some p, s) =>
    let seq := bits p.oparg0 0 16
    let cancel := bit p.oparg0 17
    let free := fun (s : State) (n : Nat) => s.modDrove n fun d =>
      let lost := fun (e : Nat × Nat) => (e.1 == p.jobTag && e.2 == seq) || d.streams.any fun x => x.seq == e.2 && x.tag == e.1 && !x.begun
      { d with busy := d.busy.filter fun e => !(e.1 / 4 == p.src && e.1 / 2 % 2 == bits p.oparg0 16 1 && lost e.2) }
    let s := if cancel then free (free s p.dest) (farEnd p.dest) else s
    let s := s.modDrove p.dest fun d => { d with deciding := d.deciding.map fun x =>
      if x.seq == seq && x.tag == p.jobTag && x.cancel == cancel then { x with left := x.left.filter (· != p.src) } else x }
    .next (((s.settleDecisions p.dest).droveRun p.dest).droveRun (farEnd p.dest))

end Sys2Proof.Machine
end

