-- ==== Sys2Proof/Machine/Experts.lean ====
section
/-!
DEFINITION. Expert droves (R297-R302, R306-R308): tally tables, DVE_EXPERTS, the decisions of its sequences; TALLY_ATOMIC_ADD, TALLY_TABLE_FINAL.
-/
namespace Sys2Proof.Machine

/-- The states of a DRV_SCHED entry (R308). -/
inductive Sched where
  | undecided | provisional | committed | cancelled | empty
  deriving DecidableEq, Repr

/-- The codes of R308. -/
def Sched.code : Sched → Nat | .undecided => 0 | .provisional => 1 | .committed => 2 | .cancelled => 3 | .empty => 4

/-- A DRV_SCHED word (R308): the count reads 0 while undecided. -/
def schedWord (seq : Nat) (expert : Option Nat) (st : Sched) (count : Nat) : Nat :=
  packFields [(0, 16, seq), (16, 10, expert.getD 0x3FF), (26, 3, st.code), (32, 32, if st = .undecided || st = .provisional then 0 else count)]

/-- Write a decision to DRV_SCHED, and once it is made to the DEC_OUT array (R299, R302). -/
def State.schedule (s : State) (node : Nat) (e : Experts) (seq : Nat) (expert : Option Nat) (st : Sched) (count : Nat) : State :=
  let w := schedWord seq expert st count
  let s := s.setWord .drvSched node 0 (seq % 256) (BitVec.ofNat 64 w)
  if e.decOut = 0 || st = .provisional then s
  else (s.putBytes ⟨node, 0, e.tag⟩ (e.decOut + 8 * wrapInt 16 ((seq : Int) - e.first)) (leBytes 8 w)).2

/-- An entry of the expert table (R299). -/
def expertOf (v : Nat) : ExpertEntry := ⟨bits v 0 48, bits v 48 16, bits v 64 4, bits v 80 10, bits v 96 48⟩

/-- The stream of an expert under a sequence number, opened and entered (R299); a failing status otherwise. -/
def State.expertStream (s : State) (node : Nat) (e : Experts) (x : ExpertEntry) (seq : Nat) (prov : Bool) : Except (Status × Bool) State :=
  match s.openStream node e.tag x.src x.tiles x.fmt x.tskip with
  | (.error st, _) => .error st
  | (.ok (h, skip), s) =>
    .ok (s.enterStream node e.members
      { place := 0, seq := seq, tag := e.tag, src := x.src, tiles := x.tiles, fmt := x.fmt, tskip := x.tskip, members := [], side := edgeSide e.q.node,
        prov := prov, header := some h, skip := skip, expert := some x.expert, lastLine := s.now })

/-- The sequence number of decision `i`. -/
def Experts.seq (e : Experts) (i : Nat) : Nat := (e.first + i) % 65536

/-- DVE_EXPERTS ends with a failing status. -/
def State.failExperts (s : State) (node : Nat) (e : Experts) (st : Status × Bool) : State :=
  let s := s.modDrove node fun d => { d with experts := none }
  if st.2 then s.stopCmd e.q st.1 else s.endCmd e.q st.1

/-- The table a DVE_EXPERTS consults. -/
def Drove.tableOf (d : Drove) (e : Experts) : Option TallyTable := d.tables.find? fun t => t.tag == e.tag && t.fold == e.fold

/-- Once its table is taken, DVE_EXPERTS waits on the finalising hurdle, unless its queue has waited for that generation already (R233, R298;
log entry 15). -/
def State.awaitTable (s : State) (node : Nat) : State :=
  let d := s.drove node
  match d.experts with
  | none => s
  | some e =>
    match e.waitGen, d.tableOf e with
    | none, some t =>
      let w := Sparse.get 0 (s.queue e.q).waits t.hurdle
      let g := if t.gen ≤ w then w else w + 1
      ((s.modQueue e.q fun x => { x with waits := Sparse.set x.waits t.hurdle g }).hurdleEvent e.q 0x09 e.tag t.hurdle g).setDrove node { d with experts := some { e with waitGen := some (t.hurdle, g) } }
    | _, _ => s

/-- Numbers in ascending order without repeats. -/
def ascending (bound : Nat) (l : List Nat) : List Nat := allBelow bound l.contains

/-- Stream ahead the experts needed by the last final table of the same address (R301). -/
def State.runAhead (s : State) (node : Nat) (e : Experts) : Except (Status × Bool) State :=
  let d := s.drove node
  let guess := match d.history.find? (·.1 == e.table) with | some h => h.2 | none => []
  let n := min 8 (s.fld F.drvExpCfg_runahead node)
  let pick := ((ascending 1024 guess).filterMap fun x => e.entries.find? fun y => y.expert == x).take n
  (numbered' pick).foldl (fun r x => match r with
    | .error st => .error st
    | .ok s => match s.expertStream node e x.1 (e.seq x.2) true with
      | .error st => .error st
      | .ok s =>
        let s := s.modDrove node fun d => { d with experts := d.experts.map fun y => { y with ahead := y.ahead ++ [(e.seq x.2, x.1.expert)] } }
        .ok (s.schedule node e (e.seq x.2) (some x.1.expert) .provisional 0)) (.ok s)
where
  /-- Entries with their numbers. -/
  numbered' (l : List ExpertEntry) : List (ExpertEntry × Nat) := l.zip (List.range l.length)

/-- DVE_EXPERTS's execution (R299-R301). One that starts while another runs is the engine's next stream: it goes on when that has ended (R217). -/
def State.runExperts (s : State) (q : QueueRef) (d : Nat) : State :=
  let node := s.servedBy q.node
  if (s.drove node).experts.isSome then s.modCur q fun c => { c with wait := .turn } else
  let tag := s.queueTag q
  let n := bits d 176 10 + 1
  let (st, bs, s) := s.get ⟨node, 0, tag⟩ (bits d 128 48) (32 * n)
  if st ≠ .done then s.stopCmd q st
  else if bits d 240 48 ≠ 0 ∧ !s.inStacks (bits d 240 48) (8 * n) then s.endCmd q .accessFault
  else
    let e : Experts := { q := q, tag := tag, table := bits d 128 48, fold := bits d 224 16, first := bits d 192 16, count := n, members := bits d 208 12,
                         decOut := bits d 240 48, prov := dProvisional d, entries := (chunks 32 n bs).map fun b => expertOf (leNat b) }
    let s := (s.modCur q fun c => { c with wait := .stream, signalled := true }).modDrove node fun d => { d with experts := some e }
    let r := if e.prov then s.runAhead node e else .ok s
    match r with
    | .error st => s.failExperts node e st
    | .ok s => (s.awaitTable node).droveRun node

/-- DVE_EXPERTS (R217, R299). -/
def execDveExperts (q : QueueRef) (s : State) : Out :=
  s.startHead q [0x62] (fun s d => s.membersOk (bits d 208 12) && bits d 240 48 % 8 == 0) fun s d => s.runExperts q d

/-- Commands that waited for their turn at a drove engine go on where it has come (R217, R234). -/
def State.takeTurns (s : State) : State :=
  (((List.range 24).flatMap fun e => unitQueues (156 + e) 0).filter fun q => match (s.queue q).cur with
    | some c => c.wait == .turn | none => false).foldl (fun s q => match (s.queue q).cur with
      | some c => if c.wait != .turn then s else match dOpcode c.desc with
        | 0x62 => s.runExperts q c.desc
        | 0x63 => s.runCommit q c.desc
        | _ => s.runCancel q c.desc
      | none => s) s

/-- The final expert of each sequence, none for empty (R300-R301): a predicted stream keeps its expert where that is needed; the needed experts no
predicted stream carries take the numbers of the others, then the next ones, in ascending order. -/
def plan (need' : List Nat) (ahead : List (Nat × Nat)) (n : Nat) : List (Option Nat) :=
  let spare := need'.filter fun x => !ahead.any fun a => a.2 == x
  let step := fun (r : List (Option Nat) × List Nat) (i : Nat) =>
    match ahead[i]? with
    | some (_, x) => if need'.contains x then (r.1 ++ [some x], r.2) else (r.1 ++ [r.2.head?], r.2.drop 1)
    | none => (r.1 ++ [r.2.head?], r.2.drop 1)
  ((List.range n).foldl step ([], spare)).1

/-- Add an arrival at the commit hurdle to those DVE_EXPERTS owes. -/
def State.oweArrival (s : State) (node seq : Nat) (cancel : Bool) : State :=
  s.modDrove node fun d => { d with experts := d.experts.map fun e => { e with arrivals := e.arrivals ++ [(seq, cancel)] } }

/-- Commit or decide empty a sequence without a predicted stream of it (R300-R302). -/
def State.decideNew (s : State) (node : Nat) (e : Experts) (seq : Nat) (x : Option Nat) (count : Nat) : Except (Status × Bool) State :=
  let side := edgeSide e.q.node
  match x with
  | none =>
    let s := s.modDrove node fun d => { d with streams := d.streams.filter fun y => !(y.gone && y.seq == seq && y.tag == e.tag) }
    .ok (((s.schedule node e seq none .empty 0).decide' node seq e.tag side .empty
      (let m := s.splitMembers node e.members; (m.1 ++ m.2).map fun x => (x, true)) none).oweArrival node seq false)
  | some x =>
    match e.entries.find? fun y => y.expert == x with
    | none => .error (.accessFault, false)
    | some y => match s.expertStream node e y seq false with
      | .error st => .error st
      | .ok s => .ok (((s.schedule node e seq (some x) .committed count).decide' node seq e.tag side .commit ((s.allMembers node seq e.tag).map fun m => (m, false)) none).oweArrival node seq false)

/-- Decide one sequence (R301-R302). -/
def State.decideSeq (s : State) (node : Nat) (e : Experts) (count : Nat → Nat) (i : Nat) (x : Option Nat) : Except (Status × Bool) State :=
  let seq := e.seq i
  let side := edgeSide e.q.node
  let n := match x with | some x => count x | none => 0
  match e.ahead[i]? with
  | some (_, y) =>
    if x = some y then
      .ok (((s.schedule node e seq x .committed n).commitStream node seq e.tag side none).oweArrival node seq false)
    else
      let s := ((s.schedule node e seq (some y) .cancelled (count y)).cancelStream node seq e.tag side none).oweArrival node seq true
      s.decideNew node e seq x n
  | none => s.decideNew node e seq x n

/-- Every sequence is decided, in order (R300-R301); the tables' history is kept for the last four TABLE addresses. -/
def State.decideAll (s : State) (node : Nat) (e : Experts) (need' : List Nat) (final : List (Option Nat)) (count : Nat → Nat) : State :=
  let r := (List.range e.count).foldl (fun r i => match r with
    | .error st => .error st
    | .ok s => s.decideSeq node e count i (final.getD i none)) (Except.ok (ε := Status × Bool) s)
  match r with
  | .error st => s.failExperts node e st
  | .ok s =>
    let s := s.modDrove node fun d =>
      let h := d.history.filter (fun x => x.1 != e.table) ++ [(e.table, need')]
      { d with history := h.drop (h.length - 4), experts := d.experts.map fun y => { y with decided := true } }
    ((s.settleDecisions node).droveRun node).droveRun (farEnd node)

/-- The counts of a final table, as a function of the expert. -/
def TallyTable.count (t : TallyTable) (x : Nat) : Nat := Sparse.get 0 t.counts x

/-- The experts a table needs: a non-zero counter (R299). -/
def Experts.needed (e : Experts) (t : TallyTable) : List Nat := ascending 1024 ((e.entries.map (·.expert)).filter fun x => t.count x != 0)

/-- Decide by a list of final experts, one for each sequence number, or by the panel's own procedure. -/
def State.decideExperts (s : State) (node : Nat) (supplied : Option (List (Option Nat))) : State :=
  let d := s.drove node
  match d.experts with
  | none => s
  | some e => match d.tableOf e with
    | none => s
    | some t => s.decideAll node e (e.needed t) (supplied.getD (plan (e.needed t) e.ahead e.count)) t.count

/-- TALLY_TABLE_FINAL (R298, R300-R301): the wait on the finalising hurdle is satisfied, and every sequence is decided, by the panel or, in
host-assisted mode, once the host has supplied the decisions (R419 function 4). -/
def execTallyTableFinal (node : Nat) (s : State) : Out :=
  need (isEdge node) .noSuch <|
  match (s.drove node).experts with
  | none => .refused .noSuch
  | some e =>
    need (!e.decided && !s.asks.any (fun a => a.what == .droves node) && !s.assists.any (fun a => a.what == .droves node)) .wrongState <|
    match e.waitGen with
    | none => .refused .wrongState
    | some (id, g) => match s.released e.q.node 0 e.tag id g with
      | none => .refused .notDue
      | some .done => .next (if s.hostDuty node (pageOf .drv node 0) 4 then s.ask 4 node (pageOf .drv node 0) e.table 0 (.droves node)
          else s.decideExperts node none)
      | some st => .next (s.failExperts node e (st, st != .cancelled))

/-- The address tally packets for an edge die carry: its DRV_ page (log entry 16). -/
def tallyAddr (node : Nat) : Nat := 0x200000000000 + node * 0x40000 + pageOf .drv node 0 * 0x1000

/-- TALLY_ATOMIC_ADD (R297-R298): INT32 counts for consecutive experts are added to a table, taken by the first packet of its job and fold; a packet for
a fifth table, or that names another finalising hurdle, is refused. -/
def execTallyAtomicAdd (p : Packet) (s : State) : Out :=
  need (p.op == .atomicAdd && isEdge p.dest && p.addr == tallyAddr p.dest) .noSuch <|
  need (!s.ahead p) .notDue <|
  match s.arrive p.dest p with
  | (none, s) => .next s
  | (some p, s) =>
    let node := p.dest
    if !s.goesOn node (pageOf .drv node 0) then .next (s.answer node p .targetResetting) else
    let d := s.drove node
    let fold := bits p.oparg0 0 16
    let hid := bits p.oparg0 16 16
    let first := bits p.oparg1 0 10
    let counts := (chunks 4 (p.payload.length / 4) p.payload).map leNat
    let old := d.tables.find? fun t => t.tag == p.jobTag && t.fold == fold
    let ok := match old with | some t => t.hurdle == hid | none => decide (d.tables.length < 4)
    if !ok then .next ((s.bump F.drvTally_refused node 0 0).answer node p .accessFault) else
    let gen := match s.hurdleFor node 0 p.jobTag hid with | some h => h.gen + 1 | none => 1
    let t := old.getD { tag := p.jobTag, fold := fold, hurdle := hid, gen := gen }
    let add := fun (m : Sparse Nat) (x : Nat × Nat) =>
      if x.2 = 0 || 1024 ≤ first + x.1 then m else Sparse.upd 0 m (first + x.1) fun v => (v + x.2) % 2 ^ 32
    let t := { t with counts := ((List.range counts.length).zip counts).foldl add t.counts }
    let tables := if old.isSome then d.tables.map fun y => if y.tag == t.tag && y.fold == t.fold then t else y else d.tables ++ [t]
    let s := (s.setDrove node { d with tables := tables }).put F.drvTally_tablesUsed node 0 0 tables.length
    .next ((s.answer node p .done).awaitTable node)

end Sys2Proof.Machine
end

