-- ==== Sys2Proof/Machine/Folds.lean ====
section
/-!
DEFINITION. Folds (R78-R80, R264-R269): the router adders, what a participant does with a partial, MVE_FOLD, FOLD_PART.
-/
namespace Sys2Proof.Machine

/-- Add two codes of a format; whether a finite sum has overflowed (R88, R266). -/
def foldFloat (f : FFmt) (a b : Nat) : Nat × Bool :=
  let x := f.decode a
  let y := f.decode b
  let c := f.encode (x.add y)
  (c, !x.isInf && !y.isInf && !x.isNan && !y.isNan && (f.decode c).isInf)

/-- Add two INT32 codes, saturating (R266). -/
def foldInt (a b : Nat) : Nat × Bool :=
  let v := sext 32 a + sext 32 b
  let lo : Int := -2147483648
  let hi : Int := 2147483647
  (wrapInt 32 (max lo (min hi v)), decide (v < lo) || decide (hi < v))

/-- One element's add by FMT: 0 FP32, 1 BF16, 2 INT32. -/
def foldAdd (fmt a b : Nat) : Nat × Bool :=
  match fmt with
  | 0 => foldFloat f32 a b | 1 => foldFloat bf16 a b | _ => foldInt a b

/-- Element size by FMT. -/
def foldSize (fmt : Nat) : Nat := if fmt = 1 then 2 else 4

/-- Add two byte strings element by element: the sum, whether some add overflowed or saturated. -/
def foldBytes (fmt : Nat) (a b : List Byte) : List Byte × Bool :=
  let k := foldSize fmt
  let rs := ((chunks k (a.length / k) a).zip (chunks k (a.length / k) b)).map fun x => foldAdd fmt (leNat x.1) (leNat x.2)
  (rs.flatMap fun r => leBytes k r.1, rs.any (·.2))

/-- Operand fields of MVE_FOLD (R225). -/
def fId (d : Nat) : Nat := bits d 128 16
def fAxis (d : Nat) : Nat := bits d 144 1
def fFmt (d : Nat) : Nat := bits d 145 2
def fMembers (d : Nat) : Nat := bits d 148 12
def fSrc (d : Nat) : Nat := bits d 160 48
def fBytes (d : Nat) : Nat := bits d 208 24
def fDest (d : Nat) : Nat := bits d 232 48

/-- The position of a region on its logical line in the map bank of an epoch (R78). -/
def State.foldPos (s : State) (node epoch axis : Nat) : Nat :=
  if axis = 0 then s.lnumIn node epoch % s.lcolsIn node epoch else s.lnumIn node epoch / s.lcolsIn node epoch

/-- The next participant's position after `m` (R78). -/
def foldNext (members m : Nat) : Option Nat := (setBits 12 members).find? fun i => decide (m < i)

/-- OPARG0 of a partial (R265). -/
def foldWord (d off : Nat) : Nat := packFields [(0, 16, fId d), (16, 1, fAxis d), (17, 2, fFmt d), (19, 12, fMembers d), (32, 24, off)]

/-- RTR_FOLD.ACTIVE: the folds that hold buffers (R79, R275). -/
def foldsHeld (ps : List Packet) : Nat := (ps.map fun p => (p.jobTag, p.srcUnit, bits p.oparg0 0 16)).eraseDups.length

/-- Replace a router's fold buffers and show them. -/
def State.setFolds (s : State) (node : Nat) (ps : List Packet) : State :=
  (s.modRouter node fun r => { r with foldBufs := ps }).put F.rtrFold_active node 0 0 (foldsHeld ps)

/-- A participant's router sends a partial on to the next participant (R78); the event names DEST and FOLD_ID (R538). -/
def State.forwardFold (s : State) (node m : Nat) (p : Packet) : State :=
  let d := s.foldNode node p.epoch (bits p.oparg0 16 1) m
  (s.event ⟨node, pageOf .rtr node 0, 0x3F, some p.jobTag⟩ 3 0x19 p.addr (bits p.oparg0 0 16)).launch node
    { p with src := node, dest := d, vch := 0, hops := 0, detoured := false }

/-- The result of the last participant goes to DEST (R78, R267). -/
def State.foldResult (s : State) (node : Nat) (p : Packet) (bs : List Byte) (poison : Bool) (purpose : Purpose) : State :=
  let a := p.addr + bits p.oparg0 32 24
  (cutBytes (packets bs.length) a bs).foldl (fun s x =>
    s.sendBytes node p.srcUnit p.jobTag x.1 x.2 poison (s.inHeldPen node (p.srcUnit % 4) x.1 x.2.length) purpose) s

/-- The bytes of a partial. -/
def foldPayload (p : Packet) : List Byte := p.payload.take (min 512 (bits p.oparg1 0 24 - bits p.oparg0 32 24))

/-- A partial passes a participant poisoned and unadded (R79-R80, R265). -/
def State.poisonFold (s : State) (node : Nat) (p : Packet) : State :=
  let s := s.bump F.rtrFold_poisonFwd node 0 0
  match foldNext (bits p.oparg0 19 12) (s.foldPos node p.epoch (bits p.oparg0 16 1)) with
  | some m => s.forwardFold node m { p with poison := true }
  | none => s.foldResult node p (foldPayload p) true .plain

/-- The fold's contribution lies in the block's own AS or PS (R225). -/
def State.foldSrcOk (s : State) (q : QueueRef) (d : Nat) : Bool :=
  match s.locate q.node (s.fld F.rtrEpoch_injEpoch q.node) (fSrc d) (max 1 (fBytes d)) with
  | .ok (_, .scratch n b off) => n == q.node && b == q.blk && (inAS off || inPS off)
  | _ => false

/-- DEST of the last participant (R267): all of it in its own AS or PS, a pen it holds, the stacks, host memory. -/
def State.foldDestOk (s : State) (q : QueueRef) (d : Nat) : Bool :=
  s.inHeldPen q.node q.blk (fDest d) (fBytes d) ||
    (accessParts (packets (fBytes d)) (fDest d) (max 1 (fBytes d))).all fun (a, n) =>
      match s.locate q.node (s.fld F.rtrEpoch_injEpoch q.node) a n with
      | .ok (_, .scratch n' b off) => n' == q.node && b == q.blk && ((inAS off && inAS (off + n - 1)) || (inPS off && inPS (off + n - 1)))
      | .ok (_, .stack ..) | .ok (_, .host _) => true
      | _ => false

/-- The MVE_FOLD in flight that a partial is for. -/
def State.foldCmd (s : State) (node : Nat) (p : Packet) : Option (QueueRef × InFlight) :=
  ((List.range 4).map fun i => (⟨node, p.srcUnit % 4, 2, i⟩ : QueueRef)).findSome? fun q => match (s.queue q).cur with
    | some c => if c.status.isNone && dOpcode c.desc == 0x35 && !c.skipped && s.queueTag q == p.jobTag && fId c.desc == bits p.oparg0 0 16
        && decide (0 < c.left) then some (q, c) else none
    | none => none

/-- The partial's operands are those of the local MVE_FOLD (R265). -/
def foldAgrees (d : Nat) (p : Packet) : Bool := p.oparg0 == foldWord d (bits p.oparg0 32 24) && bits p.oparg1 0 24 == fBytes d && p.addr == fDest d

/-- A partial and the local contribution are both present (R78, R265-R267, R269). -/
def State.foldMeet (s : State) (node : Nat) (p : Packet) (q : QueueRef) (d : Nat) : State :=
  if !foldAgrees d p then ((s.put F.rtrFold_mismatch node 0 0 1).poisonFold node p).endCmd q .accessFault else
  let off := bits p.oparg0 32 24
  let mine := foldPayload p
  let (st, bs, s) := s.get (s.engine q) (fSrc d + off) mine.length
  if st ≠ .done ∧ st ≠ .poisoned then (s.poisonFold node p).endCmd q st else
  let (sum, ovf) := foldBytes (fFmt d) mine bs
  let s := if ovf then (if fFmt d = 2 then s.put F.rtrFold_intSat node 0 0 1 else s.put F.rtrFold_fpOvf node 0 0 1) else s
  let poison := p.poison || st == .poisoned
  let s := s.modCur q fun c => { c with bytesIn := c.bytesIn + mine.length, bytesOut := c.bytesOut + mine.length }
  match foldNext (fMembers d) (s.foldPos node p.epoch (fAxis d)) with
  | some m =>
    let s := s.forwardFold node m { p with poison := poison, payload := sum ++ p.payload.drop sum.length }
    let s := s.modCur q fun c => { c with left := c.left - 1 }
    match (s.queue q).cur with
    | some c => if c.left = 0 then s.endCmd q .done else s
    | none => s
  | none => s.foldResult node p sum poison (s.cmdPurpose q)

/-- Partials in the fold buffers meet the contributions that have come. -/
def State.matchFolds (s : State) (node : Nat) : Nat → State
  | 0 => s
  | fuel + 1 =>
    let ps := (s.router node).foldBufs
    match ps.findSome? fun p => (s.foldCmd node p).map fun c => (p, c) with
    | none => s
    | some (p, q, c) => ((s.setFolds node (ps.erase p)).foldMeet node p q c.desc).matchFolds node fuel

/-- A participant whose region is retired, draining into reset or in reset adds nothing: every partial it holds goes on poisoned (R79-R80). -/
def State.flushFolds (s : State) (node : Nat) : State :=
  let ps := (s.router node).foldBufs
  ps.foldl (fun s p => s.poisonFold node p) (s.setFolds node [])

/-- R225, R227, R264: an MVE_FOLD that is well formed. -/
def State.foldOk (s : State) (d : Nat) : Bool := fFmt d != 3 && fBytes d % 64 == 0 && s.membersOk (fMembers d)

/-- Result packets of the last participant. -/
def foldPackets (d : Nat) : Nat :=
  ((List.range ((fBytes d + 511) / 512)).flatMap fun i => cutBytes 2 (fDest d + 512 * i) (List.replicate (min 512 (fBytes d - 512 * i)) 0)).length

/-- The lowest participant sends its contribution as the first partial, and completes once it is sent (R264-R265, R267). -/
def State.foldFirst (s : State) (q : QueueRef) (d m : Nat) : State :=
  let one := fun (x : Status × State) (i : Nat) =>
    if x.1 ≠ .done ∧ x.1 ≠ .poisoned then x else
    let n := min 512 (fBytes d - 512 * i)
    let (st, bs, s) := x.2.get (s.engine q) (fSrc d + 512 * i) n
    if st ≠ .done ∧ st ≠ .poisoned then (st, s) else
    let p : Packet := { op := .foldPart, cls := 4, len := n / 64, poison := st == .poisoned, srcUnit := q.blk, jobTag := s.queueTag q, addr := fDest d,
                        epoch := s.fld F.rtrEpoch_injEpoch q.node, injTime := s.timeAt q.node, oparg0 := foldWord d (512 * i), oparg1 := fBytes d, payload := bs }
    (.done, s.forwardFold q.node m p)
  let (st, s) := (List.range ((fBytes d + 511) / 512)).foldl one (.done, s)
  (s.modCur q fun c => { c with bytesIn := fBytes d, bytesOut := fBytes d }).endCmd q (if st = .poisoned then .done else st)

/-- MVE_FOLD's execution. -/
def State.runFold (s : State) (q : QueueRef) (d : Nat) : State :=
  let pos := s.foldPos q.node (s.fld F.rtrEpoch_injEpoch q.node) (fAxis d)
  let last := (foldNext (fMembers d) pos).isNone
  if !bit (fMembers d) pos || !s.foldSrcOk q d || (last && !s.foldDestOk q d) then s.endCmd q .accessFault
  else if fBytes d = 0 then s.endCmd q .done
  else
    let lowest := !(List.range pos).any (bit (fMembers d))
    match foldNext (fMembers d) pos with
    | some m =>
      if lowest then s.foldFirst q d m
      else (s.modCur q fun c => { c with wait := .fold, left := (fBytes d + 511) / 512 }).matchFolds q.node 64
    | none =>
      if lowest then
        let (st, bs, s) := s.get (s.engine q) (fSrc d) (fBytes d)
        if st ≠ .done ∧ st ≠ .poisoned then s.endCmd q st else
        let parts := cutBytes (packets (fBytes d)) (fDest d) bs
        let s := (s.modCur q fun c => { c with wait := .packets, left := parts.length, bytesIn := fBytes d, bytesOut := fBytes d }).condition q st
        parts.foldl (fun s x => s.sendBytes q.node q.blk (s.queueTag q) x.1 x.2 (st == .poisoned) (s.inHeldPen q.node q.blk x.1 x.2.length) (s.cmdPurpose q)) s
      else (s.modCur q fun c => { c with wait := .packets, left := foldPackets d }).matchFolds q.node 64

/-- MVE_FOLD (R264-R267). -/
def execMveFold (q : QueueRef) (s : State) : Out := s.startHead q [0x35] (fun s d => s.foldOk d) fun s d => s.runFold q d

/-- A participant adds nothing (R79-R80): its region is retired, drains into a reset, or is in reset. One that idles or naps keeps the partial waiting. -/
def State.addsNothing (s : State) (node blk : Nat) : Bool :=
  let on := fun (page : Nat) => s.goesOn node page || s.unit node page == .quiesced
  decide (3 ≤ s.role node) || s.resetsRegion node || !on 0 || !on (pageOf .blk node blk)

/-- FOLD_PART (R78-R80, R265-R266): a partial reaches a participant's router and waits in a fold buffer for the contribution; with sixteen folds
held, or two packets of its own, it waits in its input buffer. -/
def execFoldPart (p : Packet) (s : State) : Out :=
  need (p.op == .foldPart && isRegion p.dest && decide (p.srcUnit < 4)) .noSuch <|
  let ps := (s.router p.dest).foldBufs
  let same := fun (x : Packet) => x.jobTag == p.jobTag && x.srcUnit == p.srcUnit && bits x.oparg0 0 16 == bits p.oparg0 0 16
  need (if ps.any same then decide ((ps.filter same).length < 2) else decide (foldsHeld ps < 16)) .wrongState <|
  need (!s.ahead p) .notDue <|
  match s.arrive p.dest p with
  | (none, s) => .next s
  | (some p, s) =>
    if s.addsNothing p.dest p.srcUnit then .next (s.poisonFold p.dest p)
    else .next ((s.setFolds p.dest (ps ++ [p])).matchFolds p.dest 64)

/-- The MVE_FOLD of a block in flight that sends its result to the address of a packet. -/
def State.foldCmd? (s : State) (p : Packet) : Option QueueRef :=
  if !isRegion p.dest then none else
  ((List.range 4).map fun i => (⟨p.dest, p.srcUnit % 4, 2, i⟩ : QueueRef)).find? fun q => match (s.queue q).cur with
    | some c => c.status.isNone && dOpcode c.desc == 0x35 && s.queueTag q == p.jobTag && fDest c.desc == p.addr
    | none => false

/-- A completion that answers no outstanding request: of a stale fold it ends the participant's MVE_FOLD (R72); any other is an orphan (R69). -/
def State.foldStale (s : State) (p : Packet) : State :=
  match s.foldCmd? p with
  | some q =>
    let st := (Status.ofCode p.status).getD .epochStale
    (match (s.queue q).cur with | some c => if st.leavesUndefined then s.undefineDest q c.desc else s | none => s).endCmd q st
  | none => s.modRouter p.dest fun r => { r with orphans := r.orphans + 1 }

end Sys2Proof.Machine
end

