-- ==== Sys2Proof/Machine/Gate.lean ====
section
/-!
DEFINITION. The gate unit (R167, R289-R297, R303-R305): GTE_SELECT, GTE_DISPATCH, GTE_COMBINE, GTE_TALLY.
-/
namespace Sys2Proof.Machine

/-- [off, off+n) of a block's AS lies in hefts of a job (R198, R290). -/
def State.inHefts (s : State) (q : QueueRef) (off n : Nat) : Bool :=
  decide (off + n ≤ 0x600000) && s.mayReadAS (s.engine q) q.node q.blk off n &&
    (n == 0 || (List.range ((off + n - 1) / 4096 - off / 4096 + 1)).all fun i =>
      (s.heftsAt q.node q.blk ((off / 4096 + i) * 4096) 4096).any fun h => h.tag == s.queueTag q)

/-- Choice `j` of a selection record (R291). -/
structure Choice where
  expert : Nat := 0x3FF
  valid : Bool := false
  row : Nat := 0xF
  dropped : Bool := false
  weight : Nat := 0
  deriving DecidableEq, Repr

/-- A choice's 64 bits. -/
def Choice.word (c : Choice) : Nat := packFields [(0, 10, c.expert), (10, 1, b2n c.valid), (11, 4, c.row), (15, 1, b2n c.dropped), (32, 32, c.weight)]

/-- The choice 64 bits spell. -/
def choiceOf (v : Nat) : Choice := ⟨bits v 0 10, bit v 10, bits v 11 4, bit v 15, bits v 32 32⟩

/-- The bytes of a selection record. -/
def recordBytes (cs : List Choice) : List Byte := cs.flatMap fun c => leBytes 8 c.word

/-- EXIT and VOID of a status entry (R291, R304). -/
def leftOut (st : Nat) : Bool := bit st 12 || bit st 13

/-- A status entry of a token, as 16 bits. -/
def State.statusEntry (s : State) (q : QueueRef) (off t : Nat) : Nat := s.mem.num (blkKeyAt q.node q.blk (off + 2 * t)) 2

/-- The best `k` of a list as the record's eight choices (R290-R291). -/
def choices (k : Nat) (best : List (Nat × Nat)) : List Choice :=
  let cs := (best.take k).map fun e => ({ expert := e.2, valid := true, weight := e.1 } : Choice)
  cs ++ List.replicate (8 - cs.length) ({} : Choice)

/-- Pitch of a token's scores in AS (R290). -/
def scorePitch (experts : Nat) : Nat := (4 * experts + 127) / 128 * 128

/-- A token's candidates: from its list, or from its scores in AS; whether a score is poisoned (R167, R290). -/
def State.tokenCands (s : State) (q : QueueRef) (d t : Nat) : List (Nat × Nat) × Bool × State :=
  let n := bits d 140 10 + 1
  if bit d 154 then
    let (bs, p, s) := s.readBlk q.node q.blk (bits d 160 24 + t * scorePitch n) (4 * n)
    ((((chunks 4 n bs).map leNat).zip (List.range n)).foldl (fun l e => (insertCand l e).take 8) [], p, s)
  else
    let c := Sparse.get {} (s.block q.node q.blk).cands t
    (c.best, c.bad, s)

/-- Select for one token: its record and status entry are written (R291); an EXIT or VOID token is not selected (R304). -/
def State.selectToken (s : State) (q : QueueRef) (d t : Nat) : State :=
  let st := s.statusEntry q (bits d 208 24) t
  let (best, bad, s) := if leftOut st then ([], false, s) else s.tokenCands q d t
  let s := s.writeBlk q.node q.blk (bits d 184 24 + 64 * t) (allOn (recordBytes (choices (bits d 150 4) best))) bad
  let s := s.writeBlk q.node q.blk (bits d 208 24 + 2 * t) (allOn (leBytes 2 (bits st 12 2 * 2 ^ 12)))
  if bad then s.condition q .poisoned else s

/-- GTE_SELECT's execution (R290-R292). -/
def State.runSelect (s : State) (q : QueueRef) (d : Nat) : State :=
  let toks := bits d 128 12 + 1
  let n := bits d 140 10 + 1
  let lists := !bit d 154
  if !s.inHefts q (bits d 184 24) (64 * toks) || !s.inHefts q (bits d 208 24) (2 * toks) ||
      !s.inHefts q (bits d 160 24) (if lists then 1 else toks * scorePitch n) then s.endCmd q .accessFault
  else
    let b := s.block q.node q.blk
    let short := lists && (List.range toks).any fun t => !leftOut (s.statusEntry q (bits d 208 24) t) && (Sparse.get {} b.cands t).count != n
    if short then (s.bump F.gtuStat_countErrors q.node q.blk 0).endCmd q .accessFault
    else
      let s := (List.range toks).foldl (fun s t => s.selectToken q d t) s
      let sel : Select := ⟨bits d 184 24, bits d 208 24, toks, bits d 150 4, n⟩
      let s := s.modBlock q.node q.blk fun b =>
        { b with cands := if lists then b.cands.filter fun e => decide (toks ≤ e.1) else b.cands
                 selects := (sel :: b.selects.filter fun x => x.recOff != sel.recOff).take 4 }
      let s := s.put F.gtuStat_selTokens q.node q.blk 0 toks
      let s := s.put F.gtuStat_selK q.node q.blk 0 sel.k
      let s := s.put F.gtuStat_selExperts q.node q.blk 0 n
      (s.put F.gtuStat_listsHeld q.node q.blk 0 (b2n ((s.block q.node q.blk).cands.any fun e => e.2.count != 0))).endCmd q .done

/-- GTE_SELECT (R227, R290). -/
def execGteSelect (q : QueueRef) (s : State) : Out :=
  s.startHead q [0x40] (fun _ d => decide (0 < bits d 150 4) && decide (bits d 150 4 ≤ 8) && decide (bits d 150 4 ≤ bits d 140 10 + 1)) fun s d => s.runSelect q d

/-- The select that wrote a REC_OFF (R292). -/
def State.selectAt (s : State) (q : QueueRef) (recOff : Nat) : Option Select := (s.block q.node q.blk).selects.find? fun x => x.recOff == recOff

/-- Bytes of a token row of a heft, before rounding: its strings, then its scales (R558); 0 where the heft has none. -/
def Heft.rowBytes (h : Heft) : Nat := h.kTiles * (blockBytes h.format + if h.format < 6 then 1 else 0)

/-- The S of R294. -/
def Heft.rowSize (h : Heft) : Nat := (h.rowBytes + 63) / 64 * 64

/-- The heft has token rows, up to and with a token (R296, R558). -/
def Heft.hasRow (h : Heft) (tokens : Nat) : Bool := actTile h.format != 0 && decide (tokens ≤ 32 * h.tokTiles) && decide (0 < h.kTiles)

/-- AS offsets of token `t`'s strings, or scales, with their lengths, in row order. -/
def Heft.rowParts (h : Heft) (t : Nat) : List (Nat × Nat) :=
  let at' := fun (k : Nat) => h.offset * 4096 + (t / 32 * h.kTiles + k) * actTile h.format
  let b := blockBytes h.format
  (List.range h.kTiles).map (fun k => (at' k + t % 32 * b, b)) ++
    (if h.format < 6 then (List.range h.kTiles).map fun k => (at' k + 32 * b + t % 32, 1) else [])

/-- Read a token row, padded with zeros to S. -/
def State.tokenRow (s : State) (q : QueueRef) (h : Heft) (t : Nat) : List Byte × Bool × State :=
  let (bs, p, s) := (h.rowParts t).foldl (fun (x : List Byte × Bool × State) e =>
    let (bs, p, s) := x.2.2.readBlk q.node q.blk e.1 e.2
    (x.1 ++ bs, x.2.1 || p, s)) ([], false, s)
  (bs ++ List.replicate (h.rowSize - bs.length) 0, p, s)

/-- The records and status entries of a select's tokens, and the tokens whose record is poisoned. -/
def State.readChoices (s : State) (q : QueueRef) (x : Select) : List (List Choice) × Bool × State :=
  (List.range x.tokens).foldl (fun (r : List (List Choice) × Bool × State) t =>
    let (bs, p, s) := r.2.2.readBlk q.node q.blk (x.recOff + 64 * t) 64
    (r.1 ++ [(chunks 8 8 bs).map fun c => choiceOf (leNat c)], r.2.1 || p, s)) ([], false, s)

/-- A row's slots: the tokens in slot order, each with the (choice, expert) pairs it carries. -/
abbrev Slots := List (Nat × List (Nat × Nat))

/-- Give pair (t, j) its place on row r (R295): the slots of the twelve rows; dropped where the row is full. -/
def place (cap : Nat) (rows : List Slots) (r t j e : Nat) : List Slots × Bool :=
  let l := rows.getD r []
  if l.any (·.1 == t) then (setAt rows r (l.map fun x => if x.1 = t then (t, x.2 ++ [(j, e)]) else x), false)
  else if l.length < cap then (setAt rows r (l ++ [(t, [(j, e)])]), false)
  else (rows, true)

/-- The assignment of R295: `row` gives the destination of a choice, none where no row serves it. Slots of each row, and the pairs dropped. -/
def assign (cap k : Nat) (toks : List (List Choice × Nat)) (row : Choice → Option Nat) : List Slots × List (Nat × Nat) :=
  let step := fun (x : List Slots × List (Nat × Nat)) (jt : Nat × Nat) =>
    match toks[jt.2]? with
    | none => x
    | some (cs, st) =>
      let c := cs.getD jt.1 {}
      if leftOut st || !c.valid then x
      else match row c with
        | none => (x.1, x.2 ++ [(jt.2, jt.1)])
        | some r => let (rows, drop) := place cap x.1 r jt.2 jt.1 c.expert
                    (rows, if drop then x.2 ++ [(jt.2, jt.1)] else x.2)
  ((List.range k).flatMap fun j => (List.range toks.length).map fun t => (j, t)).foldl step (List.replicate 12 [], [])

/-- Write ROW, DROPPED and the status entries (R291, R295). -/
def State.writeDispatch (s : State) (q : QueueRef) (x : Select) (stOff : Nat) (recs : List (List Choice)) (rows : List Slots) (drops : List (Nat × Nat)) : State :=
  (List.range x.tokens).foldl (fun s t =>
    let st := s.statusEntry q stOff t
    let cs := recs.getD t []
    if leftOut st then s else
    let mine := (drops.filter (·.1 == t)).map (·.2)
    let one := fun (c : Choice × Nat) =>
      let r := (List.range 12).find? fun r => (rows.getD r []).any fun y => y.1 == t && y.2.any fun p => p.1 == c.2
      if c.1.valid && decide (c.2 < x.k) then { c.1 with row := r.getD 0xF, dropped := mine.contains c.2 } else c.1
    let s := s.writeBlk q.node q.blk (x.recOff + 64 * t) (allOn (recordBytes ((cs.zip (List.range 8)).map one)))
    let v := (if mine.isEmpty then 0 else Status.capacityDropped.code) + 16 * ofBits mine + bits st 12 2 * 2 ^ 12
    s.writeBlk q.node q.blk (stOff + 2 * t) (allOn (leBytes 2 v))) s

/-- An index entry (R296); what entry `i` holds as TOKEN where it is unused, and as choices beyond N, is a free value of the row (log entries 2,
118). -/
def State.indexEntry (s : State) (q : QueueRef) (k i : Nat) (slot : Option (Nat × List (Nat × Nat))) : Nat :=
  let free := (Config.openResult 0x41 ([s.lnum q.node, q.blk, k, i] ++ slot.elim [] fun x => x.1 :: x.2.flatMap fun p => [p.1, p.2])).toNat
  let ps := match slot with | some x => x.2 | none => []
  packFields ([(0, 8, s.lnum q.node), (8, 2, q.blk), (10, 12, match slot with | some x => x.1 | none => free), (22, 4, ps.length), (26, 4, k)]
    ++ ((List.range 8).map fun i => (32 + 10 * i, 10, match ps[i]? with | some p => p.2 | none => 0x3FF))
    ++ (List.range 8).map fun i => (112 + 3 * i, 3, match ps[i]? with | some p => p.1 | none => free / 2 ^ (12 + 3 * i)))

/-- The puts of one row: token rows in slot order, then all CAP index entries (R296). -/
def State.rowPuts (s : State) (q : QueueRef) (h : Heft) (k cap base : Nat) (slots : Slots) : List (Nat × List Byte × Bool) × State :=
  let (ps, s) := ((slots.zip (List.range slots.length))).foldl (fun (x : List (Nat × List Byte × Bool) × State) e =>
    let (bs, p, s) := x.2.tokenRow q h e.1.1
    (x.1 ++ (cutBytes (packets bs.length) (base + e.2 * h.rowSize) bs).map fun c => (c.1, c.2, p), s)) ([], s)
  let idx := (List.range cap).flatMap fun i => leBytes 32 (s.indexEntry q k i slots[i]?)
  (ps ++ (cutBytes (packets idx.length) (base + cap * h.rowSize) idx).map fun c => (c.1, c.2, false), s)

/-- Dispatch by an assignment (R295-R296). -/
def State.dispatchBy (s : State) (q : QueueRef) (d : Nat) (h : Heft) (x : Select) (row : Choice → Option Nat) : State :=
  let cap := bits d 152 12
  let (recs, bad, s) := s.readChoices q x
  let toks := recs.zip ((List.range x.tokens).map fun t => s.statusEntry q (bits d 192 24) t)
  let (rows, drops) := assign cap x.k toks row
  let s := s.writeDispatch q x (bits d 192 24) recs rows drops
  let n := ((drops.map (·.1)).eraseDups).length
  let s := s.put F.gtuStat_droppedTokens q.node q.blk 0 n
  let s := (s.modCur q fun c => { c with detail := n }).condition q (if bad then .poisoned else .done)
  let (ps, s) := (List.range 12).foldl (fun (r : List (Nat × List Byte × Bool) × State) i =>
    match r.2.handle? q.node q.blk (bits d 140 6 + i) with
    | some e =>
      let (ps, s) := r.2.rowPuts q h x.k cap e.base (rows.getD i [])
      (r.1 ++ ps, s)
    | none => r) ([], s)
  let p := s.cmdPurpose q
  let s := s.modCur q fun c => { c with bytesOut := ps.foldl (fun a e => a + e.2.1.length) 0, bytesIn := ps.foldl (fun a e => a + e.2.1.length) 0 }
  ps.foldl (fun s e => s.sendBytes q.node q.blk (s.queueTag q) e.1 e.2.1 e.2.2 true p) (s.awaitPackets q ps.length)

/-- What R294 and R292 check before anything is sent: the home heft and the select. -/
def State.dispatchReady (s : State) (q : QueueRef) (d : Nat) : Option (Heft × Select) :=
  match s.heftIn q.node q.blk (dTag d) (bits d 128 12), s.selectAt q (bits d 168 24) with
  | some h, some x =>
    let fits := (List.range 12).all fun i => match s.handle? q.node q.blk (bits d 140 6 + i) with
      | some e => e.granted && decide (bits d 152 12 * (h.rowSize + 32) ≤ e.units * 4096)
      | none => false
    if h.hasRow x.tokens && fits && s.inHefts q (bits d 168 24) (64 * x.tokens) && s.inHefts q (bits d 192 24) (2 * x.tokens) then some (h, x) else none
  | _, _ => none

/-- The row a record names (R419 function 3). -/
def Choice.named (c : Choice) : Option Nat := if c.dropped || decide (12 ≤ c.row) then none else some c.row

/-- The gate unit dispatches by MAP, or by what the records name. -/
def State.dispatch (s : State) (q : QueueRef) (d : Nat) (byRecords : Bool) : State :=
  match s.dispatchReady q d with
  | none => s.endCmd q .accessFault
  | some (h, x) =>
    let pens := (List.range 12).filterMap fun i => s.handle? q.node q.blk (bits d 140 6 + i)
    match pens.find? (·.revoked) with
    | some e => s.endCmd q e.cause
    | none =>
      if byRecords then s.dispatchBy q d h x Choice.named
      else
        let (st, map, s) := s.get (s.engine q) (bits d 216 48) x.experts
        if st ≠ .done then s.stopCmd q st
        else if map.any fun b => decide (12 ≤ b.toNat) && b.toNat != 255 then s.endCmd q .accessFault
        else s.dispatchBy q d h x fun c => let r := (map.getD c.expert 255).toNat; if r < 12 then some r else none

/-- In host-assisted mode a dispatch posts a task carrying REC_OFF and STATUS_OFF, and waits for the host's assignment (R184, R419 function 3; log
entry 17). -/
def State.askDispatch (s : State) (q : QueueRef) (d : Nat) : State :=
  let tag := s.queueTag q
  let rec' := packFields [(64, 64, bits d 168 24 + bits d 192 24 * 2 ^ 24), (208, 6, tag), (216, 10, q.node), (226, 2, q.blk)]
  let (st, s) := s.postTask s.master (some q) tag rec' true
  if st ≠ .done then s.dispatch q d false
  else (s.modCur q fun c => { c with wait := .assist }).ask 3 q.node (pageOf .gtu q.node q.blk) (bits d 168 24) 0 (.dispatch q)

/-- The handles of GTE_DISPATCH: row r uses PEN_FIRST + r (R225). -/
def dispatchHandles (d : Nat) : List Nat := (List.range 12).map (· + bits d 140 6)

/-- GTE_DISPATCH (R227, R294-R296). -/
def execGteDispatch (q : QueueRef) (s : State) : Out :=
  s.startHead q [0x41] (fun s d => decide (bits d 140 6 ≤ 52) && s.handlesHeld q (dispatchHandles d)) fun s d =>
    if (s.dispatchReady q d).isSome && s.hostDuty q.node (pageOf .gtu q.node q.blk) 3 then s.askDispatch q d else s.dispatch q d false

/-- FP32 codes of a block of 32 elements of a row (R110). -/
def rowBlock (f : Nat) (str scale : Nat) : List Nat :=
  if f < 6 then dequantise f 0 (str + scale * 2 ^ 512)
  else (List.range 32).map fun i => match f with
    | 8 => convert bf16 f32 (bits str (16 * i) 16)
    | 9 => convert f16 f32 (bits str (16 * i) 16)
    | _ => bits str (32 * i) 32

/-- The string and scale of 32 FP32 codes in a format (R110-R113): also elements saturated, and whether the scale was clamped. -/
def packBlock (f : Nat) (vals : List Nat) : List Byte × List Byte × Nat × Bool :=
  if f < 6 then
    let qz := quantise f vals false none
    let v := (quantReg f qz).toNat
    (leBytes (blockBytes f) (v % 2 ^ (8 * blockBytes f)), leBytes 1 qz.scale, qz.sat, qz.clamp)
  else
    let enc := fun (x : Nat) => match f with
      | 8 => leBytes 2 (convert f32 bf16 x) | 9 => leBytes 2 (convert f32 f16 x) | _ => leBytes 4 x
    (vals.flatMap enc, [], 0, false)

/-- The result of pair (t, j) for k-tile `k`: FP32 codes (R296, R303). -/
def State.resultBlock (s : State) (q : QueueRef) (h : Heft) (base k : Nat) : List Nat × Bool × State :=
  let b := blockBytes h.format
  let (str, p, s) := s.readBlk q.node q.blk (base + k * b) b
  if h.format < 6 then
    let (sc, p', s) := s.readBlk q.node q.blk (base + h.kTiles * b + k) 1
    (rowBlock h.format (leNat str) (leNat sc), p || p', s)
  else (rowBlock h.format (leNat str) 0, p, s)

/-- One block of a token's output (R303-R304): the sum in choice order, written into the token's row. -/
def State.combineBlock (s : State) (q : QueueRef) (h : Heft) (x : Select) (inOff t k : Nat) (cs : List Choice) (skip : Bool) : State :=
  let zero : List Nat := List.replicate 32 0
  let use := if skip then [] else ((cs.zip (List.range 8)).take x.k).filter fun c => c.1.valid && !c.1.dropped
  let (y, bad, s) := use.foldl (fun (r : List Nat × Bool × State) c =>
    let (v, p, s) := r.2.2.resultBlock q h (inOff + (t * x.k + c.2) * h.rowSize) k
    ((v.zip r.1).map fun e => fma32 c.1.weight e.1 e.2, r.2.1 || p, s)) (zero, false, s)
  let (str, sc, sat, clamp) := packBlock h.format y
  let s := s.numNotes q.node q.blk sat clamp false
  let at' := h.offset * 4096 + (t / 32 * h.kTiles + k) * Sys2Proof.Machine.actTile h.format
  let s := s.writeBlk q.node q.blk (at' + t % 32 * blockBytes h.format) (allOn str) bad
  let s := if sc.isEmpty then s else s.writeBlk q.node q.blk (at' + 32 * blockBytes h.format + t % 32) (allOn sc) bad
  if bad then s.condition q .poisoned else s

/-- GTE_COMBINE's execution (R303-R304). -/
def State.runCombine (s : State) (q : QueueRef) (d : Nat) : State :=
  match s.heftIn q.node q.blk (dTag d) (bits d 128 12), s.selectAt q (bits d 168 24) with
  | some h, some x =>
    if !h.hasRow x.tokens || !s.inHefts q (bits d 168 24) (64 * x.tokens) || !s.inHefts q (bits d 192 24) (2 * x.tokens)
        || decide (0x600000 < bits d 144 24 + x.tokens * x.k * h.rowSize)
        || !s.mayReadAS (s.engine q) q.node q.blk (bits d 144 24) (x.tokens * x.k * h.rowSize) then s.endCmd q .accessFault
    else
      let (recs, bad, s) := s.readChoices q x
      let s := if bad then s.condition q .poisoned else s
      let s := (List.range x.tokens).foldl (fun s t =>
        let skip := leftOut (s.statusEntry q (bits d 192 24) t)
        (List.range h.kTiles).foldl (fun s k => s.combineBlock q h x (bits d 144 24) t k (recs.getD t []) skip) s) s
      (s.modCur q fun c => { c with bytesOut := x.tokens * h.rowBytes }).endCmd q .done
  | _, _ => s.endCmd q .accessFault

/-- GTE_COMBINE (R303): OUT_FMT must be the heft's FORMAT. -/
def execGteCombine (q : QueueRef) (s : State) : Out :=
  s.startHead q [0x42] (fun s d => match s.heftIn q.node q.blk (dTag d) (bits d 128 12) with
    | some h => h.format == bits d 216 4
    | none => true) fun s d => s.runCombine q d

/-- The tally packets of one destination row: for each of its two edge dies, 128 experts at a time (R297). A die whose queues the other end
walks gets none. -/
def State.tallyPackets (s : State) (q : QueueRef) (d row : Nat) (pairs : List (Nat × Nat)) : List Packet :=
  let n := bits d 128 10 + 1
  let dies := [156 + row, 168 + row].filter fun x => s.servedBy x == x
  let mine := (pairs.filter fun p => p.1 == row && decide (p.2 < n)).map (·.2)
  dies.flatMap fun die => (List.range 8).filterMap fun c =>
    let es := mine.filter fun e => e / 128 == c
    if es.isEmpty then none else
    let len := (4 * min 128 (n - 128 * c) + 63) / 64
    let counts := (List.range (16 * len)).map fun i => (es.filter fun e => e % 128 == i).length
    some { op := .atomicAdd, cls := 2, len := len, srcUnit := q.blk, jobTag := s.queueTag q, addr := tallyAddr die,
           oparg0 := bits d 144 16 + dSignal d * 2 ^ 16, oparg1 := 128 * c, payload := counts.flatMap (leBytes 4) }

/-- GTE_TALLY's execution (R297): the pairs dispatched and not dropped, by destination row and expert. -/
def State.runTally (s : State) (q : QueueRef) (d : Nat) : State :=
  match s.selectAt q (bits d 160 24) with
  | none => s.endCmd q .accessFault
  | some x =>
    if !s.inHefts q (bits d 160 24) (64 * x.tokens) then s.endCmd q .accessFault else
    let (recs, bad, s) := s.readChoices q x
    let pairs := recs.flatMap fun cs => ((cs.take x.k).filter fun c => c.valid && !c.dropped && decide (c.row < 12)).map fun c => (c.row, c.expert)
    let ps := (List.range 12).flatMap fun r => s.tallyPackets q d r pairs
    let p := s.cmdPurpose q
    let s := (s.condition q (if bad then .poisoned else .done)).awaitPackets q ps.length
    ps.foldl (fun s x => s.request q.node x p) s

/-- GTE_TALLY (R297): HURDLE_SIGNAL names a panel or job hurdle. -/
def execGteTally (q : QueueRef) (s : State) : Out :=
  s.startHead q [0x43] (fun _ d => hurdleScope (dSignal d) == 5 || hurdleScope (dSignal d) == 6) fun s d => s.runTally q d

end Sys2Proof.Machine
end

