-- ==== Sys2Proof/Machine/Regions.lean ====
section
/-!
DEFINITION. What stops, gates, resets and starts a region or a block (R28, R195, R208-R210, R400, R445-R446, R458, R464, R522-R523).
-/
namespace Sys2Proof.Machine

/-- A region's power state changes, and the change is recorded (R471, R538 code 0x30). -/
def State.setPwr (s : State) (node v : Nat) : State :=
  let old := s.fld F.pwrStat_state node
  let s := if old = v then s else s.event ⟨node, pageOf .pwr node 0, 0x3F, none⟩ 6 0x30 0 (old + 8 * v)
  s.put F.pwrStat_state node 0 0 v

/-- Change the plant. -/
def State.modPlant (s : State) (f : Plant → Plant) : State := { s with plant := f s.plant }

/-- The pages of a block's units. -/
def blockPages (node blk : Nat) : List Nat := [pageOf .blk node blk, pageOf .mxc node blk, pageOf .vxc node blk, pageOf .gtu node blk]

/-- The pages of a region's core domain: its own and its blocks'. -/
def corePages (node : Nat) : List Nat := 0 :: [0, 1, 2, 3].flatMap (blockPages node)

/-- Move units to a state; one that is retired stays so (R400). -/
def State.movePages (s : State) (node : Nat) (ps : List Nat) (u : UState) : State :=
  ps.foldl (fun s p => if s.unit node p = .retired ∨ s.unit node p = u then s else s.moveUnit node p u) s

/-- The registers of a page in the order of the list. -/
def pageRegs (k : PageKind) : List Reg := allRegs.filter fun r => r.place.kind == k || (r.place.kind == .header && hasHeader k)

/-- A register with the fields that a reset of its unit clears at their reset values (R522); UNIT_STAT is moved by itself. -/
def clearedWord (r : Reg) (w rst : Word) : Word :=
  r.fields.foldl (fun w f => if f.keep then w else wordPut w f.lo f.width (wordField rst f.lo f.width)) w

/-- The registers of a page are cleared by its unit's reset (R522): the fields marked "cleared by compute reset". -/
def State.clearPage (s : State) (node page : Nat) : State :=
  match pageKind node page with
  | none => s
  | some (k, b) =>
    (pageRegs k).foldl (fun s r =>
      let i0 := if r.place.kind == .header then page else b
      if r == .unitStat || r.fields.all (·.keep) then s else
      (List.range r.place.count).foldl (fun s i =>
        match Sparse.find? s.regs (r.key node i0 i) with
        | some w => s.setWord r node i0 i (clearedWord r w (resetWord r node i0 i))
        | none => s) s) s

/-- The outstanding requests of a region's units that satisfy `mine` end (R69, R210): replies count as orphans, a pen that is granted yet is
released by the router. -/
def State.orphanRequests (s : State) (node : Nat) (mine : Request → Bool) : State :=
  { s with outstanding := s.outstanding.filterMap fun r =>
      if r.node != node || !mine r then some r else match r.purpose with
      | .penQueue _ => some { r with purpose := .penOrphan }
      | .penOrphan | .mgmt _ => some r
      | _ => none }

/-- The lists in a unit's queues end without their commands being completed; their jobs go on to end (R200, R239). -/
def State.killQueues (s : State) (node blk : Nat) : State :=
  (unitQueues node blk).foldl (fun s q =>
    let x := s.queue q
    let tags := x.tag.toList ++ x.backlog.map (·.1)
    let s := tags.foldl (fun s t => s.modJob t fun j => j.modList q fun l => if l.done then l else { l with stopped := true }) s
    let s := if x = {} then s else s.setQueue q { records := 0 }
    tags.foldl (fun s t => (s.jobEnd t).jobSettle t) s) s

/-- Jobs with a list in some queue that satisfies `p` abort with the status (R239, R458, R487, R522). -/
def State.abortWhere (s : State) (p : QueueRef → Bool) (st : Status) : State :=
  s.jobs.foldl (fun s e => if e.2.lists.any (fun l => p l.q) then s.abortJob e.1 st else s) s

/-- A block as it stands after its cells lose their state: what the fuses, rounds and scrubber have found of it stays (R142, R193). -/
def Block.cleared (b : Block) : Block :=
  { singles := b.singles, pass := b.pass, spares := b.spares, remapped := b.remapped, order := b.order, vecOrder := b.vecOrder }

/-- A block stops working (R208-R210): its commands are abandoned, pens held in its pool are revoked and pending requests answered with the
status, pens it holds are released, its requests end. -/
def State.dropBlock (s : State) (node blk : Nat) (st : Status) : State :=
  let s := ((s.penDrain node blk st).penRevoke node blk st).releaseHolders node blk
  let s := s.orphanRequests node fun r => r.unit == blk || r.unit == 0x40 + blk
  let s := s.killQueues node blk
  (s.modBlock node blk fun b => { b.cleared with tallies := b.tallies }).showVec node blk

/-- Requests that wait in a region's reservoir are answered; replies are dropped and counted (R69). -/
def State.emptyReservoir (s : State) (node : Nat) (st : Status) : State :=
  let held := (s.router node).reservoir
  let s := s.modRouter node fun r => { r with reservoir := [], orphans := r.orphans + (held.filter fun p => !p.op.isRequest).length }
  held.foldl (fun s p => if p.op.isRequest then s.answer node p st else s) s

/-- The whole region stops working with a status, and its folds pass on poisoned (R80). -/
def State.dropRegion (s : State) (node : Nat) (st : Status) : State :=
  let s := s.abortWhere (fun q => q.node == node) st
  let s := [0, 1, 2, 3].foldl (fun s b => s.dropBlock node b st) s
  (s.emptyReservoir node st).flushFolds node

/-- A block's window loses its contents: the stores, local memories and control-core data memory hold free values, no mark stays (R195, R464); codebooks and
curve tables read 0 (R96, R165). The control-core image comes back from the retained copy. -/
def State.loseWindow (s : State) (node blk : Nat) : State :=
  let a := blkKeyAt node blk 0
  let d := s.freeCount
  let m := [(0, 0x600000), (0x1000000, 0x300000), (0x2000000, 0x200000), (0x3000000, 0xE0000), (0x3800000, 0x40000), (0x3910000, 0x10000)].foldl
    (fun (m : Mem) r => (m.zero (a + r.1) r.2).undefine (a + r.1) r.2 d) s.mem
  { s with mem := m, freeCount := d + 1 }.modBlock node blk fun b => { b with books := [], curves := [], badCurves := [] }

/-- The headers of a region's blocks open (R445): what the blocks held is lost. -/
def State.gateRegion (s : State) (node : Nat) : State :=
  let s := [0, 1, 2, 3].foldl (fun s b => (s.penReset node b).loseWindow node b) s
  let s := s.put F.pwrDeficit_accum node 0 0 (s.accumNow node)
  (((s.put F.clkStat_freq node 0 0 0).put F.clkStat_changing node 0 0 0).put F.pwrDeficit_steps node 0 0 0).modPow node fun p =>
    { p with freq := 0, changing := none, computed := s.now }

/-- The slots of a block fitted to the cells that are not retired (R134-R136, R142): the first retired cell's slot goes to MX32; with one cell retired
every other slot keeps its cell, with two the rotation carries all slots. -/
def State.fitCells (s : State) (node blk : Nat) : State :=
  let gone := setBits 33 (s.fld F.mxcRetired_mask node blk)
  match gone with
  | [] => s
  | c :: rest =>
    let map := (List.range 32).map fun i => if i = c then 32 else i
    let s := (s.put F.mxcRoundsStat_sliced node blk 0 1).put F.mxcRoundsStat_retiredCount node blk 0 (min gone.length 2)
    let s := (List.range 4).foldl (fun s m => s.setWord .mxcSlotMap node blk m (BitVec.ofNat 64 ((List.range 8).foldl (fun w j =>
      putBits w (6 * j) 6 (if rest = [] then map.getD (8 * m + j) 0x3F else 0x3F)) 0))) s
    (s.modBlock node blk fun b => { b with slotCells := map, sliceStart := s.now, slices := 0, sliceNext := c }).setOut node blk 0x3F

/-- Breakpoint state of a block after its reset (R540-R541): nothing held; CTLBRK_EN stays. -/
def State.clearBreak (s : State) (node blk : Nat) : State :=
  [F.dbgBrk_state, F.dbgBrk_bp, F.dbgBrk_byCtl, F.dbgBrk_code, F.dbgBrk_heldQ].foldl (fun s f => s.put f node 0 blk 0) s

/-- A block is reset (R523): its cells are cleared, codebooks, curve tables, control-core data memory and completion rings read 0, and the fields
of its pages that a reset clears. -/
def State.resetBlock (s : State) (node blk : Nat) : State :=
  let s := { s with mem := s.mem.zero (blkKeyAt node blk 0x3910000) 0x10000 }
  let s := (s.modBlock node blk Block.cleared).penReset node blk
  (((blockPages node blk).foldl (fun s p => s.clearPage node p) s).clearBreak node blk).showVec node blk

/-- A block enters running (R131, R170, R178, R194): rounds, scrub and scalar tests start. -/
def State.startBlock (s : State) (node blk : Nat) : State :=
  let s := s.movePages node (blockPages node blk) .running
  let s := (s.put F.vxcStat_testCell node blk 0 15).modBlock node blk fun b =>
    { b with vecStart := s.now, vecTests := 0, vecLast := none, vecFailedOnce := false, vecExtra := false, sxTested := s.now, sxFailedOnce := false,
             scrubStart := s.now, scrubSlot := 0, stopped := false }
  let s := ((s.fitCells node blk).showVec node blk).penResume node blk
  if s.flag F.mxcRoundsCtrl_enable node blk then s.startRounds node blk else s.showOut node blk

/-- The highest fused point that the die reaches at or below a frequency; OP0 where there is none (R448, R475). -/
def pointBelow (f : Nat) : Nat := (firstBelow 16 fun i => decide (opFreq (15 - i) ≤ f)).elim 0 fun i => 15 - i

/-- The lowest point at or above a frequency (R448, R471). -/
def pointAbove (f : Nat) : Nat := (firstBelow 16 fun i => decide (f ≤ opFreq i)).getD 15

/-- A region's clock runs at a frequency. -/
def State.setFreq (s : State) (node f : Nat) : State :=
  ((s.put F.clkStat_freq node 0 0 f).put F.pwrStat_op node 0 0 (pointAbove f)).modPow node fun p => { p with freq := f }

/-- A reset of a region overrules what the cell and block level has decided and not yet done (R31): verdicts still asked for, retirements still to come. -/
def State.overrule (s : State) (node : Nat) : State :=
  let mine := fun (r : Retire) => r.lower && r.node == node
  let asked := (s.asks ++ s.assists).filterMap fun a => match a.what with | .retire r => if mine r then some r else none | _ => none
  let keep := fun (a : Assist) => match a.what with | .retire r => !mine r | _ => true
  let gone := asked ++ s.retiring.filter mine
  gone.foldl State.holdBack { s with asks := s.asks.filter keep, assists := s.assists.filter keep, retiring := s.retiring.filter fun r => !mine r }

/-- The retirements kept over a region's reset are carried out (R31, R137): a cell's at once, a block's by its region. -/
def State.applyHeld (s : State) (node : Nat) : State :=
  let held := s.heldBack.filter fun r => r.node == node
  held.foldl (fun s r => match r with
    | .matrixCell n b c sev count rounds => s.retireCell n b c (if sev = 0 then .ce else .de) count rounds
    | .vectorCell n b c count => s.retireVecCell n b c count
    | r => s.toRetire r) { s with heldBack := s.heldBack.filter fun r => r.node != node }

/-- A region enters running (R400, R446): the core runs at OP10 until its controller sets another target. -/
def State.startRegion (s : State) (node : Nat) : State :=
  let s := s.movePages node (corePages node) .running
  let s := (corePages node).foldl (fun s p => s.put F.unitCtrl_enable node p 0 1) s
  let s := (s.setFreq node (opFreq 10)).put F.clkStat_target node 0 0 (opFreq 10)
  let s := s.modPow node fun p => { p with busy := s.now, idle := none, wake := none, changing := none, computed := s.now }
  ((List.range 4).foldl (fun s b => s.startBlock node b) s).applyHeld node

/-- A power-up wave of one for a region (R446): 20 ms after any wave in progress; the region starts. -/
def State.wave (s : State) (node : Nat) : State :=
  let done := max s.now s.plant.waveEnd + 20 * ms
  let s := (s.modPlant fun p => { p with waveEnd := done }).modPow node fun p => { p with upAt := done }
  s.movePages node (corePages node) .starting

/-- A region stops for a fault of its rail, its clock or its temperature (R432, R443, R458): no drain, pens revoked at once, its core gated. -/
def State.stopRegion (s : State) (node : Nat) : State :=
  ((s.dropRegion node .targetResetting).gateRegion node).movePages node (corePages node) .off

/-- A stopped region comes back in a wave of one, unless it has been classified (R446, R484). -/
def State.restartRegion (s : State) (node : Nat) : State :=
  ((List.range 4).foldl (fun s b => s.resetBlock node b) s).wave node

/-- A region stop counts for its classification (R483-R484): the limit-th within 24 hours retires it; else it restarts at once where `again`. -/
def State.countStop (s : State) (node page kind errBit limit : Nat) (again : Bool) : State :=
  let (c, s) := s.countEvent (eventKey kind node) (86400 * sec)
  if limit ≤ c then
    s.classified node 0 errBit (.region node page errBit c) fun s => s.toRetire (.region node page errBit c)
  else if again then s.restartRegion node else s

/-- A stop of an edge die's drove engine or stack controller, or of the die's rail or PLL (R484): the limit-th within 24 hours retires the die. -/
def State.countEdge (s : State) (node limit detail : Nat) : State :=
  let s := s.error ⟨node, 0, 0x3F, none⟩ 29 .ueUnit 0 detail
  let (c, s) := s.countEvent (eventKey 11 node) (86400 * sec)
  let known := s.retiring.any fun x => match x with | .edge k .. => k == node | _ => false
  if limit ≤ c ∧ !known ∧ s.unit node 0 ≠ .retired then
    s.classified node 0 29 (.edge node 0 29 c) fun s => s.toRetire (.edge node 0 29 c)
  else s

end Sys2Proof.Machine
end

