-- ==== Sys2Proof/Machine/Stacks.lean ====
section
/-!
DEFINITION. Stacked memory (ch. 10): mirror writes, temperature, scrub, training fall-back and failure; what a change of placement does.
-/
namespace Sys2Proof.Machine

/-- The controller of a stack, beside its registers. -/
def State.stack (s : State) (st : Nat) : Stack := Sparse.get {} s.hbm st

/-- Replace it. -/
def State.setStack (s : State) (st : Nat) (x : Stack) : State := { s with hbm := Sparse.set s.hbm st x }

/-- SRC_UNIT of a stack controller's mirror writes (log entry 8). -/
def mirrorUnit : Nat := 1

/-- The primary stack a mirror write comes from: it is sent from the primary's edge die to its partner's (R317). -/
def mirrorSource (p : Packet) : Option Nat :=
  if p.op == .write && isEdge p.src && p.srcUnit == mirrorUnit && p.dest == 156 + partner (p.src - 156) then some (p.src - 156) else none

/-- A primary controller forwards a mirror write for a write it has applied (R317): the original request `orig` completes with it. -/
def State.sendMirror (s : State) (st : Nat) (p orig : Packet) : State :=
  let (t, s) := s.freshTxn
  let node := 156 + st
  let m := { p with src := node, dest := 156 + partner st, srcUnit := mirrorUnit, txn := t, epoch := s.fld F.rtrEpoch_injEpoch node,
                    injTime := s.timeAt node, vch := 0, hops := 0, detoured := false }
  let r : Request := ⟨node, t, .mirror orig, .write, m.dest, mirrorUnit, p.jobTag, p.addr, s.now⟩
  { s with outstanding := s.outstanding ++ [r] }.launch node m

/-- MIRROR_WRITE (R317): the partner's controller applies it in its upper half and acknowledges it. -/
def execMirrorWrite (p : Packet) (s : State) : Out :=
  match mirrorSource p with
  | none => .refused .noSuch
  | some st =>
    need (!s.ahead p) .notDue <|
    match s.arrive p.dest p with
    | (none, s) => .next s
    | (some p, s) =>
      match s.stackAnswer (partner st) with
      | .status x => .next (s.answer p.dest p x)
      | .holds => .next (s.hold p.dest p)
      | .serves =>
        .next ((s.writeStackCopy (partner st) (halfStack + p.addr % halfStack) p.named p.poison).answer p.dest p
          (if p.poison then .poisoned else .done))

/-- The threshold of a level of R322, in °C. -/
def stackLimit (level : Nat) : Nat := 75 + 10 * level

/-- STACK_TEMP_READ (R322): every 1 ms; a level is entered above its threshold and left once the temperature has stayed 3 °C below it for
10 ms. Going above 95 °C is logged, going above 105 °C raises ALERT_N. The corrections that the stack reports with it, a free number, are
counted (R310, R329; log entry 137). -/
def execStackTempRead (st temp : Nat) (s : State) : Out :=
  need (decide (st < 24)) .noSuch <|
  let n := 156 + st
  let x := s.stack st
  need (s.fld F.hbmStat_state n != 0) .wrongState <|
  need (match x.read with | some t => decide (t + ms ≤ s.now) | none => true) .notDue <|
  let old := s.fld F.hbmStat_therm n
  let cool := [1, 2, 3].filterMap fun l =>
    if temp + 3 ≤ stackLimit l then some (l, Sparse.get s.now x.cool l) else none
  let up := if stackLimit 3 < temp then 3 else if stackLimit 2 < temp then 2 else if stackLimit 1 < temp then 1 else 0
  let cleared := fun l => match Sparse.find? cool l with | some t => decide (t + 10 * ms ≤ s.now) | none => false
  let kept := ([1, 2, 3].filter fun l => decide (l ≤ old) && !cleared l).foldl max 0
  let level := max up kept
  let s := (s.setStack st { x with read := some s.now, cool := cool }).put F.hbmStat_temp n 0 0 temp
  let s := (s.put F.hbmStat_therm n 0 0 level).bump F.hbmScrub_odeccCount n 0 0 (Config.freeWord s.freeCount).toNat
  let s := { s with freeCount := s.freeCount + 1 }
  let s := if 2 ≤ level ∧ old < 2 then s.error ⟨n, pageOf .hbm n 0, 0x3F, none⟩ 19 .ce 0 temp else s
  .next (if level = 3 ∧ old < 3 then s.alert else s)

/-- The length of a scrub pass (R320), in units of 250 ps. -/
def State.passTime (s : State) : Nat := s.fld F.hubMemcfg_scrubHours 180 * 3600 * sec

/-- The time self-refresh has added to the pass (R321). -/
def State.passExtra (s : State) (st : Nat) : Nat :=
  let x := s.stack st
  x.extra + (match x.resting with | some t => s.now - t | none => 0)

/-- The scrubber reads every sector: each latent error of the stack is found (R318, R320). -/
def State.scrubStack (s : State) (st : Nat) : State :=
  let lo := st * stackSize
  ((s.mem.latent.map (·.1)).filter fun g => decide (lo ≤ g) && decide (g < lo + stackSize)).foldl (fun s g => (s.readStack st (g - lo) 32).2.2) s

/-- STACK_SCRUB_PASS (R320): at the scheduled time the pass under way, in which every sector has been read, has ended, and the next starts. -/
def execStackScrubPass (st : Nat) (s : State) : Out :=
  need (decide (st < 24)) .noSuch <|
  let n := 156 + st
  need (s.fld F.hbmStat_state n == 2) .wrongState <|
  let start := fun (s : State) =>
    ((s.setStack st { s.stack st with pass := some s.now, extra := 0 }).put F.hbmScrub_progress n 0 0 0).put F.hbmScrub_forced n 0 0 0
  match (s.stack st).pass with
  | none => .next (start s)
  | some t => need (decide (t + s.passTime + s.passExtra st ≤ s.now)) .notDue <|
    .next (start ((s.scrubStack st).count F.hbmScrub_passes n 0 0))

/-- SCRUB_AT_RISK (R321): the time left is at most the unscrubbed bytes over 20.48 GB/s, plus 10 s; `done` sectors have been scrubbed. -/
def execScrubAtRisk (st done : Nat) (s : State) : Out :=
  need (decide (st < 24) && decide (done ≤ stackSize / 32)) .noSuch <|
  let n := 156 + st
  match (s.stack st).pass with
  | none => .refused .wrongState
  | some t =>
    need (s.fld F.hbmStat_state n == 2 && !s.flag F.hbmScrub_forced n && decide (s.fld F.hbmScrub_progress n ≤ done)) .wrongState <|
    -- 20.48 GB/s is 5.12 bytes a unit of 250 ps
    need (decide ((t + s.passTime + s.passExtra st - s.now) * 512 ≤ (stackSize - 32 * done) * 100 + 10 * sec * 512)) .notDue <|
    .next ((s.put F.hbmScrub_progress n 0 0 done).put F.hbmScrub_forced n 0 0 1)

/-- The requests for a stack that its edge die holds, and mirror writes to or of it, once it fails (R317, R325): held and accepted requests
complete TARGET_RETIRED; a mirror write in flight is dropped and its write completes DONE. -/
def State.failRequests (s : State) (st : Nat) : State :=
  let n := 156 + st
  let isStack := fun (p : Packet) => decide (p.addr < 0x9000000000)
  let held := (s.router n).reservoir.filter isStack
  let s := s.modRouter n fun r => { r with reservoir := r.reservoir.filter fun p => !isStack p }
  let s := held.foldl (fun s p => if p.op.isRequest && (mirrorSource p).isNone then s.answer n p .targetRetired else s) s
  let mirrored := s.outstanding.filter fun r => match r.purpose with
    | .mirror _ => r.node == n || r.dest == n | _ => false
  let s := { s with outstanding := s.outstanding.filter (fun r => !mirrored.contains r) }.sift fun p => mirrorSource p != some (partner st)
  mirrored.foldl (fun s r => match r.purpose with
    | .mirror orig => s.answer r.node orig (if r.node = n then .targetRetired else if orig.poison then .poisoned else .done)
    | _ => s) s

/-- A stack fails (R325): STATE, the entry of severity UE-unit, the answers, and in paired placement with the partner intact the change of the
stack map. -/
def State.failStack (s : State) (st : Nat) (cause : StackCause) (count : Nat) : State :=
  let n := 156 + st
  let at' : Site := ⟨n, pageOf .hbm n 0, 0x3F, none⟩
  let s := s.put F.hbmStat_state n 0 0 4
  let s := match cause with
    | .classified => s.retirement at' 20 .ueUnit 0x0A count
    | _ => s.error at' 20 .ueUnit 0 st
  let s := (s.moveUnit n at'.page .retired).failRequests st
  if s.stackFailed (partner st) then
    if s.paired then (s.put F.hbmStat_mirror n 0 0 3).put F.hbmStat_mirror (156 + partner st) 0 0 3 else s
  else if s.paired then { s with changes := { s.changes with stackMap := s.changes.stackMap ++ [(st, 156 + partner st)] } }
  else s

/-- STACK_FAIL (R325): training failed at both rates, the controller stopped (which also counts against its edge die, R484), or the stack
has been classified permanent. -/
def execStackFail (st : Nat) (cause : StackCause) (s : State) : Out :=
  need (decide (st < 24)) .noSuch <|
  need (!s.stackFailed st) .wrongState <|
  let n := 156 + st
  match cause with
  | .training => need (s.fld F.hbmStat_state n == 1) .wrongState <| .next (s.failStack st cause 0)
  | .stopped =>
    need (s.fld F.hbmStat_state n != 0) .wrongState <|
    let s := s.error ⟨n, 0, 0x3F, none⟩ 29 .ueUnit 0 3
    let (c, s) := s.countEvent (eventKey 11 n) (86400 * sec)
    let s := if 2 ≤ c then s.classified n 0 29 (.edge n 0 29 c) fun s => s.toRetire (.edge n 0 29 c) else s
    .next (s.failStack st cause 0)
  | .classified =>
    match s.retiring.find? (fun r => match r with | .stack k _ => k == st | _ => false) with
    | some (.stack k c) => .next ({ s with retiring := s.retiring.erase (.stack k c) }.failStack st cause c)
    | _ => .refused .wrongState

/-- STACK_TRAIN_FALLBACK (R311): a stack that failed training at 8.0 Gb/s is trained at 6.4 Gb/s: it serves at that rate, or it fails. -/
def execStackTrainFallback (st : Nat) (ok : Bool) (s : State) : Out :=
  need (decide (st < 24)) .noSuch <|
  let n := 156 + st
  need (s.fld F.hbmStat_state n == 1) .wrongState <|
  if ok then
    let s := ((s.put F.hbmStat_state n 0 0 2).put F.hbmStat_rate6g4 n 0 0 1).error ⟨n, pageOf .hbm n 0, 0x3F, none⟩ 19 .ce 0 64
    .next ((s.moveUnit n (pageOf .hbm n 0) .running).setStack st { s.stack st with pass := some s.now })
  else .next (s.failStack st .training 0)

/-- HUB_MEMCFG refuses a change of PLACEMENT while a job is live, and a pass length of 0 or above 168 hours (R316, R326). -/
def State.refusesMemcfg (s : State) (old new : Word) : Bool :=
  let live := s.jobs.any fun j => j.2.state != .completed
  (wordField old 0 1 != wordField new 0 1 && live) ||
    (wordField old 8 8 != wordField new 8 8 && (wordField new 8 8 == 0 || decide (168 < wordField new 8 8)))

/-- A change of placement (R316): the contents of the whole stack range become undefined; the stack map follows the placement for failed
stacks (R325). -/
def State.onMemcfg (s : State) (old : Word) : State :=
  if wordField old 0 1 = s.fld F.hubMemcfg_placement 180 then s else
  let s := { s with mem := s.mem.undefine 0 (24 * stackSize) s.freeCount, freeCount := s.freeCount + 1 }
  let moved := (allBelow 24 fun st => s.stackFailed st && !s.stackFailed (partner st)).map fun st =>
    (st, if s.paired then 156 + partner st else 156 + st)
  { s.showMirror with changes := { s.changes with stackMap := s.changes.stackMap ++ moved } }

/-- A stack enters self-refresh (R323): for Panel Standby, a panel stop, or a reset of its controller. -/
def State.restStack (s : State) (st : Nat) : State :=
  if s.fld F.hbmStat_state (156 + st) = 2 then
    (s.put F.hbmStat_state (156 + st) 0 0 3).setStack st { s.stack st with resting := some s.now }
  else s

/-- A stack leaves self-refresh; the time it has rested extends its pass (R321, R323). The requests held for it are served. -/
def State.wakeStack (s : State) (st : Nat) : State :=
  if s.fld F.hbmStat_state (156 + st) = 3 then
    let n := 156 + st
    let s := (s.put F.hbmStat_state n 0 0 2).setStack st { s.stack st with extra := s.passExtra st, resting := none }
    let held := (s.router n).reservoir
    { s.modRouter n (fun r => { r with reservoir := [] }) with fabric := s.fabric ++ held }
  else s

end Sys2Proof.Machine
end

