-- ==== Sys2Proof/Machine/PanelStop.lean ====
section
/-!
DEFINITION. The stop of the panel (R459) and the pins and signals it raises.
-/
namespace Sys2Proof.Machine

/-- The regions that serve (R43). -/
def State.active (s : State) : List Nat := allBelow 156 fun n => s.role n == 0

/-- FAN_REQ (R460, R476). -/
def State.fan (s : State) (duty : Nat) : State := s.put F.hubForecast_fanReq 180 0 0 duty

/-- FAULT_N asserts. -/
def State.fault (s : State) : State := s.modPlant fun p => { p with faultN := true }

/-- The entry of a panel stop: where it was found, its class (R481, R556). -/
def State.stopEntry (s : State) (c : StopCause) (node detail : Nat) : State :=
  let pwr := if isHub node then pageOf .pwrHub node 0 else pageOf .pwr node 0
  match c with
  | .thermal | .airflow => s.error ⟨node, pwr, 0x3F, none⟩ 26 .uePanel 0 detail
  | .rail | .vaon _ => s.error ⟨node, pwr, 0x3F, none⟩ 24 .uePanel 0 detail
  | .clocks => s.error ⟨node, pageOf .clk node 0, 0x3F, none⟩ 27 .uePanel 0 detail

/-- The panel stops (R459): jobs abort, cores gate and their commands are abandoned, headers open, stacks enter self-refresh, UP bundles linger. -/
def State.panelStop (s : State) (c : StopCause) (node detail : Nat) : State :=
  let s := s.stopEntry c node detail
  let s := s.abortWhere (fun _ => true) .targetResetting
  let s := s.active.foldl (fun s n => (s.stopRegion n).setPwr n 0) s
  let s := (List.range 24).foldl (fun s st => if s.stackFailed st then s else s.restStack st) s
  let s := (List.range 24).foldl (fun s e => (List.range 5).foldl (fun s b =>
    if s.linkState (156 + e) b = .up then s.startLinger (156 + e) b else s) s) s
  let s := (((s.fault.alert).vector 53).fan 0xFF).put F.hubPstate_state 180 0 0 4
  let s := (s.put F.hubPstate_stopThermal 180 0 0 (b2n (c == StopCause.thermal))).put F.hubPstate_stopAirflow 180 0 0 (b2n (c == StopCause.airflow))
  { s with drains := s.drains.filter fun e => !isRegion (e.1 / 64) }.modPlant fun p => { p with thermtripN := p.thermtripN || c == StopCause.thermal }

end Sys2Proof.Machine
end

