-- ==== Sys2Proof/Machine/Clock.lean ====
section
/-!
DEFINITION. Reference clocks, core frequency, droop and PLL faults (R427-R433, R438, R448-R451).
-/
namespace Sys2Proof.Machine

/-- The current phases of a region's blocks (R236). -/
def State.phases (s : State) (node : Nat) : List Phase :=
  (List.range 4).filterMap fun b => match (s.block node b).phase with
    | some n => Sparse.find? (s.block node b).phases n
    | none => none

/-- The region's preference in 25 MHz steps (R236, R448). -/
def State.pref (s : State) (node : Nat) : Nat :=
  match s.phases node with
  | [] => opFreq 10
  | ps => opFreq (ps.foldl (fun a p => max a p.op) 0)

/-- The region's phase is adaptive (R236). -/
def State.adaptive (s : State) (node : Nat) : Bool := s.phases node != [] && (s.phases node).all (·.adaptive)

/-- The paces of lockstep jobs with lists on the region (R356). -/
def State.paces (s : State) (node : Nat) : List Nat :=
  (s.jobs.filter fun e => e.2.lockstep && e.2.state != .completed && e.2.nodes.contains node).map fun e => e.2.pace

/-- The region runs lists of a lockstep job. -/
def State.lockstepped (s : State) (node : Nat) : Bool := s.paces node != []

/-- The frequency and voltage of a point of a region (R475). -/
def State.opFreqOf (s : State) (node i : Nat) : Nat := s.fld F.pwrOptable_freq node 0 i
def State.opVoltOf (s : State) (node i : Nat) : Nat := s.fld F.pwrOptable_volt node 0 i

/-- A measurement `x` taken at the running point, estimated at point `i`, is at most `lim` (R449): x (f / f_run) (V / V_run)^2. -/
def State.fits (s : State) (node x lim i : Nat) : Bool :=
  let f := s.opFreqOf node i
  let v := s.opVoltOf node i
  let fr := (s.pow node).freq
  let vr := s.opVoltOf node (s.fld F.pwrStat_op node)
  decide (x * f * v * v ≤ lim * fr * vr * vr)

/-- A region's power in 0.1 W at a frequency, by R449, rounded down. -/
def State.powerAt (s : State) (node f : Nat) : Nat :=
  let i := pointAbove f
  let v := s.opVoltOf node i
  let d := (s.pow node).freq * s.opVoltOf node (s.fld F.pwrStat_op node) ^ 2
  (s.pow node).power * f * v * v / max 1 d

/-- The highest point that satisfies `p`; OP0 where none does (R454). -/
def highestPoint (p : Nat → Bool) : Nat := match firstBelow 16 fun i => p (15 - i) with | some i => 15 - i | none => 0

/-- The absolute current limit in 10 mA (R447). -/
def State.currentLimit (s : State) (node : Nat) : Nat :=
  if s.flag F.pwrContact_halved node || s.flag F.pwrContact_crackSuspect node then 1200 else 2400

/-- budget_f (R450, R455). -/
def State.budgetF (s : State) (node : Nat) : Option Nat :=
  match (s.pow node).share with
  | none => if (s.pow node).guard = 0 then none else some (s.opFreqOf node (15 - (s.pow node).guard))
  | some x => some (s.opFreqOf node (highestPoint (s.fits node (s.pow node).power x) - (s.pow node).guard))

/-- current_f, and the cap of a point the die cannot reach (R450, R475): the highest points that both allow. -/
def State.currentF (s : State) (node : Nat) : Nat :=
  let reach := fun i => s.opVoltOf node i != 0
  s.opFreqOf node (highestPoint fun i => reach i && s.fits node (s.pow node).current (s.currentLimit node) i)

/-- throttle_f (R456). -/
def State.throttleF (s : State) (node : Nat) : Option Nat :=
  if s.plant.throttle || (match s.plant.throttleEnd with | some t => decide (s.now < t) | none => false) then
    some (s.opFreqOf node (s.fld F.pwrCtrl_floorOp node)) else none

/-- The ceilings on a region with the reason codes of R451, in the order of the codes; of DROOP see TARGET_RECOMPUTE. -/
def State.ceilings (s : State) (node : Nat) : List (Nat × Nat) :=
  let of := fun (code : Nat) (x : Option Nat) => match x with | some f => [(code, f)] | none => []
  let halved := s.currentLimit node == 1200
  of 1 (s.throttleF node) ++ of 2 (s.pow node).thermalF ++ [(if halved then 3 else 4, s.currentF node)] ++ of 6 (s.budgetF node)
    ++ of 7 (s.pow node).forecastF
    ++ (if s.lockstepped node then ((s.paces node).filter (· != 0)).map fun p => (8, p)
        else if s.adaptive node then of 9 (s.pow node).efficiencyF else [])

/-- The lowest ceiling below `pref`, and of equals the earlier; reason 0 where none is below (R450-R451). -/
def lowestCeiling (pref : Nat) (l : List (Nat × Nat)) : Nat × Nat :=
  l.foldl (fun best e => if e.2 < best.2 then e else best) (0, pref)

/-- The target of R450, and the reason of R451. -/
def State.target (s : State) (node : Nat) : Nat × Nat := lowestCeiling (s.pref node) (s.ceilings node)

/-- The steps of R451 by which a region's effective frequency lies below its preference, under a target in force. -/
def State.shortfall (s : State) (node f : Nat) : Nat :=
  s.pref node - (if s.flag F.clkStat_stretched node then f / 2 else f)

/-- The region's core is powered and its clock controller runs: it is neither off nor napping. -/
def State.coreOn (s : State) (node : Nat) : Bool :=
  isRegion node && (s.pow node).freq != 0 && s.fld F.pwrStat_state node != 2

/-- The shortfall of the whole microseconds since it was last counted is added to ACCUM (R451). -/
def State.accrue (s : State) (node : Nat) : State :=
  (s.put F.pwrDeficit_accum node 0 0 (s.accumNow node)).modPow node fun p => { p with computed := p.computed + (s.now - p.computed) / us * us }

/-- The reason and the steps of the shortfall now (R451): DROOP while a stretch is in force. The time of the reason before is counted (R530). -/
def State.showDeficit (s : State) (node : Nat) : State :=
  let r := if s.flag F.clkStat_stretched node then 5 else (s.target node).1
  let s' := s.modPow node fun p => { p with reasonAt := s.now, held := s.heldNow node }
  (s'.put F.pwrDeficit_reason node 0 0 r).put F.pwrDeficit_steps node 0 0 (min 63 (s.shortfall node (s.pow node).freq))

/-- TARGET_RECOMPUTE (R449-R451): with the region's input power of the last 1 ms in 0.1 W and its input current in 10 mA. The shortfall since the
last one is added to ACCUM, at the steps that held. -/
def execTargetRecompute (node power current : Nat) (s : State) : Out :=
  need (isRegion node) .noSuch <|
  need (s.coreOn node) .wrongState <|
  let s := (s.accrue node).modPow node fun p => { p with power := power, current := current }
  let (reason, t) := s.target node
  let s := (s.put F.clkStat_target node 0 0 t).put F.pwrStat_iIn node 0 0 (min current 4095)
  let s := s.modPow node fun p => { p with urgent := decide (1 ≤ reason) && decide (reason ≤ 4) }
  .next (s.showDeficit node)

/-- FREQ_CHANGE_START (R430-R431): the target differs from the running frequency, the previous change ended 20 µs ago, or a safety loop or the
throttle pin demands a lowering. The core clock gates. -/
def execFreqChangeStart (node : Nat) (s : State) : Out :=
  need (isRegion node) .noSuch <|
  let p := s.pow node
  let t := s.fld F.clkStat_target node
  need (s.coreOn node && p.changing.isNone && t != p.freq && t != 0) .wrongState <|
  let waited := match p.changed with | some e => decide (e + 20 * us ≤ s.now) | none => true
  need (waited || (decide (t < p.freq) && p.urgent)) .notDue <|
  .next (((s.put F.clkStat_changing node 0 0 1).put F.clkStat_freq node 0 0 0).modPow node fun p => { p with changing := some s.now })

/-- PLL_LOCK (R430-R431, R456): the clock resumes at the latest target, and the reservoir drains as cycles pass (R46). -/
def execPllLock (node : Nat) (s : State) : Out :=
  need (isRegion node) .noSuch <|
  let p := s.pow node
  need (p.changing.isSome) .wrongState <|
  let t := s.fld F.clkStat_target node
  let s := ((s.setFreq node t).put F.clkStat_changing node 0 0 0).bump F.clkStat_changes node 0 0
  let s := if p.idle.isSome then s.put F.clkStat_freq node 0 0 0 else s
  let s := s.modPow node fun p => { p with changing := none, changed := some s.now }
  let s := (s.accrue node).showDeficit node
  .next (if s.coreGated node then s else s.resumeRounds node)

/-- A router stops with its fabric PLL (R432): its region is retired with ROLE 0b100, and the routes go round it (R81). -/
def State.routerStops (s : State) (node : Nat) : State :=
  let s := ((s.put F.rgnSite_role node 0 0 4).showNeighbours node).toRetire (.region node (pageOf .clk node 0) 27 1)
  { s with changes := { s.changes with routes := true } }

/-- A hub's own die is at fault (R495): the master reports it; a standby is lost. -/
def State.hubFault (s : State) (node : Nat) : State :=
  s.modPlant fun p => if node = s.master then { p with hubFault := true } else { p with hubLost := true }

/-- A PLL of a die has lost its lock (R432, R484, R495): that of a region's core stops the region, twice within 24 hours retires it; an edge die
retires; a hub reports it. -/
def State.pllFail (s : State) (node : Nat) : State :=
  let site : Site := ⟨node, pageOf .clk node 0, 0x3F, none⟩
  if isRegion node then
    let s := ((s.error site 27 .ueUnit 0 0).put F.clkStat_changing node 0 0 0).stopRegion node
    s.countStop node site.page 12 27 2 true
  else if isEdge node then (s.error site 27 .ueUnit 0 1).countEdge node 1 1
  else (s.error site 27 .ueUnit 0 1).hubFault node

/-- PLL_LOCK_FAIL (R432, R484, R495): a core PLL stops its region, twice within 24 hours retires it; a fabric PLL stops its router; a PLL of an
edge die retires the die; one of a hub is reported as the hub's own fault. -/
def execPllLockFail (node : Nat) (fabric : Bool) (s : State) : Out :=
  need (decide (node < 182)) .noSuch <|
  if isRegion node then
    if fabric then
      need (decide (s.role node < 4)) .wrongState <|
      .next ((s.error ⟨node, pageOf .clk node 0, 0x3F, none⟩ 27 .ueUnit 0 1).routerStops node)
    else need ((s.pow node).freq != 0) .wrongState <| .next (s.pllFail node)
  else if isEdge node then need (s.unit node 0 != .retired) .wrongState <| .next (s.pllFail node)
  else .next (s.pllFail node)

/-- DROOP_CROSSING (R433): the rail falls below CLK_DROOP.THRESHOLD, and the clock is stretched. -/
def execDroopCrossing (node : Nat) (s : State) : Out :=
  need (isRegion node) .noSuch <|
  need (s.coreOn node && !s.idles node && (s.pow node).changing.isNone && !s.flag F.clkStat_stretched node) .wrongState <|
  let s := s.accrue node
  let s := (s.put F.clkStat_stretched node 0 0 1).bump F.clkStat_stretches node 0 0
  .next (s.showDeficit node)

/-- DROOP_RECOVERY (R433): the rail has been above the threshold for HOLD core cycles and the stages back to full rate have ended. -/
def execDroopRecovery (node : Nat) (s : State) : Out :=
  need (isRegion node) .noSuch <|
  need (s.flag F.clkStat_stretched node) .wrongState <|
  let s := s.accrue node
  let s := s.put F.clkStat_stretched node 0 0 0
  .next (s.showDeficit node)

/-- REFCLK_LOSS (R427): REFCLK0 lost moves every PLL to REFCLK1; with the reference in use lost and no other, the panel stops. -/
def execRefclkLoss (both : Bool) (s : State) : Out :=
  need (s.plant.vaon && !s.plant.refLost) .wrongState <|
  let moved := s.flag F.clkStat_refSel 0
  if both || moved then .next ((s.modPlant fun p => { p with refLost := true }).panelStop .clocks s.master 2)
  else
    let s := (List.range 156).foldl (fun s n => s.put F.clkStat_refSel n 0 0 1) s
    .next (s.error ⟨s.master, pageOf .clk s.master 0, 0x3F, none⟩ 27 .ce 0 1)

end Sys2Proof.Machine
end

