-- ==== Sys2Proof/Machine/Power.lean ====
section
/-!
DEFINITION. Rails, contacts, the efficiency and budget loops, the throttle pin and energy per job (R443, R447, R452-R456, R461, R469-R477).
-/
namespace Sys2Proof.Machine

/-- A rail of a die has failed (R443, R484, R495): a region's stops the region, twice within 24 hours retires it; an edge die's retires the die; a
hub's is reported as the hub's own fault. -/
def State.railFault (s : State) (node : Nat) : State :=
  if isRegion node then
    let s := s.error ⟨node, pageOf .pwr node 0, 0x3F, none⟩ 24 .ueUnit 0 0
    let on := s.unit node 0 == .running || s.unit node 0 == .quiesced || s.unit node 0 == .draining
    let s := if on then (s.setPwr node 0).stopRegion node else s
    s.countStop node (pageOf .pwr node 0) 12 24 2 on
  else if isEdge node then s.countEdge node 1 2
  else s.hubFault node

/-- RAIL_FAULT (R443): a rail outside its band for 10 µs; a panel rail stops the panel. The loss of VAON is PANEL_STOP's (R547). -/
def execRailFault (node : Nat) (panel : Bool) (s : State) : Out :=
  need (decide (node < 182) && s.plant.vinCore) .noSuch <|
  if panel then need (s.pstate != 4) .wrongState <| .next (s.panelStop .rail s.master 0)
  else if isRegion node then need (decide (s.role node < 3)) .wrongState <| .next (s.railFault node)
  else if isEdge node then need (s.unit node 0 != .retired) .wrongState <| .next (s.railFault node)
  else .next (s.railFault node)

/-- The contact history of the last second with a new measurement. -/
def contactHistory (l : List (Nat × Nat)) (t r : Nat) : List (Nat × Nat) := l.filter (fun e => decide (t < e.1 + sec)) ++ [(t, r)]

/-- Rises of more than 20 % between consecutive measurements (R447). -/
def contactRises : List (Nat × Nat) → Nat
  | a :: b :: rest => b2n (decide (12 * a.2 < 10 * b.2)) + contactRises (b :: rest)
  | _ => 0

/-- Swings, up or down, between values more than 20 % apart, each against the one before (R447); `up` is the last swing's direction. -/
def contactSwings (up : Option Bool) : List (Nat × Nat) → Nat
  | a :: b :: rest =>
    let rise := decide (12 * a.2 < 10 * b.2)
    let fall := decide (12 * b.2 < 10 * a.2)
    if (rise && up != some true) || (fall && up != some false) then contactSwings (some rise) (b :: rest) + 1 else contactSwings up (b :: rest)
  | _ => 0

/-- The baseline in µΩ of a region, in the register and in the tray's flash (R447). -/
def State.setBaseline (s : State) (node r : Nat) : State :=
  let s := s.put F.pwrContact_baseline node 0 0 (min r 65535)
  { s with tray := { s.tray with baselines := Sparse.set s.tray.baselines node (min r 65535) } }

/-- CONTACT_MEASURE (R447, R473): the input-path resistance in µΩ. With no baseline recorded the first measurement becomes it. The flags last until
panel reset, and each is logged when it is set. -/
def execContactMeasure (node r : Nat) (s : State) : Out :=
  need (isRegion node) .noSuch <|
  need (s.coreOn node) .wrongState <|
  need (decide ((s.pow node).measured + 10 * ms ≤ s.now)) .notDue <|
  let page := pageOf .pwr node 0
  let h := contactHistory (s.pow node).contacts s.now r
  let s := s.modPow node fun p => { p with measured := s.now, contacts := h }
  let s := if s.fld F.pwrContact_baseline node = 0 then s.setBaseline node r else s
  let base := s.fld F.pwrContact_baseline node
  let s := s.put F.pwrContact_measured node 0 0 (min r 65535)
  let s := if 13 * base < 10 * r ∧ !s.flag F.pwrContact_warn node then
      (s.put F.pwrContact_warn node 0 0 1).error ⟨node, page, 0x3F, none⟩ 25 .ce 0 r else s
  let s := if 16 * base < 10 * r ∧ !s.flag F.pwrContact_halved node then
      (((s.put F.pwrContact_halved node 0 0 1).error ⟨node, page, 0x3F, none⟩ 25 .ce 0 r).alert).vector 53 else s
  .next (if (2 ≤ contactRises h ∨ 4 ≤ contactSwings none h) ∧ !s.flag F.pwrContact_crackSuspect node then
      (((s.put F.pwrContact_crackSuspect node 0 0 1).error ⟨node, page, 0x3F, none⟩ 25 .de 0 r).alert).vector 53 else s)

/-- EFFICIENCY_LOOP (R452): OPERAND, STACK, FETCH and HURDLE stall cycles of the interval against its core cycles. -/
def execEfficiencyLoop (node stalls cycles : Nat) (s : State) : Out :=
  need (isRegion node) .noSuch <|
  need (s.coreOn node && s.adaptive node && !s.lockstepped node) .wrongState <|
  need (decide ((s.pow node).looped + 100 * us ≤ s.now)) .notDue <|
  let top := s.pref node
  let cur := pointBelow (min top (((s.pow node).efficiencyF).getD top))
  let new : Option Nat := if cycles < 2 * stalls then some (opFreq (cur - 1))
    else if 4 * stalls < cycles then (if opFreq (cur + 1) ≤ top && decide (cur < 15) then some (opFreq (cur + 1)) else some top)
    else (s.pow node).efficiencyF
  .next (s.modPow node fun p => { p with looped := s.now, efficiencyF := new })

/-- The regions that draw from the budget. -/
def State.drawing (s : State) : List Nat := s.active.filter fun n => s.unit n 0 == .running && s.coreOn n

/-- A region's demand in 0.1 W (R454 step 3): its power at min(pref, forecast_f, pace). -/
def State.demand (s : State) (node : Nat) : Nat :=
  let f := min (s.pref node) (((s.pow node).forecastF).getD 60)
  s.powerAt node (((s.paces node).filter (· != 0)).foldl min f)

/-- Water-filling (R454 step 4): a region whose demand is below the equal offer takes its demand; shares in 0.1 W, the last offer rounded to the
nearest. `left` regions are still to be served, each with its demand. -/
def waterFill : Nat → Nat → List (Nat × Nat) → List (Nat × Nat)
  | 0, _, _ => []
  | _, _, [] => []
  | fuel + 1, avail, left =>
    let k := left.length
    let small := left.filter fun e => decide (e.2 * k < avail)
    if small.isEmpty then left.map fun e => (e.1, (2 * avail + k) / (2 * k))
    else small ++ waterFill fuel (avail - small.foldl (fun a e => a + e.2) 0) (left.filter fun e => !decide (e.2 * k < avail))

/-- A share comes into force at a region (R454-R455, R470-R471). -/
def State.setShare (s : State) (node x : Nat) : State :=
  let x := min x 65535
  ((s.put F.pwrStat_share node 0 0 x).put F.pwrLimit_share node 0 0 x).modPow node fun p => { p with share := some x, guard := 0 }

/-- What the budget leaves for the regions, in 0.1 W (R454 step 2). -/
def State.available (s : State) : Nat := 10 * s.fld F.hubBudget_budget 180 - s.plant.fixedPower

/-- Shares whose sum exceeds what is available are scaled down in proportion (R455). -/
def State.scaleShares (s : State) : State :=
  let held := s.drawing.filterMap fun n => ((s.pow n).share).map fun x => (n, x)
  let sum := held.foldl (fun a e => a + e.2) 0
  if sum ≤ s.available then s else held.foldl (fun s e => s.setShare e.1 (e.2 * s.available / max 1 sum)) s

/-- BUDGET_LOOP (R454-R455): with the panel's input power and that of everything that is no region, in 0.1 W, over the last 1 ms. -/
def execBudgetLoop (panel fixed : Nat) (s : State) : Out :=
  need (s.pstate != 4 && !s.plant.bothLost) .wrongState <|
  need (decide (s.plant.budgetAt + ms ≤ s.now)) .notDue <|
  let s := (s.modPlant fun p => { p with budgetAt := s.now, fixedPower := fixed }).put F.hubBudget_measured 180 0 0 (min 8191 (panel / 10))
  if s.hostDuty s.master 0 5 then .next s.scaleShares
  else
    let l := s.drawing
    let shares := waterFill (l.length + 1) s.available (l.map fun n => (n, s.demand n))
    let short := shares.any fun e => decide (e.2 < s.powerAt e.1 (opFreq 0)) && decide (e.2 < s.demand e.1)
    let s := shares.foldl (fun s e => s.setShare e.1 (if short then 0 else e.2)) s
    if short then .next ((s.put F.hubBudget_infeasible 180 0 0 1).vector 53) else .next (s.put F.hubBudget_infeasible 180 0 0 0)

/-- BUDGET_GUARD (R455): the measured input in 0.1 W has exceeded the budget by more than 10 % for 100 µs; every region lowers budget_f one point. -/
def execBudgetGuard (panel : Nat) (s : State) : Out :=
  need (decide (11 * s.fld F.hubBudget_budget 180 < panel) && s.pstate != 4) .wrongState <|
  need (decide (s.plant.guardAt + 100 * us ≤ s.now)) .notDue <|
  .next (s.drawing.foldl (fun s n => s.modPow n fun p => { p with guard := min 15 (p.guard + 1) }) (s.modPlant fun p => { p with guardAt := s.now }))

/-- A write of PWR_LIMIT.SHARE takes effect (R455, R470): the host's only while function 5 is host-assisted. -/
def State.onShare (s : State) (node : Nat) (o : Origin) (v : Word) : State :=
  if o == Origin.H && !s.hostDuty node (pageOf .pwr node 0) 5 then s
  else (((s.setShare node (wordField v 0 16)).modPow node fun p => { p with shared := s.now }).modPlant fun p => { p with sharesAt := s.now }).scaleShares

/-- The budget in force for a requested one (R453). -/
def clampBudget (w : Nat) : Nat := max 2000 (min 6600 w)

/-- THROTTLE_ASSERT (R456): throttle_f is FLOOR_OP's frequency in every region. -/
def execThrottleAssert (s : State) : Out :=
  need (!s.plant.throttle) .wrongState <| .next (s.modPlant fun p => { p with throttle := true, throttleEnd := none })

/-- THROTTLE_RELEASE (R456): the pin is released; throttle_f becomes unlimited 1 ms later. -/
def execThrottleRelease (s : State) : Out :=
  need s.plant.throttle .wrongState <| .next (s.modPlant fun p => { p with throttle := false, throttleEnd := some (s.now + ms) })

/-- Add energy in µJ to a job tag's counter, or to the unattributed one under 64; fractions of 1 mJ are carried (R461). -/
def State.addEnergy (s : State) (tag uj : Nat) : State :=
  let e := Sparse.get 0 s.plant.energy tag + uj
  let s := s.modPlant fun p => { p with energy := Sparse.set p.energy tag (e % 1000) }
  if tag = 64 then s.count F.pwrUnattr_energy s.master 0 0 (e / 1000) else s.count F.pwrEnergy_energy s.master 0 tag (e / 1000)

/-- ENERGY_INTERVAL (R461): a region's energy of 10 µs in µJ with the busy cycles of each tag's commands; an edge die's with the bytes each tag's
requests moved. What division leaves over goes to the first tag. -/
def execEnergyInterval (node uj : Nat) (parts : List (Nat × Nat)) (s : State) : Out :=
  need ((isRegion node || isEdge node) && parts.all (fun p => decide (p.1 < 64))) .noSuch <|
  need (decide ((s.pow node).counted + 10 * us ≤ s.now)) .notDue <|
  let s := s.modPow node fun p => { p with counted := s.now }
  let sum := parts.foldl (fun a p => a + p.2) 0
  if sum = 0 then .next (s.addEnergy 64 uj)
  else
    let shares := parts.map fun p => (p.1, uj * p.2 / sum)
    let left := uj - shares.foldl (fun a p => a + p.2) 0
    .next ((shares.foldl (fun s p => s.addEnergy p.1 p.2) s).addEnergy (shares.headD (64, 0)).1 left)

end Sys2Proof.Machine
end

