-- ==== Sys2Proof/Machine/Thermal.lean ====
section
/-!
DEFINITION. Temperature, airflow, the panel stop and its end, the forecaster (R457-R460, R474, R476).
-/
namespace Sys2Proof.Machine

/-- Since when a reading has stayed at or below a limit. -/
def coolSince (since : Option Nat) (now max limit : Nat) : Option Nat := if max ≤ limit then some (since.getD now) else none

/-- A thermal stop of a region (R458): the third within 24 hours retires it. -/
def State.thermalStop (s : State) (node max : Nat) : State :=
  let s := s.error ⟨node, pageOf .pwr node 0, 0x3F, none⟩ 26 .ueUnit 0 max
  let s := ((s.stopRegion node).setPwr node 5).modPow node fun p => { p with hotStop := true }
  s.countStop node (pageOf .pwr node 0) 13 26 3 false

/-- thermal_f follows a reading (R457): at or above 100 °C one step down each 100 µs, at or below 97 °C one step up each 1 ms until unlimited. -/
def thermalStep (p : RegionPower) (now max target : Nat) : RegionPower :=
  if 100 ≤ max then
    if p.stepped + 100 * us ≤ now ∨ p.thermalF.isNone then { p with thermalF := some (Nat.max 24 ((p.thermalF.getD target) - 1)), stepped := now } else p
  else if max ≤ 97 then
    match p.thermalF with
    | some f => if p.stepped + ms ≤ now then { p with thermalF := if f + 1 < 60 then some (f + 1) else none, stepped := now } else p
    | none => p
  else p

/-- THERMAL_SAMPLE (R457-R459, R474): the four junction sensors in °C, every 20 µs. -/
def execThermalSample (node s0 s1 s2 s3 : Nat) (s : State) : Out :=
  need (isRegion node && decide (max (max s0 s1) (max s2 s3) < 256)) .noSuch <|
  need (decide ((s.pow node).sampled + 20 * us ≤ s.now)) .notDue <|
  let hot := max (max s0 s1) (max s2 s3)
  let s := (s.put F.pwrTemp_sensors node 0 0 (s0 + 256 * s1 + 65536 * s2 + 16777216 * s3)).put F.pwrTemp_max node 0 0 hot
  let run := (s.pow node).freq
  let s := s.modPow node fun p => { thermalStep p s.now hot run with
    sampled := s.now, cool95 := coolSince p.cool95 s.now hot 95, cool90 := coolSince p.cool90 s.now hot 90 }
  let s := if 110 ≤ hot ∧ (s.pow node).freq ≠ 0 then s.thermalStop node hot else s
  let recent := s.events.filter fun e => e.1 == eventKey 13 node && decide (s.now < e.2 + 86400 * sec)
  let s := (s.put F.pwrTemp_throttling node 0 0 (b2n (s.pow node).thermalF.isSome)).put F.pwrTemp_stops node 0 0 (min 3 recent.length)
  .next (if 115 ≤ hot ∧ s.pstate ≠ 4 then s.panelStop .thermal node hot else s)

/-- REGION_THERMAL_RESTART (R458): every sensor has stayed at or below 95 °C for 1 s. -/
def execRegionThermalRestart (node : Nat) (s : State) : Out :=
  need (isRegion node) .noSuch <|
  need ((s.pow node).hotStop && s.unit node 0 == .off && s.pstate != 4) .wrongState <|
  need (match (s.pow node).cool95 with | some t => decide (t + sec ≤ s.now) | none => false) .notDue <|
  .next (((s.setPwr node 0).modPow node fun p => { p with hotStop := false }).restartRegion node)

/-- AIRFLOW_LOSS (R459): AIRFLOW_OK has stayed deasserted for 100 µs. -/
def execAirflowLoss (s : State) : Out :=
  need s.plant.airflow .wrongState <|
  let s := s.modPlant fun p => { p with airflow := false }
  .next (if s.pstate = 4 then s else s.panelStop .airflow s.master 1)

/-- PANEL_RESUME (R446, R459, R488, R547): VAON has stayed, AIRFLOW_OK is asserted and every sensor has stayed at or below 90 °C for 10 s. The regions power up in waves of
a row; stacks leave self-refresh; retirements recorded meanwhile apply. -/
def execPanelResume (s : State) : Out :=
  need (s.pstate == 4 && s.plant.vaon && !s.plant.refLost && !s.plant.bothLost) .wrongState <|
  need (s.power.all fun e => match e.2.cool90 with | some t => decide (t + 10 * sec ≤ s.now) | none => false) .notDue <|
  let s := (s.modPlant fun p => { p with airflow := true, thermtripN := false, faultN := false }).put F.hubPstate_state 180 0 0 0
  let s := (List.range 24).foldl (fun s st => if s.fld F.hbmStat_state (156 + st) = 3 then s.wakeStack st else s) s
  let base := max s.now s.plant.waveEnd
  let s := s.active.foldl (fun s n => if s.unit n 0 != .off then s else
    let s := ((List.range 4).foldl (fun s b => s.resetBlock n b) s).movePages n (corePages n) .starting
    (s.setPwr n 0).modPow n fun p => { p with upAt := base + (n / 13 + 1) * (20 * ms), hotStop := false }) s
  .next (s.modPlant fun p => { p with waveEnd := base + 240 * ms })

/-- FAN_REQ in 1/255 for a predicted input power in 0.1 W (R460): 20 % + 80 % (P - 2,000 W) / 4,600 W, clamped, to the nearest step. -/
def fanDuty (p : Nat) : Nat :=
  let x := max 20000 (min 66000 p)
  (255 * (20 * 46000 + 80 * (x - 20000)) + 2300000) / 4600000

/-- FORECAST (R460): the model's predictions over LEAD_MS: the regions predicted above 97 °C with the highest point that keeps each at 97 °C or below,
and the highest predicted input power in 0.1 W. -/
def execForecast (hot : List (Nat × Nat)) (p : Nat) (s : State) : Out :=
  need (hot.all fun e => isRegion e.1 && decide (e.2 < 16)) .noSuch <|
  need (s.pstate != 4 && !s.plant.bothLost && !s.hostDuty s.master 0 6) .wrongState <|
  need (decide (s.plant.forecastAt + ms ≤ s.now)) .notDue <|
  let s := s.modPlant fun x => { x with forecastAt := s.now }
  let s := (allBelow 156 fun n => (s.pow n).forecastF.isSome || hot.any (·.1 == n)).foldl (fun s n =>
    s.modPow n fun x => { x with forecastF := (hot.find? (·.1 == n)).map fun e => opFreq e.2 }) s
  let burning := (List.range 156).any fun n => decide (100 ≤ s.fld F.pwrTemp_max n)
  .next (s.fan (if burning then 0xFF else fanDuty p))

/-- A write of HUB_FC_HOST takes effect while function 6 is host-assisted (R419, R476): the fan request, and with TABLE_EN the ceilings of the logical
regions, read at TABLE. A table that cannot be read clean leaves the ceilings as they are. -/
def State.onFcHost (s : State) (v : Word) : State :=
  if !s.hostDuty s.master 0 6 then s else
  let s := (s.fan (wordField v 0 8)).modPlant fun p => { p with fcHostAt := s.now }
  if wordField v 8 1 = 0 then s.active.foldl (fun s n => s.modPow n fun p => { p with forecastF := none }) s
  else
    let (rd, bs, s) := s.get ⟨s.master, 0x11, 0⟩ (wordField v 16 48) 144
    if rd != .done then s else
    s.active.foldl (fun s n =>
      let point := ((bs[s.lnum n]?).getD 0).toNat
      s.modPow n fun p => { p with forecastF := if point < 16 then some (opFreq point) else none }) s

end Sys2Proof.Machine
end

