-- ==== Sys2Proof/Machine/Nap.lean ====
section
/-!
DEFINITION. Region Idle, Region Nap and Panel Standby (R462-R468).
-/
namespace Sys2Proof.Machine

/-- An engine command, a launch or an SX program runs in a region (R462). -/
def State.working (s : State) (node : Nat) : Bool :=
  (List.range 4).any fun b => !(s.block node b).launches.isEmpty || (s.block node b).sx.isSome || (unitQueues node b).any (s.executing ·)

/-- REGION_IDLE_ENTRY (R462, R469): no engine command, launch or SX program for IDLE_DELAY µs. The core clock gates; the PLL stays locked. -/
def execRegionIdleEntry (node : Nat) (s : State) : Out :=
  need (isRegion node) .noSuch <|
  let p := s.pow node
  need (s.unit node 0 == .running && s.fld F.pwrStat_state node == 0 && p.changing.isNone && !s.working node) .wrongState <|
  need (decide (p.busy + max 1 (s.fld F.pwrCtrl_idleDelay node) * us ≤ s.now)) .notDue <|
  .next (((s.setPwr node 1).put F.clkStat_freq node 0 0 0).modPow node fun p => { p with idle := some s.now })

/-- A region leaves Region Idle (R138, R462): rounds start again; the reservoir drains as cycles pass (R46). -/
def State.leaveIdle (s : State) (node : Nat) : State :=
  let s := ((s.setPwr node 0).put F.clkStat_freq node 0 0 (s.pow node).freq).modPow node fun p => { p with idle := none, busy := s.now }
  s.resumeRounds node

/-- REGION_IDLE_EXIT (R462). -/
def execRegionIdleExit (node : Nat) (s : State) : Out :=
  need (isRegion node) .noSuch <|
  need (s.fld F.pwrStat_state node == 1) .wrongState <| .next (s.leaveIdle node)

/-- R463's admission: no declared heft, no list of a job, no pen granted or held in the region. -/
def State.napFree (s : State) (node : Nat) : Bool :=
  let l := s.lnum node
  !(s.hefts.any fun h => decide (h.first ≤ l) && decide (l ≤ h.last)) &&
  !(s.jobs.any fun e => e.2.lists.any fun x => x.q.node == node && !x.done && !x.stopped) &&
  (List.range 4).all fun b => (s.penUnit node b).pens.isEmpty && (s.penUnit node b).holders.isEmpty

/-- A register without the fields that Nap does not keep (R464): what is neither RW or RWL nor survives a reset. -/
def napWord (r : Reg) (w rst : Word) : Word :=
  r.fields.foldl (fun w f => if f.keep || f.type == .rw || f.type == .rwl then w else wordPut w f.lo f.width (wordField rst f.lo f.width)) w

/-- A block's pages as Nap exit restores them (R464). -/
def State.napPage (s : State) (node page : Nat) : State :=
  match pageKind node page with
  | none => s
  | some (k, b) =>
    (pageRegs k).foldl (fun s r =>
      let i0 := if r.place.kind == .header then page else b
      if r == .unitStat || r == .mxcRetired || r.fields.all (·.keep) then s else
      (List.range r.place.count).foldl (fun s i =>
        match Sparse.find? s.regs (r.key node i0 i) with
        | some w => s.setWord r node i0 i (napWord r w (resetWord r node i0 i))
        | none => s) s) s

/-- Nap is entered (R463 steps 2-5, R464): the region is quiesced, the register set saved, the core off, the headers open. -/
def State.enterNap (s : State) (node : Nat) : State :=
  let s := s.movePages node (corePages node) .quiesced
  let s := (List.range 4).foldl (fun s b => (s.modBlock node b Block.cleared).showVec node b) s
  let s := (List.range 4).foldl (fun s b => ((blockPages node b).foldl (fun s p => s.napPage node p) s).showVec node b) s
  (((s.gateRegion node).setPwr node 2).put F.pwrStat_aborted node 0 0 0).modPow node fun p => { p with idle := none }

/-- A region in Nap wakes (R465): headers, rail, PLL, the saved set and the image; it runs, and its reservoir drains as cycles pass (R46). -/
def State.exitNap (s : State) (node : Nat) : State :=
  (s.setPwr node 0).startRegion node

/-- NAP_ENTRY (R463-R464). `abort` is the abort point at which a wake event abandons it, A1-A4 as 0-3. -/
def execNapEntry (node : Nat) (abort : Option Nat) (s : State) : Out :=
  need (isRegion node && (match abort with | some k => decide (k < 4) | none => true)) .noSuch <|
  match (s.pow node).idle with
  | none => .refused .wrongState
  | some t =>
    need (s.fld F.pwrStat_state node == 1 && s.unit node 0 == .running && s.flag F.pwrCtrl_napEn node && s.napFree node) .wrongState <|
    need (decide (t + max 1 (s.fld F.pwrCtrl_napDelay node) * (100 * us) ≤ s.now)) .notDue <|
    match abort with
    | some k => .next (((s.put F.pwrStat_aborted node 0 0 1).put F.pwrStat_abortAt node 0 0 k).leaveIdle node)
    | none => .next (s.enterNap node)

/-- The Nap exits started in the last 20 µs (R465). -/
def State.recentExits (s : State) : List Nat := s.plant.exits.filter fun t => decide (s.now < t + 20 * us)

/-- NAP_EXIT (R465): at most 12 regions start an exit in any 20 µs. -/
def execNapExit (node : Nat) (s : State) : Out :=
  need (isRegion node) .noSuch <|
  need (s.fld F.pwrStat_state node == 2 && s.pstate != 4 && s.pstate != 2) .wrongState <|
  need (decide (s.recentExits.length < 12)) .notDue <|
  .next ((s.exitNap node).modPlant fun p => { p with exits := s.recentExits ++ [s.now] })

/-- Panel Standby is refused (R466): a job is live, a submission queue holds an unfetched entry, or a pen is granted. -/
def State.refusesStandby (s : State) : Bool :=
  (s.jobs.any fun e => e.2.state != .completed) ||
  ([180, 181].any fun h => (List.range 16).any fun q => s.flag F.hubSqcfg_enable h 0 q && decide (0 < s.sqPending h q)) ||
  (s.pens.any fun e => decide (e.1 < 1000) && !e.2.pens.isEmpty)

/-- Steps 2 to 4 of R466. -/
def State.standbyNaps (s : State) : State :=
  (s.active.filter fun n => s.unit n 0 == .running && s.fld F.pwrStat_state n != 2).foldl (fun s n => s.enterNap n) s
def State.standbyLinks (s : State) : State :=
  (List.range 24).foldl (fun s e => (List.range 5).foldl (fun s b => s.sendDown (156 + e) b) s) s
def State.standbyStacks (s : State) : State := (List.range 24).foldl (fun s st => s.restStack st) s

/-- Bundles wake (R467): those that listen with their session kept train, with a knock for the peer. -/
def State.wakeLinks (s : State) : State :=
  (List.range 24).foldl (fun s e => (List.range 5).foldl (fun s b =>
    if s.linkState (156 + e) b = .listen ∧ (s.link (156 + e) b).down then
      let s := if s.ethernet (156 + e) b then s else s.say (.knock (156 + e) b)
      s.startTraining (156 + e) b
    else s) s) s

/-- Stacks leave self-refresh. -/
def State.wakeStacks (s : State) : State := (List.range 24).foldl (fun s st => s.wakeStack st) s

/-- A write of HUB_PSTATE.STANDBY_REQ takes effect (R466). `abort` is the abort point at which a wake source abandons it, B1-B4 as 1-4: steps taken
are undone; regions wake by NAP_EXIT. -/
def State.onStandby (s : State) (abort : Option Nat) : State :=
  match abort with
  | none => ((s.standbyNaps.standbyLinks).standbyStacks).put F.hubPstate_state 180 0 0 2
  | some k =>
    let s := s.put F.hubPstate_abortAt 180 0 0 k
    let s := if 2 ≤ k then s.standbyNaps else s
    let s := if 3 ≤ k then s.standbyLinks else s
    let s := if 4 ≤ k then s.standbyStacks.wakeStacks else s
    if 3 ≤ k then s.wakeLinks else s

/-- PANEL_WAKE (R467): a wake source has come: the hubs are restored, stacks leave self-refresh, bundles wake; the regions wake by NAP_EXIT. -/
def execPanelWake (s : State) : Out :=
  need (s.pstate == 3) .wrongState <| .next ((s.wakeStacks.wakeLinks).put F.hubPstate_state 180 0 0 0)

/-- WAKE_N (R468): the pin asserts. -/
def execWakeN (s : State) : Out := .next (s.wakeEvent 5 0)

/-- WAKE_TIMER (R468, R476): HUB_WAKE_TIMER reaches its time and is cleared. -/
def execWakeTimer (s : State) : Out :=
  let t := (s.word .hubWakeTimer 180).toNat
  need (t != 0) .wrongState <| need (decide (t ≤ s.now)) .notDue <|
  .next ((s.setWord .hubWakeTimer 180 0 0 0).wakeEvent 4 0)

end Sys2Proof.Machine
end

