-- ==== Sys2Proof/Machine/Faults.lean ====
section
/-!
DEFINITION. Suspects, probes, retirement and substitution (R25-R31, R483-R494), the two hubs (R495-R498).
-/
namespace Sys2Proof.Machine

/-- The probe of a node. -/
def State.probe? (s : State) (node : Nat) : Option Probe := s.probes.find? fun p => p.node == node

/-- Change it. -/
def State.modProbe (s : State) (node : Nat) (f : Probe → Probe) : State :=
  { s with probes := s.probes.map fun p => if p.node == node then f p else p }

/-- End it. -/
def State.endProbe (s : State) (node : Nat) : State := { s with probes := s.probes.filter fun p => p.node != node }

/-- PROBE_ATTEMPT (R491): one read of UNIT_ID over the fabric or the sideband is answered or times out; three silent ones make the path silent. -/
def execProbeAttempt (node : Nat) (sideband answers : Bool) (s : State) : Out :=
  match s.probe? node with
  | none => .refused .noSuch
  | some p =>
    if sideband then
      need (p.sidebandAnswers.isNone) .wrongState <|
      .next (s.modProbe node fun p => { p with sidebandTries := p.sidebandTries + 1,
                                               sidebandAnswers := if answers then some true else if 2 ≤ p.sidebandTries then some false else none })
    else
      need (p.fabricAnswers.isNone) .wrongState <|
      .next (s.modProbe node fun p => { p with fabricTries := p.fabricTries + 1,
                                               fabricAnswers := if answers then some true else if 2 ≤ p.fabricTries then some false else none })

/-- The node state table of both hubs (R493). -/
def State.showFinding (s : State) (node : Nat) (fabric sideband : Bool) (clears : Nat) : State :=
  [180, 181].foldl (fun s h =>
    let s := (s.put F.logNodestate_fabric h 0 node (if fabric then 1 else 2)).put F.logNodestate_sideband h 0 node (if sideband then 1 else 2)
    let s := (s.put F.logNodestate_conflict h 0 node (b2n (fabric != sideband))).put F.logNodestate_mgmtPath h 0 node (b2n (!fabric && sideband))
    (s.put F.logNodestate_clears h 0 node (min 7 clears)).put F.logNodestate_probeTime h 0 node (s.now / 1024)) s

/-- SUSPECT is cleared by the means that set it, and the unit runs (R400, R492). -/
def State.clearSuspect (s : State) (node : Nat) : State :=
  let s := (s.markSuspect node false).endProbe node
  if s.unit node 0 = .suspect then s.moveUnit node 0 .running else s

/-- A unit is to be retired for the finding of its probe (R492): a region with a role, an edge die, a hub under the failover rules. -/
def State.condemn (s : State) (node role : Nat) : State :=
  let s := s.endProbe node
  if isRegion node then
    { ((s.put F.rgnSite_role node 0 0 role).showNeighbours node).toRetire (.region node 0 31 1) with changes := { s.changes with routes := true } }
  else if isEdge node then s.toRetire (.edge node 0 31 1)
  else s.modPlant fun p => if node = s.master then { p with hubFault := true } else { p with hubLost := true }

/-- PROBE_FINDING (R492-R493): both paths have been tried. -/
def execProbeFinding (node : Nat) (s : State) : Out :=
  match s.probe? node with
  | none => .refused .noSuch
  | some p => match p.fabricAnswers, p.sidebandAnswers with
    | some fab, some side =>
      need (!p.loopback) .wrongState <|
      let (c, s) := if fab && side then s.countEvent (eventKey 14 node) sec else (0, s)
      let s := s.showFinding node fab side c
      let s := s.stateEntry ⟨s.master, pageOf .log s.master 0, 0x3F, none⟩ .ce .probeFinding 0 (node + 256 * b2n fab + 512 * b2n side)
      if fab && side && decide (c < 3) then .next (s.clearSuspect node)
      else if fab && !side then .next ((s.clearSuspect node).alert)
      else if !fab && !side then .next (s.condemn node 4)
      else .next (s.modProbe node fun p => { p with loopback := true })
    | _, _ => .refused .wrongState

/-- LOOPBACK_TEST (R492): the router's loopback over the sideband: failed transit retires with ROLE 0b100, else ROLE 0b011. -/
def execLoopbackTest (node : Nat) (transit : Bool) (s : State) : Out :=
  match s.probe? node with
  | none => .refused .noSuch
  | some p => need p.loopback .wrongState <| .next (s.condemn node (if transit then 3 else 4))

/-- The die that a row gives for a lost region (R23, R26): its unused usable spare; with none, the held die that R13 ranks first. -/
def State.takeSpare (s : State) (row : Nat) : Option Nat :=
  let free := fun (role c : Nat) => s.usable (13 * row + c) && s.role (13 * row + c) == role && s.unit (13 * row + c) 0 == .off
  match firstBelow 13 (free 1) with
  | some c => some (13 * row + c)
  | none => (s.pickSpare row (allBelow 13 (free 2))).map fun c => 13 * row + c

/-- A die is gated as a spare or a held one (R16, R471). -/
def State.gateDie (s : State) (node : Nat) : State :=
  let s := if s.unit node 0 = .off then s else (s.stopRegion node)
  s.setPwr node 4

/-- N changes (R27 step 1): every job stops with TARGET_RETIRED, the roles follow, and the map is built anew by the switch, at whose flip steps 2 to 4 follow
(State.flip). -/
def State.changeGeometry (s : State) : State :=
  let n := s.smallestRow
  let s := s.abortWhere (fun _ => true) .targetRetired
  let s := s.assignRoles n
  let s := (allBelow 156 fun d => s.role d == 1 || s.role d == 2).foldl (fun s d => s.gateDie d) s
  { s with changes := { s.changes with rebuild := true, subs := [], newN := some n } }

/-- The retirement that waits for a node, with its page, class and count. -/
def Retire.of (node : Nat) : Retire → Option (Nat × Nat × Nat)
  | .region n p e c => if n = node then some (p, e, c) else none
  | .block n _ p e c => if n = node then some (p, e, c) else none
  | .edge n p e c => if n = node then some (p, e, c) else none
  | _ => none

/-- Retirements of cells of a node that the node's own supersedes (R31). -/
def Retire.within (node : Nat) : Retire → Bool
  | .matrixCell n .. | .vectorCell n .. => n == node
  | r => (r.of node).isSome

/-- The retirements decided for a node and its cells, the verdicts asked for them, and its resets end with its own retirement; those of lower levels are
logged as superseded (R31). -/
def State.dropRetirings (s : State) (node : Nat) : State :=
  let about := fun (a : Assist) => match a.what with | .retire r => r.within node | _ => false
  let cells := ((s.asks ++ s.assists).filter fun a => match a.what with | .retire r => r.lower && r.within node | _ => false).length +
    (s.retiring.filter fun r => match r with | .matrixCell n .. | .vectorCell n .. => n == node | _ => false).length
  let resets := s.drains.filter fun e => e.1 / 64 == node && e.2 == .reset
  let s := { s with retiring := s.retiring.filter fun r => !r.within node, drains := s.drains.filter fun e => e.1 / 64 != node,
                    asks := s.asks.filter fun a => !about a, assists := s.assists.filter fun a => !about a,
                    heldBack := s.heldBack.filter fun r => r.node != node }
  let s := (List.range cells).foldl (fun s _ => s.superseded ⟨node, 0, 0x3F, none⟩ 11 node) s
  resets.foldl (fun s e => s.superseded ⟨node, e.1 % 64, 0x3F, none⟩ 0 node) s

/-- One loss comes before another (R74, R488): the earlier detection, and at one time the lower node. -/
def lostBefore (a b : Nat × Nat) : Bool := decide (a.1 < b.1) || (a.1 == b.1 && decide (a.2 ≤ b.2))

/-- The losses in the order of R74. -/
def inOrder (l : List (Nat × Nat)) : List (Nat × Nat) :=
  l.foldl (fun acc x => acc.takeWhile (fun y => lostBefore y x) ++ [x] ++ acc.dropWhile (fun y => lostBefore y x)) []

/-- The logical region a die serves in the map in force at the master hub (R23). -/
def State.logicalOf (s : State) (node : Nat) : Option Nat :=
  firstBelow 144 fun l => s.mapEntry s.master (s.fld F.hubGeometry_mapBank s.master) l == node

/-- A lost die's logical region moves to its row's spare, which powers up as a wave of one (R23, R487 steps 3-5). An unused spare or a held die served none. -/
def State.takeOver (s : State) (node : Nat) : State :=
  match s.logicalOf node, s.takeSpare (node / 13) with
  | some l, some sp =>
    let s := { s with changes := { s.changes with subs := s.changes.subs ++ [(l, sp)] } }
    ((s.setPwr sp 0).put F.rgnSite_role sp 0 0 1).wave sp
  | _, _ => s

/-- Hub firmware merges the pending changes at the start of a switch (R74): the retirements in order of detection, the substitutions they call for, N over the
result; when N changes, the map is built anew in place of the substitutions (R26-R27). -/
def State.merge (s : State) : State :=
  let lost := inOrder s.changes.lost
  let s := { s with changes := { s.changes with lost := [], routes := true } }
  if s.smallestRow < s.lcols then s.changeGeometry else lost.foldl (fun s x => s.takeOver x.2) s

/-- A region's loss waits for the next switch (R74, R488). SPARE_MASK follows the loss of an unused spare at once. -/
def State.substitute (s : State) (node : Nat) : State :=
  let s := { s with changes := { s.changes with lost := s.changes.lost ++ [(Sparse.get s.now s.detected node, node)] } }
  if (s.logicalOf node).isNone then s.showGeometry s.lcols else s

/-- The hefts on a region are lost with it (R200): of a declaration over several logical regions the others stay. -/
def State.loseHefts (s : State) (node : Nat) : State :=
  match s.logicalOf node with
  | none => s
  | some l => { s with hefts := s.hefts.flatMap fun h =>
      if h.first ≤ l ∧ l ≤ h.last then
        (if h.first < l then [{ h with last := l - 1 }] else []) ++ (if l < h.last then [{ h with first := l + 1 }] else [])
      else [h] }

/-- REGION_RETIRE for a region (R28-R30, R209, R487): at once, with no drain. -/
def State.retireRegion (s : State) (node page errBit count : Nat) : State :=
  let s := s.dropRetirings node
  let s := if s.role node < 3 then s.put F.rgnSite_role node 0 0 3 else s
  let s := s.retirement ⟨node, page, 0x3F, none⟩ errBit .ueUnit 3 count
  let s := ((s.dropRegion node .targetRetired).gateRegion node).movePages node (corePages node) .retired
  let s := (if s.idles node then s.setPwr node 4 else s).loseHefts node
  let s := if s.role node = 4 then s.movePages node (pagesOf node) .retired else s
  s.substitute node

/-- REGION_RETIRE for an edge die (R271, R484): jobs that use it abort, its stack fails, its bundles are retired, and the row is fed from one end. -/
def State.retireEdge (s : State) (node page errBit count : Nat) : State :=
  let st := node - 156
  let s := s.dropRetirings node
  let s := s.retirement ⟨node, page, 0x3F, none⟩ errBit .ueUnit 2 count
  let s := s.abortWhere (fun q => q.node == node) .targetRetired
  let s := if s.stackFailed st then s else s.failStack st .stopped count
  let s := (List.range 5).foldl (fun s b => if s.linkState node b = .retired then s else s.retireBundle node b 1) s
  let s := s.emptyReservoir node .targetRetired
  { (s.movePages node (pagesOf node) .retired).showNeighbours node with changes := { s.changes with routes := true } }

/-- REGION_RETIRE (R483, R487-R488): a retirement that has been decided is carried out; one that falls during a panel stop waits for its end. -/
def execRegionRetire (node : Nat) (s : State) : Out :=
  need (isRegion node || isEdge node) .noSuch <|
  match s.retiring.findSome? (Retire.of node) with
  | none => .refused .wrongState
  | some (page, errBit, count) =>
    need (s.pstate != 4 && s.unit node 0 != .retired) .wrongState <|
    if isRegion node then .next (s.retireRegion node page errBit count) else .next (s.retireEdge node page errBit count)

/-- MAP_SWITCH (R73-R74): every waiting change goes into one switch, flipped at `t`; a second switch waits for the first; in host-assisted mode of
function 2 the host is asked first (R419). -/
def execMapSwitch (t : Nat) (s : State) : Out :=
  need (decide (s.changes ≠ {}) && !s.switchBusy && (!s.hostDuty s.master 0 2 || s.changes.tables.isSome)) .wrongState <|
  need (decide (s.now + 2 * us ≤ t)) .notDue <| .next (s.merge.switchTo t)

/-- SPARE_POWERED (R446, R487 steps 5-6): the wave of a taken spare is complete and its image written. -/
def execSparePowered (node : Nat) (s : State) : Out :=
  need (isRegion node) .noSuch <|
  need (s.unit node 0 == .starting && s.role node == 1 && (s.pow node).freq == 0) .wrongState <|
  need (decide ((s.pow node).upAt ≤ s.now)) .notDue <|
  let s := (List.range 4).foldl (fun s b => s.resetBlock node b) s
  .next ((s.setFreq node (opFreq 10)).put F.rgnFw_version node 0 0 (s.fld F.rgnFw_version (s.active.headD 0)))

/-- SPARE_KAT_DONE (R487 steps 7-8, R489): the known-answer run passes and the spare serves, or it is retired and N changes. -/
def execSpareKatDone (node : Nat) (pass : Bool) (s : State) : Out :=
  need (isRegion node) .noSuch <|
  need (s.unit node 0 == .starting && s.role node == 1 && (s.pow node).freq != 0) .wrongState <|
  if pass then
    let s := (s.put F.rgnSite_role node 0 0 0).startRegion node
    .next (s.stateEntry ⟨node, 0, 0x3F, none⟩ .ce .substitution 0 node)
  else .next (s.retireRegion node 0 31 1)

/-- A drove engine is reset (R494): its streams and the jobs of its lists end with TARGET_RESETTING, undecided commit hurdles release with them. -/
def State.resetDrove (s : State) (node : Nat) : State :=
  let page := pageOf .drv node 0
  let s := (s.abortWhere (fun q => q.node == node) .targetResetting).killQueues node 0
  let s := s.orphanRequests node fun r => match r.purpose with
    | .drove .. | .engine .. | .plain => true | _ => false
  ((s.setDrove node {}).clearPage node page).movePages node [page] .starting

/-- A stack controller is reset (R323, R494): accepted requests complete TARGET_RESETTING, the contents are kept in self-refresh. -/
def State.resetController (s : State) (node : Nat) : State :=
  let page := pageOf .hbm node 0
  let s := (s.restStack (node - 156)).emptyReservoir node .targetResetting
  (s.clearPage node page).movePages node [page] .starting

/-- UNIT_RESET (R484, R494): a drove engine or stack controller that drains for a reset is reset; one that stops by itself is reset too, and counts against
its edge die. -/
def execUnitReset (node : Nat) (stack : Bool) (s : State) : Out :=
  need (isEdge node) .noSuch <|
  let page := if stack then pageOf .hbm node 0 else pageOf .drv node 0
  let asked := Sparse.find? s.drains (node * 64 + page) == some DrainFor.reset
  need (s.unit node page == .running || asked) .wrongState <|
  let s := { s with drains := s.drains.filter fun e => e.1 != node * 64 + page }
  let s := if asked then s else s.countEdge node 2 (if stack then 3 else 4)
  .next (if stack then s.resetController node else s.resetDrove node)

/-- The registers of a hub's pages that the master alone keeps are taken over from the other hub's mirror (R496). -/
def State.takeMirror (s : State) (old new : Nat) : State :=
  let copy := fun (s : State) (r : Reg) =>
    (List.range r.place.count).foldl (fun s i => s.setWord r new 0 i (s.word r old 0 i)) s
  [Reg.pwrUnattr, .pwrEnergy, .logSpill, .logFlashcfg, .logHring, .logHringHead, .logHringTail].foldl copy s

/-- The master role moves (R19, R436, R496-R497): the new master's own count becomes the panel's time; HUB_GEOMETRY.MASTER, vector 51. -/
def State.moveMaster (s : State) : State :=
  let old := s.master
  let new := otherHub old
  let off := (s.router new).timeOff
  let s := s.takeMirror old new
  let shift := fun (m : Sparse Router) (n : Nat) => Sparse.upd {} m n fun r => { r with timeOff := r.timeOff - off }
  let s := { s with now := s.timeAt new, master := new, routers := (List.range 182).foldl shift s.routers }
  let s := (s.put F.hubGeometry_master old 0 0 0).put F.hubGeometry_master new 0 0 1
  (s.modPlant fun p => { p with beaconAt := s.now, beaconGot := [], hubFault := false }).vector 51

/-- A hub is out of service (R496, R498): its units are retired, its tasks' jobs and its fall-back cores' jobs abort TARGET_RETIRED. -/
def State.loseHub (s : State) (hub : Nat) : State :=
  let tags := (s.tasks.filter fun t => t.hub == hub).map (fun t => bits t.record 208 6) ++
    ((List.range 8).filter fun c => s.flag F.hubFbctrl_run hub 0 c).map fun c => s.fld F.hubFbctrl_jobTag hub 0 c
  let s := (tags.eraseDups).foldl (fun s t => s.abortJob t .targetRetired) s
  let s := { s with tasks := s.tasks.filter fun t => t.hub != hub, fetched := s.fetched.filter fun f => f.hub != hub || s.ringServed hub 0,
                    changes := { s.changes with routes := true } }
  let s := (s.movePages hub (pagesOf hub) .retired).showNeighbours hub
  [180, 181].foldl (fun s h => s.put F.logStat_mirrorLost h 0 0 1) (s.modPlant fun p => { p with hubLost := true })

/-- HEARTBEAT (R495): every 100 µs a hub's heartbeat reaches the other over the fabric, the sideband, or both. One that comes on one path only starts the
probe. -/
def execHeartbeat (hub : Nat) (fabric sideband : Bool) (s : State) : Out :=
  need (isHub hub && (fabric || sideband)) .noSuch <|
  need (!s.plant.hubLost && !s.plant.bothLost) .wrongState <|
  need (match Sparse.find? s.plant.sent hub with | some t => decide (t + 100 * us ≤ s.now) | none => true) .notDue <|
  let s := s.modPlant fun p => { p with beats := Sparse.set p.beats hub s.now, sent := Sparse.set p.sent hub s.now }
  .next (if (fabric && sideband) || (s.probe? hub).isSome then s
    else { s with probes := s.probes ++ [{ node := hub, since := s.now }] })

/-- HEARTBEAT_LOSS (R495-R496, R498): no heartbeat of a hub for 3 ms on either path, or its own report of a fault. The standby takes over from a
master; a master whose standby fails goes on without a mirror; with both hubs lost only PANEL_RESET_N recovers the panel. -/
def execHeartbeatLoss (hub : Nat) (s : State) : Out :=
  need (isHub hub) .noSuch <|
  need (!s.plant.bothLost && s.unit hub 0 != .retired) .wrongState <|
  let late := decide (Sparse.get 0 s.plant.beats hub + 3 * ms ≤ s.now)
  if s.plant.hubLost && s.unit (otherHub hub) 0 == .retired then
    need s.plant.hubFault .notDue <|
    .next (((s.error ⟨hub, 0, 0x3F, none⟩ 30 .uePanel 0 hub).fault).modPlant fun p => { p with bothLost := true })
  else if hub = s.master then
    need (late || s.plant.hubFault) .notDue <|
    let s := (allBelow 182 s.live).foldl (fun s n => s.modRouter n fun r => { r with fenced := some hub }) s
    let s := (s.moveMaster).loseHub hub
    .next ((s.error ⟨s.master, 0, 0x3F, none⟩ 30 .ueUnit 0 hub).alert)
  else
    need (late || s.plant.hubLost) .notDue <|
    .next ((((s.loseHub hub).error ⟨s.master, 0, 0x3F, none⟩ 30 .ueUnit 0 hub).vector 51).alert)

/-- HANDOVER_MASTER (R497): a planned move of the master role, with no switch in progress and no fencing. -/
def execHandoverMaster (s : State) : Out :=
  need (!s.plant.hubLost && !s.plant.bothLost && !s.switchBusy) .wrongState <|
  .next ((s.moveMaster).stateEntry ⟨otherHub s.master, 0, 0x3F, none⟩ .ce .failover 0 (otherHub s.master))

/-- BEACON_ABSENT (R498): with both hubs lost, regions stop their cores once no beacon has come for 1 ms; FAULT_N asserts. -/
def execBeaconAbsent (s : State) : Out :=
  need s.plant.bothLost .wrongState <|
  need (decide (s.plant.beaconAt + ms ≤ s.now)) .notDue <|
  .next ((s.active.foldl (fun s n => s.stopRegion n) s).fault)

end Sys2Proof.Machine
end

