-- ==== Sys2Proof/Machine/LogRows.lean ====
section
/-!
DEFINITION. The log at the master hub (R499-R511): commit, admission, spill to flash and to the host ring, scrub, the hold-up flush.
-/
namespace Sys2Proof.Machine

/-- A log register field of the master hub. -/
def State.lg (s : State) (f : Field) : Nat := s.fld f s.master

/-- Set it in the master hub's page. -/
def State.putLg (s : State) (f : Field) (v : Nat) : State := s.put f s.master 0 0 v

/-- Function 11 is host-assisted (R503). -/
def State.hostSpills (s : State) : Bool := s.hostDuty s.master (pageOf .log s.master 0) 11

/-- The flash partition is enabled and works (R503, R509). -/
def State.flashWorks (s : State) : Bool := s.lg F.logFlashcfg_size != 0 && s.lg F.logSpill_flashFail == 0

/-- The host ring is enabled; its size (R510). -/
def State.hringOn (s : State) : Bool := s.lg F.logHring_enable != 0
def State.hringSize (s : State) : Nat := let n := s.lg F.logHring_log2; 2 ^ (if 8 ≤ n ∧ n ≤ 15 then n else 8)

/-- Entries the master's banks hold (R499, R506); once they have all failed, the other hub's log serves. -/
def State.logRoom (s : State) : Nat :=
  let own := s.lg F.logStat_banksOk
  2048 * (setBits 4 (if own = 0 then s.fld F.logStat_banksOk (otherHub s.master) else own)).length

/-- An entry may be reclaimed (R502-R503): every enabled and working destination holds it, or the host in host-assisted mode has acknowledged it. -/
def State.reclaimable (s : State) (e : LogEntry) : Bool :=
  if s.hostSpills && decide (e.seq < s.log.acked) then true
  else if !s.flashWorks && !s.hringOn then true
  else (!s.flashWorks || decide (e.seq < s.log.spilled)) && (!s.hringOn || decide (e.seq < s.log.copied))

/-- Ring entries free for new entries (R502). -/
def State.logFree (s : State) : Nat := s.logRoom - (s.log.ring.filter fun e => !s.reclaimable e).length

/-- The 32 bytes of an entry. -/
def LogEntry.bytes (e : LogEntry) : List Byte := leBytes 8 e.w0 ++ leBytes 8 e.w1 ++ leBytes 8 e.w2 ++ leBytes 8 e.w3

/-- Copy entries to the host ring in SEQ order while it has room (R503, R510). -/
def State.copyHost (s : State) : Nat → State
  | 0 => s
  | fuel + 1 =>
    if !s.hringOn then s else
    match s.log.ring.find? (fun e => decide (s.log.copied ≤ e.seq)) with
    | none => s.putLg F.logHringTail_full 0
    | some e =>
      let n := s.hringSize
      let tail := s.lg F.logHringTail_tail
      if (tail + 1) % n = s.lg F.logHringHead_head % n then s.putLg F.logHringTail_full 1
      else
        let (_, s) := s.putBytes ⟨s.master, 0x11, 0⟩ (s.lg F.logHring_base + 32 * tail) e.bytes
        let s := { s with log := { s.log with copied := e.seq + 1 } }
        (s.putLg F.logHringTail_tail ((tail + 1) % n)).copyHost fuel

/-- Give an entry the next SEQ and write it to the ring (R499, R502): the oldest entry gives its place where the ring is full. -/
def State.commit (s : State) (e : LogEntry) : State :=
  let n := s.lg F.logStat_nextSeq
  let e := { e with w3 := putBits e.w3 0 32 n }
  let lost := decide (s.logRoom ≤ s.log.ring.length) && !s.flashWorks && !s.hringOn
  let ring := (if s.logRoom ≤ s.log.ring.length then s.log.ring.drop 1 else s.log.ring) ++ [e]
  let log := { s.log with ring := ring, oldestAt := some (s.log.oldestAt.getD s.now), copied := if s.hringOn then s.log.copied else n + 1 }
  let s := { s with log := log }
  let s := if lost then s.bump F.logStat_dropped s.master 0 0 else s
  let s := [180, 181].foldl (fun s h => s.put F.logStat_nextSeq h 0 0 (n + 1)) s
  (s.putLg F.logSpill_unspilled (ring.filter fun x => decide (log.spilled ≤ x.seq)).length).copyHost 8

/-- An entry is dropped, and counted for the next GAP entry (R502). -/
def State.dropEntry (s : State) (e : LogEntry) : State :=
  let low := e.isFault && e.severity == 0
  let log := if low then { s.log with droppedLow := s.log.droppedLow + 1 } else { s.log with droppedHigh := s.log.droppedHigh + 1 }
  { s with log := log }.bump F.logStat_dropped s.master 0 0

/-- The pins that an event of a severity raises (R402, R481), committed or not. -/
def State.pins (s : State) (e : LogEntry) : State :=
  if !e.isFault || !e.signal then s else
  let s := if 2 ≤ e.severity then s.alert else s
  if e.severity = 3 then s.fault else s

/-- The signals of a committed entry (R402, R481, R499): vector 49 after commit, and the pins. -/
def State.signals (s : State) (e : LogEntry) : State :=
  (if e.isFault && e.signal && decide (1 ≤ e.severity) then s.vector 49 else s).pins e

/-- LOG_REPORT (R499, R502, R507): the oldest report reaches the master hub. -/
def execLogReport (s : State) : Out :=
  match s.reports with
  | [] => .refused .noSuch
  | e :: rest =>
    need (!s.plant.bothLost) .wrongState <|
    let s := { s with reports := rest }
    if s.log.stopped then .next s
    else if s.lg F.logStat_hostRingOnly != 0 then
      let n := s.hringSize
      let tail := s.lg F.logHringTail_tail
      if s.hringOn && (tail + 1) % n != s.lg F.logHringHead_head % n then
        let q := s.lg F.logStat_nextSeq
        let (_, s) := s.putBytes ⟨s.master, 0x11, 0⟩ (s.lg F.logHring_base + 32 * tail) ({ e with w3 := putBits e.w3 0 32 q }).bytes
        .next (((s.putLg F.logHringTail_tail ((tail + 1) % n)).putLg F.logStat_nextSeq (q + 1)).signals e)
      else .next ((s.dropEntry e).pins e)
    else
      let low := e.isFault && e.severity == 0
      if s.logFree = 0 ∨ (low ∧ s.logFree < 256) then .next ((s.dropEntry e).pins e)
      else
        let s := if 0 < s.log.droppedLow + s.log.droppedHigh then
            let gap := faultEntry s.now ⟨s.master, pageOf .log s.master 0, 0x3F, none⟩ 13 0 31 0 (bits s.log.droppedLow 0 32 + 2 ^ 32 * bits s.log.droppedHigh 0 32) false false
            { s with log := { s.log with droppedLow := 0, droppedHigh := 0 } }.commit gap
          else s
        .next ((s.commit e).signals e)

/-- The entries that are not yet in flash, oldest first. -/
def State.unspilled (s : State) : List LogEntry := s.log.ring.filter fun e => decide (s.log.spilled ≤ e.seq)

/-- Write entries to the flash partition (R503): append-only and circular; a page of 8 entries takes 264 bytes of it. -/
def State.writeFlash (s : State) (es : List LogEntry) : State :=
  let all := s.log.flash ++ es
  let keep := s.lg F.logFlashcfg_size * (65536 / 264) * 8
  let next := match es.getLast? with | some e => e.seq + 1 | none => s.log.spilled
  let log := { s.log with flash := all.drop (all.length - keep), spilled := next }
  let s := { s with log := { log with oldestAt := if (log.ring.filter fun (e : LogEntry) => decide (next ≤ e.seq)).isEmpty then none else some s.now } }
  (if es.isEmpty then s else s.putLg F.logSpill_spilledSeq (next - 1)).putLg F.logSpill_unspilled s.unspilled.length

/-- A unit takes a function back (R418): HOST clears, REVERTED sets, CE is logged, and the change is recorded with origin F. -/
def State.revert (s : State) (fn node page : Nat) : State :=
  let old := s.regWord .dutyMode node page 0
  let clear := fun (v : Nat) => ofBits ((setBits 12 v).filter fun (i : Nat) => i != fn - 1)
  let s := s.put F.dutyMode_host node page 0 (clear (s.fld F.dutyMode_host node page))
  let s := s.put F.dutyMode_reverted node page 0 (ofBits ((fn - 1) :: setBits 12 (s.fld F.dutyMode_reverted node page)))
  let s := s.stateEntry ⟨node, page, 0x3F, none⟩ .ce .other 0 fn
  s.change node page 0x40 .F 3 old (s.regWord .dutyMode node page 0)

/-- LOG_SPILL (R503): a page of 8 entries, or what has waited for 1 ms; in host-assisted mode of function 11 only from 1,536 entries on,
the function then taken back (R418-R419). A flash failure sets FLASH_FAIL. -/
def execLogSpill (ok : Bool) (s : State) : Out :=
  let l := s.unspilled
  need (s.flashWorks && !l.isEmpty && !s.log.stopped) .wrongState <|
  need (!s.hostSpills || decide (1536 ≤ l.length)) .wrongState <|
  need (decide (8 ≤ l.length) || (match s.log.oldestAt with | some t => decide (t + ms ≤ s.now) | none => false)) .notDue <|
  let s := if s.hostSpills then s.revert 11 s.master (pageOf .log s.master 0) else s
  if ok then .next (s.writeFlash (l.take 8))
  else .next (((s.putLg F.logSpill_flashFail 1).error ⟨s.master, pageOf .log s.master 0, 0x3F, none⟩ 12 .de 0 0).alert)

/-- A bank is retired (R506-R507): the entry, LOG_LATCH of both hubs, ALERT_N, vector 52. -/
def State.retireBank (s : State) (hub bank word : Nat) : State :=
  if !bit (s.fld F.logStat_banksOk hub) bank then s else
  let s := s.put F.logStat_banksOk hub 0 0 (s.fld F.logStat_banksOk hub - 2 ^ bank)
  let gone := s.fld F.logStat_banksOk hub == 0
  let all := gone && s.fld F.logStat_banksOk (otherHub hub) == 0
  let s := [180, 181].foldl (fun s h =>
    let s := (s.put F.logLatch0_time h 0 0 s.now).put F.logLatch1_valid h 0 0 1
    let s := ((s.put F.logLatch1_hub h 0 0 (hub - 180)).put F.logLatch1_bank h 0 0 bank).put F.logLatch1_word h 0 0 word
    let s := (s.put F.logLatch1_allFailed h 0 0 (b2n all)).bump F.logLatch1_count h 0 0
    let s := if gone then s.put F.logStat_mirrorLost h 0 0 1 else s
    if all then s.put F.logStat_hostRingOnly h 0 0 1 else s) s
  let s := s.errorWith ⟨hub, pageOf .log hub 0, bank, none⟩ 15 12 .de 0 (hub - 180 + 2 * bank + 8 * word + 65536 * b2n all)
  s.alert.vector 52

/-- LOG_SCRUB (R506): every 100 ms the banks are read; words corrected, words with a double-bit error: (hub, bank, word). -/
def execLogScrub (bad : List (Nat × Nat × Nat)) (corrected : Nat) (s : State) : Out :=
  need (bad.all fun w => isHub w.1 && decide (w.2.1 < 4) && decide (w.2.2 < 8192)) .noSuch <|
  need (decide (s.plant.scrubAt + 100 * ms ≤ s.now)) .notDue <|
  let s := s.modPlant fun p => { p with scrubAt := s.now }
  let s := (List.range corrected).foldl (fun s _ => s.error ⟨s.master, pageOf .log s.master 0, 0x3F, none⟩ 0 .ce 0 0) s
  .next (bad.foldl (fun s w => s.retireBank w.1 w.2.1 w.2.2) s)

/-- A head of the host ring that passes the tail is refused (R510). -/
def State.refusesHead (s : State) (v : Word) : Bool :=
  let n := s.hringSize
  let tail := s.lg F.logHringTail_tail
  let old := s.lg F.logHringHead_head % n
  let new := wordField v 0 16
  decide (n ≤ new) || decide ((tail + n - old) % n < (new + n - old) % n)

/-- A write of LOG_HRING_HEAD takes effect (R503, R510): the entries before it are acknowledged; what waits is copied. -/
def State.onHead (s : State) : State :=
  let n := s.hringSize
  let left := (s.lg F.logHringTail_tail + n - s.lg F.logHringHead_head % n) % n
  { s with log := { s.log with acked := s.log.copied - left } }.copyHost 8192

/-- The flush of the log (R504): no further SEQ; a POWER marker with the highest SEQ assigned; `n` unspilled entries, oldest first. Without a working
flash partition nothing is written. -/
def State.flushLog (s : State) (n : Nat) : State :=
  let hi := (s.lg F.logStat_nextSeq + (2 ^ 32 - 1)) % 2 ^ 32
  let l := s.unspilled.take n
  let s := { s with log := { s.log with stopped := true } }
  if !s.flashWorks then s else
  let s := s.writeFlash l
  { s with log := { s.log with marker := some (hi, s.lg F.logStat_holdupReady == 1) } }

/-- HOLDUP_CHARGED (R504): 400 ms after VIN_CORE is present. -/
def execHoldupCharged (s : State) : Out :=
  need (s.plant.vinCore && s.lg F.logStat_holdupReady == 0) .wrongState <|
  need (decide (s.plant.vinAt + 400 * ms ≤ s.now)) .notDue <|
  .next ([180, 181].foldl (fun s h => s.put F.logStat_holdupReady h 0 0 1) s)

end Sys2Proof.Machine
end

