-- ==== Sys2Proof/Machine/Resets.lean ====
section
/-!
DEFINITION. Enable, quiesce, drain and reset of units (R398-R400, R494, R522-R525).
-/
namespace Sys2Proof.Machine

/-- Bring-up has reached readiness (R521). -/
def State.ready (s : State) : Bool := s.flag F.hubBoot_ready 180

/-- Names of a unit among the drains. -/
def drainKey (node page : Nat) : Nat := node * 64 + page

/-- What a unit drains for. -/
def State.drain? (s : State) (node page : Nat) : Option DrainFor := Sparse.find? s.drains (drainKey node page)

/-- The blocks whose work a unit's drain waits for: all four of a region, a block itself. -/
def drainBlocks (node page : Nat) : List Nat :=
  match pageKind node page with
  | some (.rgn, _) => [0, 1, 2, 3]
  | some (.blk, b) => [b]
  | _ => []

/-- A queue belongs to a unit that drains or is reset. -/
def drainsQueue (node page : Nat) (q : QueueRef) : Bool :=
  q.node == node && (isEdge node && page == pageOf .drv node 0 || (drainBlocks node page).contains q.blk && !isEdge node)

/-- Work in flight of a block: commands, launches, SX, pen requests not yet answered. -/
def State.busyBlock (s : State) (node blk : Nat) : Bool :=
  (unitQueues node blk).any (fun q => (s.queue q).cur.isSome) || !(s.block node blk).launches.isEmpty || (s.block node blk).sx.isSome ||
    !(s.penUnit node blk).pending.isEmpty

/-- A unit's drain is complete (R208, R400): no work in flight; for a reset, an update or power-down no pen held either. -/
def State.drained (s : State) (node page : Nat) (why : DrainFor) : Bool :=
  let bs := drainBlocks node page
  bs.all (fun b => !s.busyBlock node b) && (why == .quiesce || bs.all fun b => (s.penUnit node b).pens.isEmpty) &&
    (page != pageOf .drv node 0 || !isEdge node || ((unitQueues node 0).all (fun q => (s.queue q).cur.isNone) && (s.drove node).streams.isEmpty))

/-- A unit drains (R208, R400): for other than QUIESCE its jobs abort and its pen units make no more grants. -/
def State.startDrain (s : State) (node page : Nat) (why : DrainFor) : State :=
  let s := if why = .quiesce then s else
    let s := if isRegion node && page == 0 && (why == .reset || why == .update) then s.overrule node else s
    let s := s.abortWhere (drainsQueue node page) .targetResetting
    (drainBlocks node page).foldl (fun s b => s.penDrain node b .targetResetting) s
  let s := if isRegion node && page == 0 && (why == .reset || why == .update) then s.flushFolds node else s
  { s.movePages node [page] .draining with drains := Sparse.set s.drains (drainKey node page) why }

/-- Resets of blocks pending under a region's own are abandoned (R31, R525). -/
def State.dropBlockDrains (s : State) (node by' : Nat) : State :=
  let gone := s.drains.filter fun e => e.1 / 64 == node && decide (8 ≤ e.1 % 64)
  let s := { s with drains := s.drains.filter fun e => !gone.contains e }
  gone.foldl (fun s e => s.superseded ⟨node, e.1 % 64, 0x3F, none⟩ 0 by') s

/-- RESET_REQ is refused with KIND 0x5 (R400, R525): before readiness, and by a unit that is retired, suspect, quiesced or off. -/
def State.refusesReset (s : State) (node page : Nat) : Bool :=
  !s.ready || match s.unit node page with
    | .running | .draining | .starting => false
    | _ => true

/-- RESET_REQ takes effect (R523, R525): the unit drains for its reset; merged into one that drains or starts already; a block's is superseded while its
region drains or starts; a region in Nap wakes first. -/
def State.onResetReq (s : State) (node page : Nat) : State :=
  let region := isRegion node && page == 0
  if isRegion node && page != 0 && s.unit node 0 != .running then s.superseded ⟨node, page, 0x3F, none⟩ 0 node
  else match s.unit node page with
    | .running | .draining =>
      if s.drain? node page = some .reset ∨ s.drain? node page = some .update then s else
      let s := if region then s.dropBlockDrains node node else s
      let s := if region && s.fld F.pwrStat_state node == 2 then s.exitNap node else if region && s.idles node then s.leaveIdle node else s
      s.startDrain node page .reset
    | _ => s

/-- QUIESCE or ENABLE may not change in a retired unit, nor may a die that does not serve be enabled (R400, R411). -/
def State.refusesUnitCtrl (s : State) (node page : Nat) (old new : Word) : Bool :=
  (s.unit node page == .retired && (wordField old 0 1 != wordField new 0 1 || wordField old 2 1 != wordField new 2 1)) ||
    (isRegion node && s.role node != 0 && wordField old 0 1 == 0 && wordField new 0 1 == 1)

/-- ENABLE has changed (R400): 0 drains a running unit, and one that drains for QUIESCE, towards off; 1 starts a unit that is off. -/
def State.onEnable (s : State) (node page : Nat) (on : Bool) : State :=
  match on, s.unit node page with
  | false, .running => (if isRegion node && page == 0 && s.idles node then (if s.fld F.pwrStat_state node = 2 then s.exitNap node else s.leaveIdle node) else s).startDrain node page .off
  | false, .draining => if s.drain? node page = some .quiesce then s.startDrain node page .off else s
  | true, .off => if isRegion node && page == 0 then s.wave node else s.movePages node [page] .starting
  | _, _ => s

/-- QUIESCE has changed (R400). -/
def State.onQuiesce (s : State) (node page : Nat) (on : Bool) : State :=
  match on, s.unit node page with
  | true, .running => s.startDrain node page .quiesce
  | false, .quiesced => s.movePages node [page] .running
  | _, _ => s

/-- A write of UNIT_CTRL takes effect (R398). -/
def State.onUnitCtrl (s : State) (node page : Nat) (old w : Word) : State :=
  let s := if wordField old 0 1 != wordField w 0 1 then s.onEnable node page (wordField w 0 1 == 1) else s
  let s := if wordField old 2 1 != wordField w 2 1 then s.onQuiesce node page (wordField w 2 1 == 1) else s
  if wordField w 1 1 = 1 then s.onResetReq node page else s

/-- The slot that is not in force, and the version it holds (R526). -/
def State.otherSlot (s : State) : Option FirmwareSlot := if s.tray.inB then s.tray.slotA else s.tray.slotB
def State.updateVersion (s : State) : Nat := match s.otherSlot with | some x => x.version | none => 0

/-- The update is done (R526 step 4): the new slot is in force, its version reads everywhere, the boot record no longer fits. -/
def State.endUpdate (s : State) : State :=
  let s := (List.range 156).foldl (fun s n => if s.role n == 4 then s else s.put F.rgnFw_version n 0 0 s.updateVersion) s
  let t := s.tray
  let record : Option BootRecord := t.record.map fun r => { r with fits := false }
  let s := { s with tray := { t with inB := !t.inB, record := record } }
  (s.put F.hubBoot_updState 180 0 0 4).put F.hubBoot_image 180 0 0 (b2n !t.inB)

/-- The next round of an update (R526 step 3): the first region of each row that is left drains for it; a region in Nap wakes for it, one that does not run
takes the image only. With none left the update is done. -/
def State.updateRounds (s : State) : Nat → State
  | 0 => s
  | fuel + 1 =>
  if s.active.any fun n => s.flag F.rgnFw_updating n && decide (s.unit n 0 ≠ .retired) then s else
  let left := s.plant.updateLeft.filter fun n => s.role n == 0
  match left with
  | [] => s.endUpdate
  | _ =>
    let round := (List.range 12).filterMap fun r => left.find? fun n => n / 13 == r
    let s := s.modPlant fun p => { p with updateLeft := left.filter fun n => !round.contains n }
    (round.foldl (fun s n =>
      if s.unit n 0 != .running then s else
      let s := if s.fld F.pwrStat_state n = 2 then s.exitNap n else if s.idles n then s.leaveIdle n else s
      (s.put F.rgnFw_updating n 0 0 1).startDrain n 0 .update) s).updateRounds fuel

/-- Go on with the update: at most 13 rounds. -/
def State.updateNext (s : State) : State := s.updateRounds 14

/-- A unit is off (R400): a region's core is gated, what a block held ends. -/
def State.offUnit (s : State) (node page : Nat) : State :=
  match pageKind node page with
  | some (.rgn, _) => s.stopRegion node
  | some (.blk, b) => (s.dropBlock node b .targetResetting).movePages node [page] .off
  | _ => s.movePages node [page] .off

/-- A partial reset (R523 steps 2-3): a region's core domain and blocks, or a block. -/
def State.resetUnit (s : State) (node page : Nat) : State :=
  match pageKind node page with
  | some (.rgn, _) =>
    let s := (s.overrule node).dropRegion node .targetResetting
    let s := [0, 1, 2, 3].foldl (fun s b => s.resetBlock node b) s
    (s.clearPage node 0).movePages node (corePages node) .starting
  | some (.blk, b) => ((s.dropBlock node b .targetResetting).resetBlock node b).movePages node (blockPages node b) .starting
  | some (.drv, _) => s.resetDrove node
  | some (.hbm, _) => s.resetController node
  | _ => (s.clearPage node page).movePages node [page] .starting

/-- DRAIN_COMPLETE (R208, R400): the work in flight of a draining unit is complete. -/
def execDrainComplete (node page : Nat) (s : State) : Out :=
  match s.drain? node page with
  | none => .refused .noSuch
  | some why =>
    need (s.unit node page == .draining && s.drained node page why) .wrongState <|
    let s := { s with drains := Sparse.del s.drains (drainKey node page) }
    match why with
    | .quiesce => .next (if s.flag F.unitCtrl_quiesce node page then s.movePages node [page] .quiesced else s.movePages node [page] .running)
    | .off => .next (s.offUnit node page)
    | .reset => .next (s.resetUnit node page)
    | .update => .next ((s.resetUnit node page).put F.rgnFw_version node 0 0 s.updateVersion)

/-- A unit has failed its self-test (R400, R519): a block's or region's failure retires the region; an edge die's units fail as R484 and R325 say. -/
def State.failTest (s : State) (node page : Nat) : State :=
  if isRegion node then s.retireRegion node page 31 1
  else match pageKind node page with
    | some (.drv, _) => (s.countEdge node 2 4).movePages node [page] .retired
    | some (.hbm, _) => if s.stackFailed (node - 156) then s else s.failStack (node - 156) .stopped 1
    | some (k, _) => (s.retirement ⟨node, page, 0x3F, none⟩ 31 .ueUnit (typeCode k) 1).movePages node [page] .retired
    | none => s

/-- A unit passes its self-test and accepts work (R400). -/
def State.passTest (s : State) (node page : Nat) : State :=
  match pageKind node page with
  | some (.rgn, _) => s.startRegion node
  | some (.blk, b) => s.startBlock node b
  | some (.hbm, _) => (s.movePages node [page] .running).wakeStack (node - 156)
  | _ => s.movePages node [page] .running

/-- SELF_TEST_DONE (R400, R523 steps 4-5): a region's only once its wave, if it started with one, is complete. -/
def execSelfTestDone (node page : Nat) (ok : Bool) (s : State) : Out :=
  need (pageKind node page).isSome .noSuch <|
  need (s.unit node page == .starting && (!isRegion node || s.role node == 0) &&
    (!isRegion node || page == 0 || s.unit node 0 == .running)) .wrongState <|
  need (!isRegion node || decide ((s.pow node).upAt ≤ s.now)) .notDue <|
  let s := if ok then s.passTest node page else s.failTest node page
  .next (if isRegion node && page == 0 && s.flag F.rgnFw_updating node then (s.put F.rgnFw_updating node 0 0 0).updateNext else s)

/-- A compute reset may not start before readiness (R525). -/
def State.refusesCompute (s : State) : Bool := !s.ready

/-- A fall-back core is held in reset (R425, R522): its requests end, and it is not running. -/
def State.holdCore (s : State) (hub c : Nat) : State :=
  let s := { s with outstanding := s.outstanding.filter fun r => !(r.node == hub && r.unit == c) }
  (s.put F.hubFbctrl_run hub 0 c 0).put F.hubFbctrl_state hub 0 c 0

/-- COMPUTE_RESET takes effect (R522-R523, R525): every job aborts, then every region in service, drove engine, gate unit and fall-back core is reset; a
region in Nap stays there. -/
def State.computeReset (s : State) : State :=
  let s := s.abortWhere (fun _ => true) .targetResetting
  let old := s.drains
  let s := { s with drains := s.drains.filter fun e => isHub (e.1 / 64) || e.1 % 64 != 0 && isEdge (e.1 / 64) && e.1 % 64 != 2 }
  let s := old.foldl (fun s e => if s.drains.contains e then s else s.superseded ⟨e.1 / 64, e.1 % 64, 0x3F, none⟩ 0 s.master) s
  let s := s.active.foldl (fun s n =>
    if s.fld F.pwrStat_state n = 2 then (corePages n).foldl (fun s p => s.clearPage n p) ([0, 1, 2, 3].foldl (fun s b => s.clearBreak n b) s) |> fun s =>
      [0, 1, 2, 3].foldl (fun s b => s.showVec n b) s
    else match s.unit n 0 with
      | .off | .retired => s
      | _ => (if s.idles n then s.setPwr n 0 else s).resetUnit n 0) s
  let s := (List.range 24).foldl (fun s e => if s.unit (156 + e) (pageOf .drv (156 + e) 0) = .retired then s else s.resetDrove (156 + e)) s
  let s := [180, 181].foldl (fun s h => (List.range 8).foldl (fun s c => s.holdCore h c) s) s
  let tags := s.jobs.map (·.1)
  tags.foldl (fun s t => (s.jobEnd t).jobSettle t) ({ s with intake := [] }.put F.hubTally_intake 180 0 0 0)

end Sys2Proof.Machine
end

