-- ==== Sys2Proof/Machine/Boot.lean ====
section
/-!
DEFINITION. Panel reset, loss of a rail and bring-up (R443, R504-R505, R512-R525, R547).
-/
namespace Sys2Proof.Machine

/-- The boot record after `t` more of power-on time (R517). -/
def BootRecord.after (r : BootRecord) (t : Nat) : BootRecord := { r with hours := min 0xFFFF (r.hours + t / (3600 * sec)) }

/-- Registers whose values the fuses give: they read the same after every panel reset (R43, R438, R475). -/
def Reg.fused : Reg → Bool
  | .rgnSite | .pwrOptable | .clkDroop => true
  | _ => false

/-- The fused words of the registers, as a panel reset leaves them: fused-bad flag and grade, operating points, droop threshold (R514). -/
def State.fusedRegs (s : State) : Sparse Word :=
  let key := fun (r : Reg) (n i : Nat) => (r.key n 0 i, s.word r n 0 i)
  let f := s.tray.fuses
  let site := fun n => (Reg.key .rgnSite n 0 0,
    wordPut (wordPut (resetWord .rgnSite n 0 0) F.rgnSite_grade.lo F.rgnSite_grade.width (Sparse.get 15 f.grades n)) F.rgnSite_fusedBad.lo 1 (b2n (f.badDies.contains n)))
  let l := (List.range 156).flatMap fun n =>
    site n :: key .clkDroop n 0 :: (List.range 16).map fun i => key .pwrOptable n i
  l.foldl (fun m e => Sparse.set m e.1 e.2) []

/-- Host memory, which no reset of the panel touches. -/
def Mem.hostOnly (m : Mem) : Mem :=
  { cells := m.cells.filter fun c => decide (0x300000000000 ≤ c.1)
    undef := m.undef.filter fun r => decide (0x300000000000 ≤ r.lo) }

/-- Panel reset (R522, R524): every domain but the always-on one, whose log SRAM is kept; the tray's flash and the fuses stay; the stacks and the
scratchpads lose their contents (R195, R518). Panel time runs from 0 again. -/
def State.panelReset (s : State) (held : Bool) : State :=
  let d := s.freeCount
  let m := s.mem.hostOnly
  let m := (m.undefine 0 (24 * stackSize) d).undefine 0x100000000000 (156 * 0x10000000) d
  let tray := { s.tray with record := s.tray.record.map fun r => r.after s.now }
  let p := s.plant
  let s' : State :=
    { regs := s.fusedRegs, mem := m, freeCount := d + 1, nextTxn := s.nextTxn, tray := tray, outbox := s.outbox, pending := s.pending
      log := { ring := s.log.ring, flash := s.log.flash, marker := s.log.marker, spilled := s.log.spilled, stopped := true }
      plant := { throttle := p.throttle, airflow := p.airflow, pwrEn := p.pwrEn, resetN := held, vinCore := p.vinCore, vaon := p.vaon, refLost := p.refLost } }
  s'.put F.hubBootctl_forceFull 180 0 0 (b2n ((tray.record.map (·.forceFull)).getD false))

/-- The whole flush, then panel reset: while VAON stays present the flush always completes (R524). -/
def State.flushAndReset (s : State) (held : Bool) : State := (s.flushLog s.unspilled.length).panelReset held

/-- PANEL_RESET_ASSERT (R524): the pin resets every other domain at once; the always-on domain completes the flush. -/
def execPanelResetAssert (s : State) : Out :=
  need s.plant.vaon .wrongState <| .next (s.flushAndReset true)

/-- PWR_EN_DEASSERT (R547): a requested panel reset, and the panel holds in reset. -/
def execPwrEnDeassert (s : State) : Out :=
  need s.plant.pwrEn .wrongState <| .next ((s.flushAndReset true).modPlant fun p => { p with pwrEn := false })

/-- VIN_CORE_LOSS (R443, R504, R522, R547): the flush writes `n` entries until 20 ms after the loss, at least 512 of those waiting where the hold-up bank was
charged; then panel reset. `vaonLost`: VAON goes too. -/
def execVinCoreLoss (n : Nat) (vaonLost : Bool) (s : State) : Out :=
  need s.plant.vinCore .wrongState <|
  need (s.lg F.logStat_holdupReady == 0 || decide (min 512 s.unspilled.length ≤ n)) .wrongState <|
  .next (((s.flushLog n).panelReset true).modPlant fun p => { p with vinCore := false, vaon := p.vaon && !vaonLost })

/-- VAON is lost while VIN_CORE is present (R443, R504, R547): the panel stops, and the always-on domains flush `n` entries from the hold-up bank. -/
def State.loseVaon (s : State) (n : Nat) : State :=
  ((if s.pstate = 4 then s else s.panelStop .rail s.master 0).flushLog n).modPlant fun p => { p with vaon := false }

/-- PANEL_STOP (R459, R547): a sensor of any die at 115 °C, airflow or a panel rail stops the panel. Where that rail is VAON, the flush writes `n` entries,
at least 512 of those waiting where the hold-up bank was charged. -/
def execPanelStop (cause : StopCause) (s : State) : Out :=
  match cause with
  | .vaon n => need (s.plant.vaon && s.plant.vinCore && (s.lg F.logStat_holdupReady == 0 || decide (min 512 s.unspilled.length ≤ n))) .wrongState <|
    .next (s.loseVaon n)
  | c => need (s.pstate != 4) .wrongState <| .next (s.panelStop c s.master 0)

/-- VAON_PRESENT (R512): the always-on domain runs. Where VAON had gone, the log SRAM is empty. -/
def execVaonPresent (s : State) : Out :=
  let s := if s.plant.vaon then s else { s with log := { flash := s.log.flash, marker := s.log.marker, stopped := true } }
  .next (s.modPlant fun p => { p with vaon := true, refLost := false })

/-- A step of bring-up has taken its time. -/
def State.tookStep (s : State) (b : Bringup) (k : Nat) : State :=
  ({ s with now := s.now + b.steps.getD (k - 2) 0 }).put F.hubBoot_step 180 0 0 (k + 1)

/-- A step fails and leaves no usable panel (R513). -/
def State.failStep (s : State) (k : Nat) : State :=
  let s := (s.put F.hubBoot_failStep 180 0 0 k).errorWith ⟨s.master, 0, 0x3F, none⟩ 8 31 .uePanel 0 k
  s.fault

/-- A hub whose ROM check or firmware fails is held; the other is master, with no mirror (R513). -/
def State.holdHub (s : State) (hub : Nat) : State :=
  let s := { s with master := otherHub hub }
  let s := (s.put F.hubGeometry_master hub 0 0 0).put F.hubGeometry_master (otherHub hub) 0 0 1
  [180, 181].foldl (fun s h => s.put F.logStat_mirrorLost h 0 0 1) ((s.movePages hub (pagesOf hub) .retired).modPlant fun p => { p with hubLost := true })

/-- A bundle that can be authenticated (R515). -/
def FirmwareSlot.authentic (t : Tray) (x : FirmwareSlot) : Bool := x.good && decide (t.rollback ≤ x.rollback)

/-- The slot the ROM takes (R515): the higher version that is authentic, else the other. -/
def Tray.bootSlot (t : Tray) : Option Bool :=
  let ok := fun (x : Option FirmwareSlot) => match x with | some y => y.authentic t | none => false
  let v := fun (x : Option FirmwareSlot) => (x.map (·.version)).getD 0
  match ok t.slotA, ok t.slotB with
  | true, true => some (decide (v t.slotA < v t.slotB))
  | true, false => some false
  | false, true => some true
  | false, false => none

/-- The slot in force. -/
def Tray.current (t : Tray) : Option FirmwareSlot := if t.inB then t.slotB else t.slotA

/-- The log resumes at a SEQ (R505); what precedes it is in flash or missing. -/
def State.resumeLog (s : State) : State :=
  let top := fun (l : List LogEntry) => l.foldl (fun a e => max a (e.seq + 1)) 0
  let last := top s.log.flash
  let start := fun (s : State) (n spilled : Nat) =>
    let s := [180, 181].foldl (fun s h => s.put F.logStat_nextSeq h 0 0 n) s
    { s.putLg F.logSpill_spilledSeq (spilled - 1) with log := { s.log with stopped := false, marker := none, spilled := n, copied := n, acked := n } }
  let lostEntry := fun (s : State) (a b : Nat) =>
    s.report (faultEntry s.now ⟨s.master, pageOf .log s.master 0, 0x3F, none⟩ 14 0 31 0 (bits a 0 32 + 2 ^ 32 * bits b 0 32) false false)
  match s.log.marker with
  | some (hi, _) => let n := (hi + 1) % 2 ^ 32
    if last = n then start s n last else lostEntry (start s n last) last hi
  | none =>
    if s.log.flash.isEmpty then start s (top s.log.ring) 0
    else lostEntry (start s (last + 8192) last) last (last + 8191)

/-- A region fails in bring-up: it is retired, and the map is built over the rest (R513, R519). -/
def State.bootRetire (s : State) (node : Nat) : State :=
  if !isRegion node || decide (3 ≤ s.role node) || s.flag F.rgnSite_fusedBad node then s else
  let s := (s.put F.rgnSite_role node 0 0 3).retirement ⟨node, 0, 0x3F, none⟩ 31 .ueUnit 3 1
  s.movePages node (corePages node) .retired

/-- The type, node, page and unit of a retirement that an entry of the log records and bring-up reapplies; those of an injected error end with the reset
(R404, R486, R501). -/
def LogEntry.retired (e : LogEntry) : Option (Nat × Nat × Nat × Nat) :=
  if e.kind = 11 ∧ bits e.w1 62 1 = 0 then some (bits e.w2 0 8, bits e.w3 40 8, bits e.w3 48 6, bits e.w3 54 6) else none

/-- Reapply one entry of the log: a retirement (R486), or a remapped row, which hub firmware adds to the fuse list (R193). -/
def State.reapply (s : State) (e : LogEntry) : State :=
  match e.retired with
  | some (type, node, page, sub) =>
    if isRegion node then
      let b := page / 8 - 1
      if type = 6 then s.put F.mxcRetired_mask node b 0 (ofBits (sub :: setBits 33 (s.fld F.mxcRetired_mask node b)))
      else if type = 7 then (s.put F.vxcStat_retired node b 0 (ofBits (sub :: setBits 14 (s.fld F.vxcStat_retired node b)))).showVec node b
      else (s.put F.rgnSite_role node 0 0 3).movePages node (corePages node) .retired
    else if isEdge node then
      if type = 2 then
        let s := (s.put F.hbmStat_state node 0 0 4).movePages node (pagesOf node) .retired
        (List.range 5).foldl (fun s i => s.put F.lnkStat_state node 0 i 7) s
      else if type = 10 then (s.put F.hbmStat_state node 0 0 4).movePages node [pageOf .hbm node 0] .retired
      else if type = 11 ∧ sub < 5 then s.put F.lnkStat_state node 0 sub 7
      else s
    else s
  | none =>
    if e.kind = 8 ∧ bits e.w1 55 5 = 2 ∧ bits e.w2 32 32 = 0 ∧ isRegion (bits e.w3 40 8) then
      let row := (bits e.w3 40 8, bits e.w3 48 6 / 8 - 1, bits e.w2 0 8, bits e.w2 8 24)
      let f := s.tray.fuses
      if f.rows.contains row then s else { s with tray := { s.tray with fuses := { f with rows := f.rows ++ [row] } } }
    else s

/-- A die that cannot keep a block in service: a scalar cell, a control core, or three matrix cells of one block fused bad (R13). -/
def Fuses.unfit (f : Fuses) (n : Nat) : Bool :=
  f.scalar.any (·.1 == n) || f.cores.any (·.1 == n) ||
    (List.range 4).any fun b => decide (3 ≤ (f.matrix.filter fun c => c.1 == n && c.2.1 == b).length)

/-- Fuse read (R13, R514): the flag and grade of each die; full grade is not given to a die with a bad matrix or vector cell or one that cannot reach 1.50 GHz,
logged CE. -/
def State.checkGrades (s : State) : State :=
  let f := s.tray.fuses
  (List.range 156).foldl (fun s n =>
    let cells := f.matrix.any (·.1 == n) || f.vector.any (·.1 == n)
    let reach := (List.range 16).any fun i => decide (60 ≤ s.fld F.pwrOptable_freq n 0 i) && s.fld F.pwrOptable_volt n 0 i != 0
    let g := Sparse.get 15 f.grades n
    let s := s.put F.rgnSite_fusedBad n 0 0 (b2n (f.badDies.contains n || f.unfit n))
    if g = 15 ∧ (cells ∨ !reach) then (s.put F.rgnSite_grade n 0 0 14).errorWith ⟨s.master, 0, 0x3F, none⟩ 8 30 .ce 0 n
    else s.put F.rgnSite_grade n 0 0 g) s

/-- The factory spare choice of each row against R13's (R514): a difference is logged CE, and R13 prevails. -/
def State.checkSpares (s : State) : State :=
  (List.range 12).foldl (fun s r =>
    let bad := firstBelow 13 fun c => s.flag F.rgnSite_fusedBad (13 * r + c)
    let ours := match bad with | some c => some c | none => s.pickSpare r (List.range 13)
    if ours = some (Sparse.get 12 s.tray.fuses.spares r) then s
    else s.errorWith ⟨s.master, 0, 0x3F, none⟩ 8 30 .ce 0 (13 * r + ours.getD 12)) s

/-- Bad wire groups are not trained (R50, R514): the width follows. -/
def State.fuseGroups (s : State) : State :=
  s.tray.fuses.groups.foldl (fun s g =>
    if (neighbour g.1 g.2.1).isNone || decide (bridgeGroups g.1 g.2.1 ≤ g.2.2) || (s.bridge g.1 g.2.1).retired.contains g.2.2 then s else
    (s.setBridge g.1 g.2.1 { s.bridge g.1 g.2.1 with retired := (s.bridge g.1 g.2.1).retired ++ [g.2.2] }).showPort g.1 g.2.1) s

/-- Bad rows are mapped at step 10 (R193, R514). -/
def State.fuseRows (s : State) : State :=
  s.tray.fuses.rows.foldl (fun s x =>
    let row := x.2.2.1 * 2048 + x.2.2.2
    if !isRegion x.1 || decide (4 ≤ x.2.1) || (s.block x.1 x.2.1).remapped.contains row then s
    else if 32 ≤ Sparse.get 0 (s.block x.1 x.2.1).spares x.2.2.1 then s.put F.blkSramErr_spareExhausted x.1 x.2.1 0 1
    else (s.modBlock x.1 x.2.1 fun b => { b with spares := Sparse.upd 0 b.spares x.2.2.1 (· + 1), remapped := row :: b.remapped }).bump
      F.blkSramErr_sparesUsed x.1 x.2.1 0) s

/-- Bad matrix and vector cells are retired before step 11 (R514), of spares and held dies too (R23). -/
def State.fuseCells (s : State) : State :=
  let s := s.tray.fuses.matrix.foldl (fun s c => if isRegion c.1 && decide (c.2.1 < 4) && decide (c.2.2 < 33) then
    s.put F.mxcRetired_mask c.1 c.2.1 0 (ofBits (c.2.2 :: setBits 33 (s.fld F.mxcRetired_mask c.1 c.2.1))) else s) s
  s.tray.fuses.vector.foldl (fun s c => if isRegion c.1 && decide (c.2.1 < 4) && decide (c.2.2 < 14) then
    (s.put F.vxcStat_retired c.1 c.2.1 0 (ofBits (c.2.2 :: setBits 14 (s.fld F.vxcStat_retired c.1 c.2.1)))).showVec c.1 c.2.1 else s) s

/-- Bad SerDes lanes are retired before step 12 (R342, R514). -/
def State.fuseLanes (s : State) : State :=
  s.tray.fuses.lanes.foldl (fun s l => if isEdge l.1 && decide (l.2.1 < 5) && decide (l.2.2 < 8) then
    s.put F.lnkStat_lanesRetired l.1 0 l.2.1 (putBits (s.fld F.lnkStat_lanesRetired l.1 0 l.2.1) l.2.2 1 1) else s) s

/-- Scratchpad BIST (R195): after it every store reads as undefined. -/
def State.scratchTest (s : State) : State :=
  { s with mem := s.mem.undefine 0x100000000000 (156 * 0x10000000) s.freeCount, freeCount := s.freeCount + 1 }

/-- Step 9 (R518): the sectors that the test covers and finds bad count as uncorrectable; a stack that meets the limit fails. -/
def State.memoryTest (s : State) (b : Bringup) (full : Bool) (slice : Nat) : State :=
  let named := fun (st off : Nat) => (s.log.flash ++ s.log.ring).any fun e =>
    e.kind == 8 && bits e.w1 55 5 == 18 && bits e.w3 40 8 == 156 + st && bits e.w1 0 48 / 32 == off / 32
  let covered := fun (x : Nat × Nat) => decide (x.1 < 24) && decide (x.2 < stackSize) && (full || x.2 / 0x30000000 == slice || named x.1 x.2)
  let s := (b.sectors.filter covered).foldl (fun s x => if s.fld F.hbmStat_state (156 + x.1) = 2 then s.stackFound x.1 x.2 2 else s) s
  let gone := s.retiring.filterMap fun r => match r with | .stack k c => some (k, c) | _ => none
  let s := gone.foldl (fun s k => s.failStack k.1 .classified k.2) { s with retiring := s.retiring.filter fun r => match r with | .stack .. => false | _ => true }
  { s with mem := s.mem.undefine 0 (24 * stackSize) s.freeCount, freeCount := s.freeCount + 1, changes := {} }

/-- Pages of a node's units outside a region's core domain. -/
def outerPages (node : Nat) : List Nat := (pagesOf node).filter fun p => !isRegion node || !(corePages node).contains p

/-- The map, the banks of every live router, roles and geometry (R22, R25-R27, R67-R71): bank 0 is ACTIVE at the first seal. -/
def State.buildMap (s : State) : State :=
  let n := s.smallestRow
  let s := s.deadRouters.foldl State.showNeighbours (s.assignRoles n)
  let map := mapBytes (s.freshMap n)
  let stack := (List.range 24).map fun st => if s.paired && s.stackFailed st && !s.stackFailed (partner st) then 156 + partner st else 156 + st
  let s := s.buildRoutes.foldl (fun s b => s.loadRouter 0 ⟨b.2, map, stack, List.replicate 256 0⟩ 0 true b.1) s
  let s := (s.showGeometry n).showMirror.showFeed
  (List.range 156).foldl (fun s r => s.showLnum r) s

/-- The regions in service start, the dies set aside are gated (R16, R26, R446). -/
def State.startDies (s : State) : State :=
  let v := match s.tray.current with | some x => x.version | none => 0
  (List.range 156).foldl (fun s r =>
    let s := s.put F.rgnFw_version r 0 0 v
    match s.role r with
    | 0 => s.startRegion r
    | 1 | 2 => (corePages r).foldl (fun s p => s.put F.unitCtrl_enable r p 0 0) (s.setPwr r 4)
    | _ => s) s

/-- Readiness (R517, R521): the boot record is written, READY reads 1, a STATE entry. A higher rollback index is burnt. -/
def State.becomeReady (s : State) (full : Bool) (boots : Nat) : State :=
  let old : BootRecord := s.tray.record.getD {}
  let saved := (allBelow 1440 fun k => (s.link (k / 8) (k % 8)).saved)
  let s := { s with tray := { s.tray with
    record := some { fits := true, version := (match s.tray.current with | some x => x.version | none => 0), hours := if full then 0 else old.hours, boots := boots, forceFull := false, panelId := if s.panelId = 0xFFF then old.panelId else some s.panelId, bundles := saved }
    rollback := max s.tray.rollback (match s.tray.current with | some x => x.rollback | none => 0) } }
  let s := ((s.put F.hubBoot_ready 180 0 0 1).put F.hubBoot_step 180 0 0 13).put F.hubBoot_hours 180 0 0 (if full then 0 else old.hours)
  (s.put F.hubBootctl_forceFull 180 0 0 0).stateEntry ⟨s.master, 0, 0x3F, none⟩ .ce .readiness 0 s.lcols

/-- A bundle trains in step 12 (R338, R517, R520): fast with the settings of the boot record; it goes on to ALIGN where its training ends well. -/
def State.trainAtBoot (s : State) (b : Bringup) (full : Bool) (node i : Nat) : State :=
  let kept := !full && (match s.tray.record with | some r => r.bundles.contains (linkKey node i) | none => false) && !b.linksFresh.contains (node, i)
  let s := (s.modLink node i fun x => { x with saved := kept }).startTraining node i
  if b.links.contains (node, i) then (s.modLink node i fun x => { x with saved := true }).setLinkState node i .align else s

/-- Steps 5 to 13 (R512-R521). -/
def State.bringUp (s : State) (b : Bringup) (full : Bool) (boots : Nat) : State :=
  let s := (b.power.foldl State.bootRetire s).tookStep b 5
  let s := (b.bridges.foldl (fun s x =>
    let k := bridgeKey x.1 x.2
    (({ s with bridges := Sparse.upd {} s.bridges k fun y => { y with failed := true } }).showPort x.1 x.2).errorWith ⟨x.1, pageOf .rtr x.1 0, x.2, none⟩ 8 14 .ueUnit 0 x.2)
    s.fuseGroups).tookStep b 6
  let s := s.put F.hubBoot_bridgeSaved 180 0 0 (b2n (!full && !b.bridgeFresh && b.bridges.isEmpty))
  let s := (b.image.foldl State.bootRetire s).tookStep b 7
  let s := (List.range 24).foldl (fun s st =>
    if s.stackFailed st then s else
    let s := s.movePages (156 + st) [pageOf .hbm (156 + st) 0] .running
    if b.slowStacks.contains st then s.put F.hbmStat_state (156 + st) 0 0 1
    else (s.put F.hbmStat_state (156 + st) 0 0 2).setStack st { pass := some s.now }) s
  let s := (s.put F.hubBoot_stackSaved 180 0 0 (b2n (!full && !b.stackFresh && b.slowStacks.isEmpty))).tookStep b 8
  let s := (s.memoryTest b full (boots % 32)).tookStep b 9
  let s := (b.rows.foldl (fun s x => if isRegion x.1 && decide (x.2.1 < 4) && decide (x.2.2.1 < 88) && decide (x.2.2.2 < 2048) then
    s.remapRow x.1 x.2.1 x.2.2.1 x.2.2.2 else s) s.scratchTest.fuseRows).tookStep b 10
  let s := b.blocks.foldl State.bootRetire s.fuseCells
  let s := (List.range 182).foldl (fun s n => if s.live n then s.movePages n (outerPages n) .running else s) s
  let s := (b.edges.foldl (fun s e => if isEdge e then (s.countEdge e 2 4).movePages e [pageOf .drv e 0] .retired else s) s).tookStep b 11
  let s := s.buildMap.startDies.fuseLanes
  let s := (List.range 24).foldl (fun s e => (List.range 5).foldl (fun s i =>
    if s.linkState (156 + e) i != .retired && s.flag F.lnkCtrl_enable (156 + e) 0 i then s.trainAtBoot b full (156 + e) i else s) s) s
  let all := (List.range 24).all fun e => (List.range 5).all fun i => let n := 156 + e
    !s.flag F.lnkCtrl_enable n 0 i || s.linkState n i == .retired || (b.links.contains (n, i) && !b.linksFresh.contains (n, i))
  let s := (s.put F.hubBoot_linkSaved 180 0 0 (b2n (!full && all))).tookStep b 12
  s.becomeReady full boots

/-- PANEL_RESET_RELEASE (R512-R521): bring-up from step 2. -/
def execPanelResetRelease (b : Bringup) (s : State) : Out :=
  need (s.fld F.hubBoot_step 180 == 2 && s.fld F.hubBoot_failStep 180 == 0 && s.plant.vaon) .wrongState <|
  let s := s.modPlant fun p => { p with resetN := false, pwrEn := true, vinCore := true, vinAt := s.now }
  let bad := fun (l : List Nat) => [180, 181].filter l.contains
  let s := { s with master := if s.tray.masterDefault then 181 else 180 }
  let s := (s.put F.hubGeometry_master 180 0 0 (b2n (s.master == 180))).put F.hubGeometry_master 181 0 0 (b2n (s.master == 181))
  if bad b.romBad = [180, 181] then .next (s.failStep 2) else
  let s := ((bad b.romBad).foldl State.holdHub s).tookStep b 2
  if b.fuseSilent then .next (s.failStep 3) else
  let s := (List.range b.fuseDiffs).foldl (fun s _ => s.errorWith ⟨s.master, 0, 0x3F, none⟩ 8 30 .ce 0 0) s
  let s := s.checkGrades.checkSpares.tookStep b 3
  let none' := [180, 181].filter fun h => b.noBundle.contains h || b.romBad.contains h
  match s.tray.bootSlot with
  | none => .next (s.failStep 4)
  | some inB =>
    if none' = [180, 181] then .next (s.failStep 4) else
    let s := ((bad b.noBundle).filter fun h => s.unit h 0 != .retired).foldl State.holdHub s
    let s := ({ s with tray := { s.tray with inB := inB } }.put F.hubBoot_image 180 0 0 (b2n inB))
    let rec' : BootRecord := s.tray.record.getD { fits := false }
    let full := s.tray.record.isNone || !rec'.fits || rec'.version != (match s.tray.current with | some x => x.version | none => 0) || decide (720 ≤ rec'.hours) || rec'.forceFull
    let boots := (rec'.boots + 1) % 65536
    let s := ((s.put F.hubBoot_full 180 0 0 (b2n full)).put F.hubBoot_boots 180 0 0 boots).put F.hubBoot_hours 180 0 0 rec'.hours
    let s := s.put F.hubBoot_slice 180 0 0 (boots % 32)
    let (d, s) := s.draw
    let inc := Config.incarnation d
    let s := s.setWord .hubIncarnation 180 0 0 (if inc = 0 then 1 else inc)
    let s := match rec'.panelId with | some i => s.put F.hubPanel_panelId 180 0 0 i | none => s
    let s := (List.range 156).foldl (fun s n => s.put F.pwrContact_baseline n 0 0 (Sparse.get 0 s.tray.baselines n)) s
    let s := s.resumeLog
    let s := (s.log.flash ++ s.log.ring).foldl State.reapply s
    .next ((s.tookStep b 4).bringUp b full boots)

end Sys2Proof.Machine
end

