-- ==== Sys2Proof/Machine/Update.lean ====
section
/-!
DEFINITION. What writes of HUB_BOOTCTL and HUB_PANEL do beyond the register (R517, R524, R526-R527).
-/
namespace Sys2Proof.Machine

/-- An update runs (R526). -/
def State.updating (s : State) : Bool := decide (1 ≤ s.fld F.hubBoot_updState 180) && decide (s.fld F.hubBoot_updState 180 ≤ 3)

/-- UPDATE is refused while an update runs (R527), and before readiness. -/
def State.refusesUpdate (s : State) : Bool := s.updating || !s.ready

/-- UPDATE takes effect (R526): the bundle is authenticated; where the hub firmware differs the master role moves; the regions follow in rounds. -/
def State.onUpdate (s : State) : State :=
  match s.otherSlot with
  | none => (s.put F.hubBoot_updState 180 0 0 5).errorWith ⟨s.master, 0, 0x3F, none⟩ 8 31 .ce 0 0
  | some x =>
    if !x.authentic s.tray then (s.put F.hubBoot_updState 180 0 0 5).errorWith ⟨s.master, 0, 0x3F, none⟩ 8 31 .ce 0 1
    else
      let s := if x.hubDiffers && !s.plant.hubLost then
          (s.moveMaster).stateEntry ⟨otherHub s.master, 0, 0x3F, none⟩ .ce .failover 0 (otherHub s.master) else s
      let s := (s.put F.hubBoot_updState 180 0 0 3).modPlant fun p => { p with updateLeft := s.active }
      s.updateNext

/-- FORCE_FULL is kept in the boot record (R517, R527). -/
def State.onForceFull (s : State) : State :=
  let r : BootRecord := s.tray.record.getD { fits := false }
  { s with tray := { s.tray with record := some { r with forceFull := s.flag F.hubBootctl_forceFull 180 } } }

/-- The panel ID is kept in the boot record (R517). -/
def State.onPanelId (s : State) : State :=
  let r : BootRecord := s.tray.record.getD { fits := false }
  { s with tray := { s.tray with record := some { r with panelId := if s.panelId = 0xFFF then none else some s.panelId } } }

/-- A write of HUB_BOOTCTL takes effect: `w` as written. -/
def State.onBootctl (s : State) (w : Word) : State :=
  let s := s.onForceFull
  if wordField w 2 1 = 1 then s.flushAndReset false
  else
    let s := if wordField w 1 1 = 1 then s.computeReset else s
    if wordField w 3 1 = 1 then s.onUpdate else s

end Sys2Proof.Machine
end

