-- ==== Sys2Proof/Machine/Assists.lean ====
section
/-!
DEFINITION. Assists (R418-R420): posting a record, what a reply or the deadline decides, and the tasks of host-assisted dispatches.
-/
namespace Sys2Proof.Machine

/-- What ends an assist (R418, R420): hardware mode, supplied data at a panel address, or declined. -/
inductive Verdict where
  | hardware
  | supplied (addr : Nat)
  | declined
  deriving DecidableEq, Repr

/-- A classified unit is retired (R483). -/
def State.retireNow (s : State) (r : Retire) : State :=
  match r with
  | .matrixCell n b c sev count rounds => s.retireCell n b c (if sev = 0 then .ce else .de) count rounds
  | .vectorCell n b c count => s.retireVecCell n b c count
  | .bundle n b => s.retireBundle n b (s.recentFlaps n b).length
  | r => s.toRetire r

/-- A classified unit is kept (R483): its count is cleared and it stays in service. -/
def State.keepUnit (s : State) (a : Assist) (r : Retire) : State :=
  let s := if s.unit a.node a.page = .suspect then s.moveUnit a.node a.page .running else s
  let s := { s with detected := if s.retiring.any fun x => x.node == r.node then s.detected else Sparse.del s.detected r.node }
  let s := match r with
    | .matrixCell n b c .. => s.clearEvents (eventKey 1 (blockKey n b * 33 + c))
    | .vectorCell n b _ _ => s.modBlock n b fun x => { x with vecFailedOnce := false }
    | .block .. => s
    | .region n .. =>
      let s := (s.clearEvents (eventKey 12 n)).clearEvents (eventKey 13 n)
      if s.coreOn n then s else s.restartRegion n
    | .bundle n b => (s.modLink n b fun x => { x with flaps := [] }).put F.lnkStat_flaps n 0 b 0
    | .stack st _ => (List.range 32).foldl (fun s i => s.clearEvents (eventKey 10 (32 * st + i))) (s.clearEvents (eventKey 9 st))
    | .edge n .. => s.clearEvents (eventKey 11 n)
  s.stateEntry ⟨a.node, a.page, 0x3F, none⟩ .ce .other 0 a.arg2

/-- The decision list of a drove engine (R419 function 4): one 4-byte entry for each sequence, an expert, or 0x3FF for none. -/
def State.droveDecisions (s : State) (node addr : Nat) : Option (List (Option Nat)) × State :=
  match (s.drove node).experts with
  | none => (none, s)
  | some e =>
    let (st, bs, s) := s.get ⟨node, 0, e.tag⟩ addr (4 * e.count)
    let es := (chunks 4 e.count bs).map fun b => leNat b % 1024
    (if st = .done then some (es.map fun x => if x = 0x3FF then none else some x) else none, s)

/-- The rotation order the host supplies, one byte a cell (R419 function 9): numbers of no cell, and repeats, are passed over. -/
def State.rotationOrder (s : State) (n addr : Nat) : List Nat × State :=
  let (st, bs, s) := s.get ⟨s.master, 0x11, 64⟩ addr n
  (if st = .done then ((bs.map BitVec.toNat).filter fun c => decide (c < n)).eraseDups else [], s)

/-- A dispatch that waits for the host goes on (R419 function 3). -/
def State.resumeDispatch (s : State) (q : QueueRef) (byRecords : Bool) : State :=
  match (s.queue q).cur with
  | some c => if c.wait == .assist && c.status.isNone then (s.modCur q fun c => { c with wait := .none }).dispatch q c.desc byRecords else s
  | none => s

/-- What a verdict on an assist brings about (R419-R420). -/
def State.resolve (s : State) (a : Assist) (v : Verdict) : State :=
  match a.what with
  | .retire r => if v = .declined then s.keepUnit a r else s.retireNow r
  | .tables _ =>
    let t : Option (Option Nat) := some (match v with | .supplied x => some x | _ => none)
    { s with changes := { s.changes with tables := if s.changes = {} then none else t } }
  | .dispatch q => s.resumeDispatch q (match v with | .supplied _ => true | _ => false)
  | .droves node => match v with
    | .supplied x => let (l, s) := s.droveDecisions node x
      s.decideExperts node l
    | _ => s.decideExperts node none
  | .training node b =>
    let s := s.modLink node b fun x => { x with asking := false }
    if v = .declined && s.linkState node b == .train then s.restLink node b else s
  | .rounds node blk vec => match v with
    | .supplied x =>
      let (l, s) := s.rotationOrder (if vec then 14 else 33) x
      s.modBlock node blk fun b => if vec then { b with vecOrderNext := l } else { b with orderNext := l }
    | _ => s
  | .wake x => if v = .declined || s.pstate != 2 then s else s.wakeNow (x % 16) (x / 16)
  | .scrub _ => s

/-- Records the assist ring holds (R420). -/
def State.assistSize (s : State) : Nat :=
  let n := s.fld F.hubAssistCfg_log2 180
  2 ^ (if 4 ≤ n ∧ n ≤ 10 then n else 4)

/-- The 64-byte record of an assist (R420). -/
def Assist.record (a : Assist) : Nat :=
  packFields [(0, 16, a.id), (16, 4, a.fn), (20, 8, a.node), (28, 6, a.page), (64, 64, a.deadline), (128, 64, a.arg1), (192, 64, a.arg2)]

/-- Post an assist, or act as hardware at once and count the miss (R418, R420). -/
def State.postAssist (s : State) (a : Assist) : State :=
  if s.flag F.hubAssistCfg_enable 180 && decide (s.assists.length < s.assistSize) then
    let id := s.fld F.hubAssistStat_nextId 180
    let a := { a with id := id }
    let at' := s.fld F.hubAssistCfg_base 180 + 64 * (id % s.assistSize)
    let s := (s.putBytes ⟨s.master, 0x11, 64⟩ at' (leBytes 64 a.record)).2
    let s := (s.count F.hubAssistStat_nextId 180 0 0).put F.hubAssistStat_pending 180 0 0 (s.assists.length + 1)
    { s with assists := s.assists ++ [a] }.vector (min 47 (s.fld F.hubCqcfg_vector s.master 0 (s.fld F.hubAssistCfg_cq 180)))
  else (s.bump F.hubAssistStat_fullMisses 180 0 0).resolve a .hardware

/-- The start of a block's next round of tests (R131, R136, R170). -/
def State.nextRound (s : State) (node blk : Nat) (vec : Bool) : Nat :=
  let b := s.block node blk
  let rest := fun (n : Nat) (order : List Nat) (live : Nat → Bool) (last : Option Nat) => (restOfRound n order live last).length
  let cells := fun last => rest 33 b.order (fun c => !s.cellRetired node blk c) (some last)
  if vec then b.vecStart + (b.vecTests + rest 14 b.vecOrder (fun c => !s.vecRetired node blk c) b.vecLast) * (640 * us)
  else if s.flag F.mxcRoundsStat_sliced node blk then
    b.sliceStart + (b.slices + 1 + cells b.sliceNext) * (2112 * us) / max 1 (s.cellOrder node blk).length
  else b.roundStart + (b.rotations + 1 + cells (s.outCell node blk)) * (64 * us)

/-- An assist a unit asks for ahead of a switch, a scrub pass or a round of tests (R419 functions 2, 8 and 9), if it may now. -/
def State.ownAssist (s : State) (k : Ask) : Option Assist :=
  if s.assists.any (fun a => a.what == k) then none else
  match k with
  | .tables n =>
    if s.hostDuty s.master 0 2 && decide (s.changes ≠ {}) && s.changes.tables.isNone
        && !s.assists.any (fun a => match a.what with | .tables _ => true | _ => false) then
      some { fn := 2, node := s.master, page := 0, deadline := s.now + assistTime 2, arg1 := n, what := k }
    else none
  | .scrub st =>
    let n := 156 + st
    match (s.stack st).pass with
    | some t => if decide (st < 24) && s.hostDuty n (pageOf .hbm n 0) 8 then
        some { fn := 8, node := n, page := pageOf .hbm n 0, deadline := t + s.passTime + s.passExtra st, what := k } else none
    | none => none
  | .rounds node blk vec =>
    let page := pageOf (if vec then .vxc else .mxc) node blk
    if isRegion node && decide (blk < 4) && s.clocked node blk && s.hostDuty node page 9 then
      some { fn := 9, node := node, page := page, deadline := s.nextRound node blk vec, arg1 := s.nextRound node blk vec, what := k }
    else none
  | _ => none

/-- ASSIST_POST (R418-R420): the oldest assist asked for is posted; or (`own`) a unit asks ahead of a switch, a pass or a round. -/
def execAssistPost (own : Option Ask) (s : State) : Out :=
  match own with
  | some k => match s.ownAssist k with
    | some a => .next (s.postAssist a)
    | none => .refused .wrongState
  | none => match s.asks with
    | [] => .refused .wrongState
    | a :: rest => .next ({ s with asks := rest }.postAssist a)

/-- Take a pending assist off the list. -/
def State.endAssist (s : State) (id : Nat) : State :=
  let s := { s with assists := s.assists.filter fun a => a.id != id }
  s.put F.hubAssistStat_pending 180 0 0 s.assists.length

/-- When the gap of a function's periodic host writes runs out at a unit (R418-R419). -/
def State.gapEnd (s : State) (fn node page : Nat) : Option Nat :=
  match fn, pageKind node page with
  | 5, some (.pwr, _) => some ((s.pow node).shared + 10 * ms)
  | 5, some (.hubMain, _) => some (s.plant.sharesAt + 10 * ms)
  | 6, some (.hubMain, _) => some (s.plant.fcHostAt + 100 * ms)
  | 10, some (.tim, _) => some (s.plant.rateAt + 16 * ms)
  | _, _ => none

/-- ASSIST_DEADLINE (R418): no reply, or no periodic write, has come in time. -/
def execAssistDeadline (x : Overdue) (s : State) : Out :=
  match x with
  | .assist id => match s.assists.find? (·.id == id) with
    | none => .refused .noSuch
    | some a => need (decide (a.deadline ≤ s.now)) .notDue <| .next (((s.endAssist id).revert a.fn a.node a.page).resolve a .hardware)
  | .gap fn node page => match s.gapEnd fn node page with
    | none => .refused .noSuch
    | some t =>
      need (s.hostDuty node page fn) .wrongState <| need (decide (t ≤ s.now)) .notDue <| .next (s.revert fn node page)

/-- A reply names a pending assist and a verdict (R420); `data` is the panel address. -/
def State.replyAssist (s : State) (id verdict data : Nat) : State :=
  match s.assists.find? (·.id == id) with
  | none => s
  | some a => (s.endAssist id).resolve a (match verdict with | 0 => .hardware | 1 => .supplied data | _ => .declined)

/-- A reply is refused (R420): no such assist is pending, or the verdict is reserved. -/
def State.refusesReply (s : State) (w : Word) : Bool :=
  !s.assists.any (fun a => a.id == wordField w 0 16) || wordField w 16 2 == 3

/-- TASK_DONE (R184): a core writes the completion word of the task at a place of its hub's ring, with a status code. That of a host-assisted dispatch lets the
dispatch go on, by the records with DONE (R419 function 3). -/
def execTaskDone (hub core place st : Nat) (s : State) : Out :=
  need (isHub hub && decide (core < 8)) .noSuch <|
  match (s.tasks.filter (·.hub == hub))[place]? with
  | none => .refused .noSuch
  | some t =>
    need (s.flag F.hubFbctrl_run hub 0 core) .wrongState <|
    need (t.hurdle == 0 || (match t.poster with
      | some q => s.judgeArrival q.node q.blk t.tag t.hurdle t.gen != .later | none => true)) .notDue <|
    let s := s.endTask t core (st % 16)
    match t.dispatch, t.poster with
    | true, some q =>
      let mine := fun (a : Assist) => a.what == .dispatch q
      let s := (s.assists.filter mine).foldl (fun s a => s.endAssist a.id) { s with asks := s.asks.filter fun a => !mine a }
      .next (s.resumeDispatch q (st % 16 == 0))
    | _, _ => .next s

end Sys2Proof.Machine
end

