-- ==== Sys2Proof/Machine/Inject.lean ====
section
/-!
DEFINITION. Injected errors (R404): each class of R556 takes the path of the real error, at the lowest part of the unit that can meet it (log entry 57). Its
reports carry the injected mark, and so do the retirements it decides.
-/
namespace Sys2Proof.Machine

/-- A block's classes: an SRAM word, a remapped row, a lockstep mismatch. -/
def State.injectBlk (s : State) (node b : Nat) : Nat → State
  | 0 => (({ s with mem := { s.mem with latent := (blkKeyAt node b 0, false) :: s.mem.latent } } : State).readBlk node b 0 8).2.2
  | 1 => (({ s with mem := { s.mem with latent := (blkKeyAt node b 0, true) :: s.mem.latent } } : State).readBlk node b 0 8).2.2
  | 2 => s.remapRow node b 0 0
  | _ => s.lockstepFault node b

/-- The lowest matrix cell, or vector cell, that is not retired. -/
def State.lowCell (s : State) (node b : Nat) : Nat := (firstBelow 33 fun c => !s.cellRetired node b c).getD 0
def State.lowVecCell (s : State) (node b : Nat) : Nat := (firstBelow 14 fun c => !s.vecRetired node b c).getD 0

/-- Classes of the matrix cells: a residue mismatch, masked or not, a failed test, a cell's retirement. -/
def State.injectMxc (s : State) (node b cls : Nat) : State :=
  let c := s.lowCell node b
  match cls with
  | 4 | 5 =>
    let sev : Severity := if cls = 4 then .ce else .de
    let s := ((s.bump F.mxcResidue_mismatches node b 0).put F.mxcResidue_lastCell node b 0 c).put F.mxcResidue_lastMasked node b 0 (b2n (cls == 4))
    (s.error (cellSite node b c) cls sev 0 (b2n (cls == 5))).chargeCell node b c sev
  | 6 => (s.bump F.mxcRoundsStat_testFails node b 0).error (cellSite node b c) 6 .ce 0 0
  | _ => s.cellFaulty node b c .ce 2 true

/-- A checked-execution mismatch (R169): the lowest checked group's launch stops POISONED, and its pair of cells is tested at once. -/
def State.injectCheck (s : State) (node b : Nat) : State :=
  let x := s.block node b
  let g := x.groups.find? fun g => g.twin.isSome
  let c := match g with | some g => g.spot.cell / 2 * 2 | none => 0
  let s := ((s.bump F.vxcCheck_mismatches node b 0).put F.vxcCheck_lastPair node b 0 (c / 2)).put F.vxcCheck_lastSkew node b 0 0
  let s := s.error ⟨node, pageOf .vxc node b, c, none⟩ 8 .de 0 0
  let s := s.modBlock node b fun x => { x with vecQueue := x.vecQueue ++ [c, c + 1] }
  match g with
  | some g => match x.launch? g.launch with
    | some l => s.faultLaunch node b c (g.spot.entries.headD 0) l 7 .poisoned 0 g.group
    | none => s
  | none => s

/-- Classes of the vector and scalar cells. -/
def State.injectVxc (s : State) (node b cls : Nat) : State :=
  let page := pageOf .vxc node b
  let c := s.lowVecCell node b
  match cls with
  | 8 => s.injectCheck node b
  | 9 => (s.bump F.vxcStat_testFails node b 0).error ⟨node, page, c, none⟩ 9 .ce 0 1
  | 10 => s.classified node page 10 (.vectorCell node b c 2) fun s => s.retireVecCell node b c 2
  | _ =>
    let s := s.error ⟨node, page, 14, none⟩ 11 .ce 0 0
    s.classified node page 11 (.block node b page 11 2) fun s => s.toRetire (.block node b page 11 2)

/-- Classes of the log: a corrected word, a bank. -/
def State.injectLog (s : State) (node page cls : Nat) : State :=
  if cls = 0 then s.error ⟨node, page, 0x3F, none⟩ 0 .ce 0 0
  else match firstBelow 4 fun i => bit (s.fld F.logStat_banksOk node) i with
    | some i => s.retireBank node i 0
    | none => s

/-- Classes of a router, at its lowest port that has a neighbour. -/
def State.injectRtr (s : State) (node cls : Nat) : State :=
  let port := (firstBelow 7 fun p => (neighbour node p).isSome).getD 0
  let site : Site := ⟨node, pageOf .rtr node 0, 0x3F, none⟩
  match cls with
  | 13 => (s.setBridge node port { s.bridge node port with replaced := (s.bridge node port).replaced ++ [(0, 0)] }).error (portSite node port) 13 .ce 0 0
  | 14 => s.bridgeDown node port
  | _ => (s.error site cls .de 0 node).chargeRouters [node]

/-- Classes of a stack. -/
def State.injectHbm (s : State) (node cls : Nat) : State :=
  let st := node - 156
  match cls with
  | 17 => (({ s with mem := { s.mem with latent := (st * stackSize, false) :: s.mem.latent } } : State).readStack st 0 32).2.2
  | 18 => (({ s with mem := { s.mem with latent := (st * stackSize, true) :: s.mem.latent } } : State).readStack st 0 32).2.2
  | 19 => s.error ⟨node, pageOf .hbm node 0, 0x3F, none⟩ 19 .ce 0 0
  | _ => if s.stackFailed st then s else s.failStack st .classified 1

/-- Classes of the bundles, at bundle 0. -/
def State.injectLnk (s : State) (node cls : Nat) : State :=
  match cls with
  | 21 => if s.linkState node 0 == .up then s.laneFault node 0 0 else s.error (linkSite node 0) 21 .ce 0 0
  | 22 => if s.linkState node 0 == .up then s.flap node 0 0 else s.error (linkSite node 0) 22 .ce 0 0
  | _ => s.bundleFaulty node 0 1

/-- Classes of a die's power unit: its rail, its contacts, its temperature. Those of a hub are the panel's. -/
def State.injectPwr (s : State) (node page cls : Nat) : State :=
  match cls with
  | 24 => if isHub node then (if s.pstate = 4 then s else s.panelStop .rail node 0) else s.railFault node
  | 25 => (if isRegion node then s.put F.pwrContact_warn node 0 0 1 else s).error ⟨node, page, 0x3F, none⟩ 25 .ce 0 0
  | _ =>
    if isRegion node then (if (s.pow node).freq = 0 then s.error ⟨node, page, 0x3F, none⟩ 26 .ueUnit 0 110 else s.thermalStop node 110)
    else if s.pstate = 4 then s else s.panelStop .thermal node 115

/-- The condition of a class at a unit. -/
def State.injectClass (s : State) (node page cls : Nat) : State :=
  match pageKind node page with
  | some (.blk, b) => s.injectBlk node b cls
  | some (.mxc, b) => s.injectMxc node b cls
  | some (.vxc, b) => s.injectVxc node b cls
  | some (.log, _) => s.injectLog node page cls
  | some (.rtr, _) => s.injectRtr node cls
  | some (.hbm, _) => s.injectHbm node cls
  | some (.lnk, _) => s.injectLnk node cls
  | some (.pwr, _) | some (.pwrHub, _) => s.injectPwr node page cls
  | some (.clk, _) => s.pllFail node
  | some (.tim, _) => (s.put F.timSync_outOfBound node 0 0 1).error ⟨node, page, 0x3F, none⟩ 28 .ce 0 0
  | some (.edg, _) => s.countEdge node 2 0
  | some (.hubMain, _) => (s.error ⟨node, page, 0x3F, none⟩ 30 .ueUnit 0 node).hubFault node
  | _ => s

/-- The injected mark on fault-log entries (R404, R500). -/
def LogEntry.markInjected (e : LogEntry) : LogEntry := if e.isFault then { e with w1 := putBits e.w1 62 1 1 } else e

/-- The page whose retirement an injected error decides: an edge die's own for errors of its rail and its clock. -/
def injectedKey (node page : Nat) : Nat :=
  node * 64 + (if isEdge node && (page == pageOf .pwr node 0 || page == pageOf .clk node 0) then 0 else page)

/-- An error is injected (R404). -/
def State.injectError (s : State) (node page cls : Nat) : State :=
  let n := s.reports.length
  let decided := s.retiring.length + s.asks.length
  let s := s.injectClass node page cls
  let s := { s with reports := s.reports.take n ++ (s.reports.drop n).map LogEntry.markInjected }
  if decided < s.retiring.length + s.asks.length then { s with log := { s.log with injected := s.log.injected ++ [injectedKey node page] } } else s

end Sys2Proof.Machine
end

