-- ==== Sys2Proof/Machine/RegWrite.lean ====
section
/-!
DEFINITION. Writes of registers (R408, R410-R414, R421-R422): the checks field by field, the word that is stored, the change record, what the write then
does. The rows that write registers are in WriteRows.
-/
namespace Sys2Proof.Machine

/-- A write of one register: the page and the copy it lies in, the origin, the word before, the bytes as written (zeros elsewhere), the bits they cover. -/
structure RegWr where
  node : Nat
  page : Nat
  o : Origin
  r : Reg
  b : Nat
  i : Nat
  old : Nat
  raw : Nat
  mask : Nat
  deriving DecidableEq, Repr

/-- The panel is in debug mode (R542). -/
def State.debug (s : State) : Bool := s.flag F.dbgMode_debug 180

/-- The write covers bits of a field. -/
def RegWr.covers (w : RegWr) (f : Field) : Bool := f.reg == w.r && bits w.mask f.lo f.width != 0

/-- What a field holds after the write of its bytes. -/
def RegWr.field (w : RegWr) (f : Field) : Nat :=
  Nat.lor (bits w.raw f.lo f.width) (Nat.land (bits w.old f.lo f.width) (2 ^ f.width - 1 - bits w.mask f.lo f.width))

/-- The word with every RW and RWL field as written. -/
def RegWr.new (w : RegWr) : Nat :=
  w.r.fields.foldl (fun x f => if f.type == .rw || f.type == .rwl then putBits x f.lo f.width (w.field f) else x) w.old

/-- The write acts on a field (R411): it changes an RW or RWL field, or writes a 1 into a WO or RW1C one. -/
def RegWr.acts (w : RegWr) (f : Field) : Bool :=
  match f.type with
  | .ro => false
  | .rw | .rwl => w.field f != bits w.old f.lo f.width
  | .wo | .rw1c => bits w.raw f.lo f.width != 0

/-- The origin is a writer of a field (R411); H of the debug window only with HOST_OK (R542). -/
def State.isWriter (s : State) (w : RegWr) (f : Field) : Bool :=
  bit f.writers w.o.code && (w.o != .H || (f.reg != .dbgAcc && f.reg != .dbgAccData) || s.windowOpen .H)

/-- WO registers that hold a number: a write of 0 by a writer acts too (log entry 59). -/
def Reg.numeric : Reg → Bool
  | .pwrLimit | .hubFcHost | .timRate | .logHringHead | .hubAssistReply => true
  | _ => false

/-- A numeric WO register is written by one of its writers. -/
def State.writesNumber (s : State) (w : RegWr) : Bool := w.r.numeric && w.r.fields.any fun f => w.covers f && f.type == .wo && s.isWriter w f

/-- The written bytes as they act: a budget is clamped (R453); bits of functions that the unit does not take part in, and RESET_REQ where it is absent, are
reserved (R398, R405); a write of 0 to LOCKED is ignored, except from D in debug mode (R408). -/
def State.settle (s : State) (w : RegWr) : RegWr :=
  match w.r with
  | .hubBudget => if bits w.mask 0 13 = 0 then w else { w with raw := putBits w.raw 0 13 (clampBudget (bits w.raw 0 13)) }
  | .dutyMode => match pageKind w.node w.page with
    | some (k, _) => { w with raw := Nat.land w.raw (dutyFuncs k w.node * (1 + 2 ^ 16)) }
    | none => w
  | .unitCtrl => match pageKind w.node w.page with
    | some (k, _) => if hasReset k then w else { w with raw := putBits w.raw 1 1 0 }
    | none => w
  | .lock => if bit w.raw 0 || (w.o == .D && s.debug) then w else { w with mask := putBits w.mask 0 1 0 }
  | _ => w

/-- A tag's job is live. -/
def State.liveTag (s : State) (t : Nat) : Bool := match s.job? t with | some j => j.state != .completed | none => false

/-- The bank table a register belongs to. -/
def Reg.bank : Reg → Option Nat
  | .rtrRoute0 | .rtrMap0 | .rtrStackMap0 | .rtrPeerMap0 => some 0
  | .rtrRoute1 | .rtrMap1 | .rtrStackMap1 | .rtrPeerMap1 => some 1
  | _ => none

/-- A slice in force lies outside the stack and scratchpad ranges (R36, R366). -/
def refusesSlice (w : Nat) : Bool :=
  let b := bits w 0 18
  bit w 27 && !(decide (b * 2 ^ 30 < 0x9000000000) || (decide (0x100000000000 ≤ b * 2 ^ 30) && decide (b * 2 ^ 30 < 0x100000000000 + 156 * 0x10000000)))

/-- A write of DBG_BRK is refused (R541): RESUME or STEP of a block that is not halted, STEP outside debug mode. -/
def State.refusesBrk (s : State) (w : RegWr) : Bool :=
  let halted := bits w.old 0 2 == 2
  (bit w.raw 18 && !halted) || (bit w.raw 19 && (!halted || !s.debug))

/-- The value, or the unit's state, refuses the write (R411 and the rules of the registers). -/
def State.refusesValue (s : State) (w : RegWr) : Bool :=
  let changes := fun (f : Field) => f.reg == w.r && w.acts f
  let old := BitVec.ofNat 64 w.old
  let new := BitVec.ofNat 64 w.new
  let raw := BitVec.ofNat 64 w.raw
  match w.r with
  | .hubMemcfg => s.refusesMemcfg old new
  | .lnkCtrl => changes F.lnkCtrl_lingerMs && decide (50 < w.field F.lnkCtrl_lingerMs)
  | .hubPanel => changes F.hubPanel_panelId && s.idLocked
  | .hubAperture => w.new != w.old && refusesSlice w.new
  | .hubCascade | .hubCascadeB => w.new != w.old && s.liveTag w.i
  | .hubSqcfg => w.new != w.old && refusesQueue 64 56 new
  | .hubCqcfg => w.new != w.old && refusesQueue 32 58 new
  | .hubHostcfg => w.new != w.old && !s.queuesOff
  | .hubFbentry => w.new != w.old && s.flag F.hubFbctrl_run w.node 0 w.i
  | .hubFbctrl => changes F.hubFbctrl_jobTag && bit w.old 0
  | .hubFwin => w.new != w.old && refusesWindow new (s.word .hubFlim w.node 0 w.i)
  | .hubFlim => w.new != w.old && refusesWindow (s.word .hubFwin w.node 0 w.i) new
  | .logFlashcfg => changes F.logFlashcfg_size && decide (1 ≤ bits w.new 32 16) && decide (bits w.new 32 16 ≤ 127)
  | .logHringHead => s.writesNumber w && s.refusesHead raw
  | .hubAssistReply => s.writesNumber w && s.refusesReply raw
  | .unitCtrl => (bit w.raw 1 && s.refusesReset w.node w.page) || s.refusesUnitCtrl w.node w.page old new
  | .hubBootctl => (bit w.raw 1 && s.refusesCompute) || (bit w.raw 3 && s.refusesUpdate)
  | .blkPenCfg => changes F.blkPenCfg_poolUnits && !s.poolOk w.node w.b (w.field F.blkPenCfg_poolUnits)
  | .hubPstate => bit w.raw 0 && s.refusesStandby
  | .dbgMode => changes F.dbgMode_debug && bit w.new 0 && s.jobs.any fun e => e.2.state != .completed
  | .dbgBrk => s.refusesBrk w
  | .dbgAcc => bit w.raw 49 && (!s.debug || bit w.old 50)
  | .pwrContact => bit w.raw 35 && !s.debug
  | .rtrEpoch => bit w.raw 5 && s.bankState w.node 0 != 0 && s.bankState w.node 1 != 0
  | .errInject => bit w.raw 5 && !(match pageKind w.node w.page with
    | some (k, _) => (errClasses k).contains (w.field F.errInject_bit)
    | none => false)
  | r => match r.bank with
    | some k => w.new != w.old && s.bankState w.node k != 0
    | none => false

/-- The check of a write, field by field (R404, R411): why it is refused, if it is. -/
def State.writeRefusal (s : State) (w : RegWr) : Option AccessKind :=
  let fs := w.r.fields.filter w.acts
  if w.r == .errInject && !(w.o == .D && s.debug) then some .notWriter
  else if fs.any (fun f => !s.isWriter w f) then some .notWriter
  else if fs.any (fun f => f.type == .rwl) && s.flag F.lock_locked w.node (errPage w.node w.page) && w.o != .F && w.o != .D then some .locked
  else if s.refusesValue w then some .value
  else none

/-- A VALID field whose clear clears its whole register (R412). -/
def clearsAll (f : Field) : Bool := f == F.errFirst_valid || f == F.accessErr_valid || f == F.vxcFault_valid || f == F.logLatch1_valid

/-- The word that is stored: RW and RWL fields as written, RW1C fields cleared (R10, R116, R412); of ERR and REVERTED the bits written 1. -/
def RegWr.stored (w : RegWr) : Nat :=
  let clear := fun (x : Nat) (f : Field) =>
    if f.type != .rw1c || bits w.raw f.lo f.width == 0 then x
    else if clearsAll f then 0
    else if f == F.errStat_err || f == F.dutyMode_reverted then
      putBits x f.lo f.width (bits x f.lo f.width - Nat.land (bits x f.lo f.width) (bits w.raw f.lo f.width))
    else putBits (if f == F.blkNumstat_qsat then putBits x 16 32 0 else x) f.lo f.width 0
  w.r.fields.foldl clear w.new

/-- A write of the register leaves a change record of kind 0 (R421-R422): its bytes include a setting. -/
def RegWr.recorded (w : RegWr) : Bool :=
  !(w.r == .mailbox || w.r == .lock || w.r == .errInject || w.r == .rtrFlipAt || w.r.bank.isSome) &&
    w.r.fields.any fun f => (f.type == .rw || f.type == .rwl) && w.covers f

/-- The kind of change record that the write leaves, if it leaves one (R421, R423): LOCK and ERR_INJECT have their own. -/
def RegWr.changeKind (w : RegWr) : Option Nat :=
  match w.r with
  | .lock => if bit w.raw 0 then some 2 else if bit w.mask 0 then some 0 else none
  | .errInject => if bits w.mask 0 6 = 0 then none else some 4
  | _ => if w.recorded then some 0 else none

end Sys2Proof.Machine
end

