-- ==== Sys2Proof/Machine/Transport.lean ====
section
/-!
DEFINITION. A fabric cycle in the routers (R46, R48, R52, R56-R61, R64, R66, R72, R76, R79): what stands at the heads of the input buffers, the
arbitration of every output port, the bridges, the ejection reservoirs. The idle step runs it (log entry 110).
-/
namespace Sys2Proof.Machine

/-- The size of an input buffer (R56). -/
def bufferFlits (cls : Nat) : Nat := if cls = 0 then 8 else 18

/-- The receiver of a lane expects the first flit that has not come yet; the copies whose acknowledgement is back leave the sender's retry buffer (R64). -/
def FlitLane.settle (l : FlitLane) (t : Nat) : FlitLane :=
  if l.bad.isSome then l else
  { l with expected := match l.retry.find? fun e => decide (t < e.2.2) with | some e => e.1 | none => l.next,
           retry := l.retry.filter fun e => decide (t < e.2.2 + 4) }

/-- Every lane settles. -/
def State.settleLanes (s : State) : State := { s with lanes := s.lanes.map fun e => (e.1, e.2.settle s.fabricTime) }

/-- A packet whose flits have come stands in the input buffer: its lane's receiver waits for no bad flit. -/
def State.landed (s : State) (b : Buffered) : Bool :=
  match b.via with
  | none => true
  | some (n, port, lane) => decide (b.ready ≤ s.fabricTime + 1) && (s.lane n port lane).bad.isNone

/-- The head of an input buffer that can leave in this cycle: its buffer and packet, the port it asks for, whether it turns to channel B, whether a
copy goes to L too (R76). -/
structure Head where
  inp : Nat
  pkt : Packet
  ready : Nat
  port : Nat
  turn : Bool := false
  copy : Bool := false
  deriving DecidableEq, Repr

/-- What a head asks for. -/
inductive Wish where
  | goes (port : Nat) (turn copy : Bool)
  /-- it is discarded; a router that answers, a stale packet, a bad header, a multicast with no one left -/
  | answered (st : Status) | stale | badHeader | lost | discarded
  deriving DecidableEq, Repr

/-- A multicast at a router of its line (R76): a copy to L where its position is set and the region is ACTIVE, onward while a position further along is
set. A router whose conditions of R66, R72 and R496 are not met deals with it as with any packet. -/
def State.wishLine (s : State) (n : Nat) (p : Packet) : Wish :=
  let here := linePos p.mcAxis n
  let named := isRegion n && bit p.mcMask here
  let further := (setBits 13 p.mcMask).any fun m => if !isRegion n then true else if p.mcDir = 0 then decide (here < m) else decide (m < here)
  let copy := named && s.role n == 0
  if further then .goes (linePort p n) false copy else if copy then .goes 4 false false else .discarded

/-- What the head of an input buffer asks its router for (R66-R69, R72, R76). -/
def State.wish (s : State) (n inp : Nat) (p : Packet) : Wish :=
  match s.hop n (inp == 4) p with
  | .lost => .lost
  | .badHeader => .badHeader
  | .stale => .stale
  | x => if p.mcast then s.wishLine n p else match x with
    | .here => .goes 4 false false
    | .out port turn => .goes port turn false
    | .answered st => .answered st
    | _ => .lost

/-- An input buffer of a router. -/
def State.buffer (s : State) (n key : Nat) : List Buffered := Sparse.get [] (s.router n).inputs key

/-- Change one; an empty one is not listed. -/
def State.setBuffer (s : State) (n key : Nat) (l : List Buffered) : State :=
  s.modRouter n fun r => { r with inputs := if l.isEmpty then Sparse.del r.inputs key else Sparse.set r.inputs key l }

/-- The heads of a router that have landed and may leave, with their buffers. -/
def State.ripe (s : State) (n : Nat) : List (Nat × Buffered) :=
  (s.router n).inputs.filterMap fun e => match e.2 with
    | b :: _ => if s.landed b && decide (b.ready ≤ s.fabricTime + 1) then some (e.1, b) else none
    | [] => none

/-- A discarded multicast whose position is set counts where the region is not ACTIVE (R76). -/
def State.countDiscard (s : State) (n : Nat) (p : Packet) : State :=
  if p.mcast && isRegion n && bit p.mcMask (linePos p.mcAxis n) && s.role n != 0 then s.modRouter n fun r => { r with mcastDiscards := r.mcastDiscards + 1 } else s

/-- The heads that no port takes are dealt with: answered, dropped, discarded (R66, R69, R72, R76). -/
def State.clearHeads (s : State) (n : Nat) : State :=
  (s.ripe n).foldl (fun s e =>
    let p := e.2.pkt
    let drop := s.setBuffer n e.1 ((s.buffer n e.1).drop 1)
    match s.wish n (e.1 / 16) p with
    | .goes .. => s
    | .answered st => if p.op.answered then drop.answer n p st else drop
    | .stale => drop.dropStale n p
    | .badHeader => drop.dropHeader n (e.1 / 16) p
    | .discarded => drop.countDiscard n p
    | .lost => drop) s

/-- The heads that ask for an output port. -/
def State.heads (s : State) (n : Nat) : List (Nat × Head) :=
  (s.ripe n).filterMap fun e => match s.wish n (e.1 / 16) e.2.pkt with
    | .goes port turn copy => some (e.1, { inp := e.1 / 16, pkt := e.2.pkt, ready := e.2.ready, port := port, turn := turn, copy := copy })
    | _ => none

/-- The local port takes a packet (R46, R79): C0 always; a partial while one of the sixteen fold buffers is free, or its fold's has room for it; others
while the region's core runs and nothing waits before them, or the reservoir has room. -/
def State.localRoom (s : State) (n : Nat) (p : Packet) : Bool :=
  if p.cls = 0 then true
  else if p.op = .foldPart then
    let ps := (s.router n).foldBufs ++ s.fabric.filter fun q => q.op == .foldPart && q.dest == n
    let same := ps.filter fun x => x.jobTag == p.jobTag && x.srcUnit == p.srcUnit && bits x.oparg0 0 16 == bits p.oparg0 0 16
    if same.isEmpty then decide (foldsHeld ps < 16) else decide (same.length < 2)
  else if isRegion n && (s.coreGated n || !(s.router n).reservoir.isEmpty) then decide ((s.router n).held + p.size ≤ reservoirFlits)
  else true

/-- The local port delivers a packet (R46, R69, R76); a multicast's copy is for this node. -/
def State.eject (s : State) (n : Nat) (p : Packet) : State :=
  let p := if p.mcast then { p with dest := n } else p
  if p.cls = 0 ∨ p.op = .foldPart then s.deliver p
  else if isRegion n && (s.coreGated n || !(s.router n).reservoir.isEmpty) then
    (s.raiseWake n).modRouter n fun r => { r with reservoir := r.reservoir ++ [p] }
  else s.deliver p

/-- A lane of an output port is free for a packet: nothing runs on it, its sender awaits no resend and has room for the flits (R52, R64). -/
def State.laneFree (s : State) (n port lane : Nat) (size : Nat) : Bool :=
  let l := s.lane n port lane
  decide (l.busy ≤ s.fabricTime) && l.bad.isNone && l.nak.isNone && (port == 4 || decide (l.retry.length + size ≤ 64))

/-- A lane of the local port that is free for a copy. -/
def State.localLane (s : State) (n : Nat) (size : Nat) : Option Nat := firstBelow (laneCount n 4) fun i => s.laneFree n 4 i size

/-- The next input buffer on a packet's channel has room for the whole packet (R52): its router and buffer. -/
def nextBuffer (n : Nat) (h : Head) : Option (Nat × Nat) :=
  (neighbour n h.port).map fun m => (m, inputKey (portTo m n) h.pkt.cls (if h.turn then 1 else h.pkt.vch))
def State.nextRoom (s : State) (n : Nat) (h : Head) : Bool :=
  match nextBuffer n h with
  | none => false
  | some (m, key) => decide (((s.buffer m key).foldl (fun a b => a + b.pkt.size) 0) + h.pkt.size ≤ bufferFlits h.pkt.cls)

/-- A head is eligible (R52, R59, R76): the port is up and does not pause, the next buffer has room for the whole packet, and the local port for the copy that
goes with it. -/
def State.eligible (s : State) (n : Nat) (h : Head) : Bool :=
  if h.port = 4 then s.localRoom n h.pkt
  else !s.closed n h.port && s.width n h.port != .down && !(s.bridge n h.port).retraining && decide ((s.bridge n h.port).paused ≤ s.fabricTime)
    && s.nextRoom n h && (!h.copy || (s.localRoom n h.pkt && (s.localLane n h.pkt.size).isSome))

/-- Of two heads, which goes first (R59): channel B, then the older by INJ_TIME, then the lower input port. -/
def Head.before (a b : Head) : Bool :=
  if a.pkt.vch ≠ b.pkt.vch then decide (b.pkt.vch < a.pkt.vch)
  else if a.pkt.injTime ≠ b.pkt.injTime then decide (a.pkt.injTime < b.pkt.injTime) else decide (a.inp ≤ b.inp)

/-- The first of some heads. -/
def firstHead : List (Nat × Head) → Option (Nat × Head)
  | [] => none
  | x :: rest => match firstHead rest with
    | none => some x
    | some y => if x.2.before y.2 then some x else some y

/-- The flits over which the policer works (R58): C0 flits of the last 256 fabric cycles on an output port; its limit is a sixteenth of full width. -/
def OutPort.recent (o : OutPort) (t : Nat) : List (Nat × Nat) := o.c0.filter fun e => decide (t < e.1 + 512)
def State.out (s : State) (n port : Nat) : OutPort := Sparse.get {} (s.router n).outs port
def State.setOutPort (s : State) (n port : Nat) (o : OutPort) : State := s.modRouter n fun r => { r with outs := Sparse.set r.outs port o }
def State.policed (s : State) (n : Nat) (h : Head) : Bool :=
  h.pkt.cls == 0 && h.inp == 4 &&
    decide (16 * laneCount n h.port < ((s.out n h.port).recent s.fabricTime).foldl (fun a e => a + e.2) 0 + h.pkt.size)

/-- The length of each class's first head packet among some heads. -/
def headLengths (hs : List (Nat × Head)) : List (Option Nat) :=
  (List.range 5).map fun c => (firstHead (hs.filter fun h => h.2.pkt.cls == c + 1)).map fun h => h.2.pkt.size

/-- A turn from north-south to east-west or back costs 2 fabric cycles (R61). -/
def isTurn (inp port : Nat) : Bool := inp != 4 && port != 4 && ((inp == 1 || inp == 3) != (port == 1 || port == 3))

/-- A packet's flits leave over a lane (R48, R50, R52, R61, R64): the lane is taken for its flits, at half width for two cycles each; the sender keeps a copy of
each flit; the packet stands in the next buffer after the bridge, the turn and, at its destination, the ejection. -/
def State.cross (s : State) (n : Nat) (h : Head) (lane : Nat) : State :=
  match nextBuffer n h with
  | none => s
  | some (m, key) =>
    let p := h.pkt.onward h.turn
    let per := if s.width n h.port = .half then 2 else 1
    let t0 := if s.fabricTime ≤ h.ready then h.ready else s.fabricTime
    let ready := t0 + 5 + 2 * (per - 1) + (if isTurn h.inp h.port then 4 else 0) + (if p.dest = m ∧ !p.mcast then 3 + 2 * p.len else 0)
    let l := s.lane n h.port lane
    let fs := (p.flits.zip (List.range p.size)).map fun x =>
      ((l.next + x.2) % 256, laneBits x.1 ((l.next + x.2) % 256) p.cls p.vch (if x.2 = 0 then 1 else 2) s.fabricTime, t0 + 5 + 2 * per * (x.2 + 1) - 2)
    let s := s.setLane n h.port lane { l with busy := s.fabricTime + 2 * per * p.size, next := (l.next + p.size) % 256, retry := l.retry ++ fs }
    s.setBuffer m key (s.buffer m key ++ [⟨p, ready, some (n, h.port, lane)⟩])

/-- A packet is taken by the local port over a lane. -/
def State.leaveLocal (s : State) (n : Nat) (p : Packet) (lane : Nat) : State :=
  (s.setLane n 4 lane { s.lane n 4 lane with busy := s.fabricTime + 2 * p.size }).eject n p

/-- A head leaves its router over a lane of the port it asked for; the copy to L goes with it (R76). -/
def State.leave (s : State) (n : Nat) (e : Nat × Head) (lane : Nat) : State :=
  let h := e.2
  let s := s.setBuffer n e.1 ((s.buffer n e.1).drop 1)
  if h.port = 4 then s.leaveLocal n h.pkt lane
  else
    let s := if h.copy then match s.localLane n h.pkt.size with
      | some i => s.leaveLocal n h.pkt i
      | none => s
      else s.countDiscard n h.pkt
    s.cross n h lane

/-- Lane 0 of an output port (R57-R59): the oldest eligible C0 head, held at injection while the policer stops it; else the oldest short head of the class that
wrr selects. -/
def State.laneZero (s : State) (n port : Nat) : State :=
  let hs := (s.heads n).filter fun h => h.2.port == port && s.eligible n h.2
  let c0 := hs.filter fun h => h.2.pkt.cls == 0
  let s := if c0.any fun h => s.policed n h.2 then s.modRouter n fun r => { r with c0Stalls := r.c0Stalls + 1 } else s
  match firstHead (c0.filter fun h => !s.policed n h.2) with
  | some e =>
    if !s.laneFree n port 0 e.2.pkt.size then s else
    let o := s.out n port
    (s.setOutPort n port { o with c0 := o.recent s.fabricTime ++ [(s.fabricTime, e.2.pkt.size)] }).leave n e 0
  | none =>
    let short := hs.filter fun h => h.2.pkt.cls != 0 && decide (h.2.pkt.size ≤ 2) && s.laneFree n port 0 h.2.pkt.size
    if short.isEmpty then s else
    let (c, o) := (s.out n port).wrr (s.weights n) (headLengths short)
    let s := s.setOutPort n port { o with deficit := (s.out n port).deficit }
    match c.bind fun c => firstHead (short.filter fun h => h.2.pkt.cls == c + 1) with
    | some e => s.leave n e 0
    | none => s

/-- A long lane of an output port (R57, R59): the oldest eligible head of the class that wrr selects, whose deficit its flits reduce. -/
def State.longLane (s : State) (n port lane : Nat) : State :=
  let hs := (s.heads n).filter fun h => h.2.port == port && h.2.pkt.cls != 0 && s.eligible n h.2 && s.laneFree n port lane h.2.pkt.size
  let (c, o) := (s.out n port).wrr (s.weights n) (headLengths hs)
  match c.bind fun c => (firstHead (hs.filter fun h => h.2.pkt.cls == c + 1)).map fun e => (c, e) with
  | some (c, e) => (s.setOutPort n port { o with deficit := setAt o.deficit c (o.deficit.getD c 0 - e.2.pkt.size) }).leave n e lane
  | none => s.setOutPort n port o

/-- One output port in a fabric cycle (R59). A class with nothing eligible keeps no deficit. -/
def State.arbitrate (s : State) (n port : Nat) : State :=
  if !(s.heads n).any fun h => h.2.port == port then
    (if (Sparse.find? (s.router n).outs port).isSome then s.setOutPort n port { s.out n port with deficit := [0, 0, 0, 0, 0] } else s)
  else
    let s := if (s.lane n port 0).busy ≤ s.fabricTime then s.laneZero n port else s
    ((List.range (laneCount n port)).drop 1).foldl (fun s i => if (s.lane n port i).busy ≤ s.fabricTime then s.longLane n port i else s) s

/-- One router in a fabric cycle: a dead one holds nothing. -/
def State.routerCycle (s : State) (n : Nat) : State :=
  if !s.live n then s.modRouter n fun r => { r with inputs := [] }
  else (List.range 7).foldl (fun s port => s.arbitrate n port) (s.clearHeads n)

/-- How many of the oldest held packets fit into `k` flits. -/
def takeFlits : Nat → List Packet → Nat
  | _, [] => 0
  | k, p :: rest => if p.size ≤ k then 1 + takeFlits (k - p.size) rest else 0

/-- The reservoir drains into a core that runs: up to 16 flits in a fabric cycle (R46). -/
def State.drainReservoir (s : State) (n : Nat) : State :=
  if !isRegion n || s.coreGated n then s else
  let held := (s.router n).reservoir
  let k := takeFlits 16 held
  { s.modRouter n (fun r => { r with reservoir := held.drop k }) with fabric := s.fabric ++ held.take k }

/-- A fabric cycle: the lanes settle, every router that holds packets works, the reservoirs drain. -/
def State.fabricCycle (s : State) : State :=
  let s := { s with fabricTime := s.fabricTime + 2 }
  if s.routers.all fun e => e.2.inputs.isEmpty && e.2.reservoir.isEmpty then (if s.lanes.isEmpty then s else s.settleLanes) else
  let busy := s.routers.filter fun e => !e.2.inputs.isEmpty
  let s := busy.foldl (fun s e => s.routerCycle e.1) s.settleLanes
  (s.routers.filter fun e => !e.2.reservoir.isEmpty).foldl (fun s e => s.drainReservoir e.1) s

end Sys2Proof.Machine
end

