-- ==== Sys2Proof/Machine/Time.lean ====
section
/-!
DEFINITION. Panel time (R434-R440), time transfer between panels (R358), the pace of lockstep jobs (R356), and a fabric cycle passing.
-/
namespace Sys2Proof.Machine

/-- The parent of a node in the beacon tree (R435): the master hub, columns 5 to 7, the rows both ways to the edge dies, the standby hub at the far
end of column 6. -/
def beaconParent (master n : Nat) : Nat :=
  if isHub n then (if master = 180 then 11 * 13 + 6 else 6)
  else if isEdge n then (if n < 168 then (n - 156) * 13 else (n - 168) * 13 + 12)
  else
    let r := n / 13
    let c := n % 13
    if c < 5 then n + 1 else if 7 < c then n - 1
    else if master = 180 then (if r = 0 then 180 else n - 13) else (if r = 11 then 181 else n + 13)

/-- BEACON_SEND (R435): every 16 µs the master hub sends a beacon. -/
def execBeaconSend (s : State) : Out :=
  need (!s.plant.bothLost) .wrongState <|
  need (decide (s.plant.beaconAt + 16 * us ≤ s.now)) .notDue <|
  .next (s.modPlant fun p => { p with beaconAt := s.now, beaconGot := [s.master] })

/-- A difference as TIM_SYNC.LAST_ERR holds it. -/
def lastErr (d : Int) : Nat := wrapInt 16 (max (-32768) (min 32767 d))

/-- BEACON_RECEIVE (R435): the beacon's count plus the bridge's delay, measured to within one unit (`err`), against the router's own. -/
def execBeaconReceive (node : Nat) (err : Int) (s : State) : Out :=
  need (decide (node < 182) && node != s.master && decide (-1 ≤ err) && decide (err ≤ 1)) .noSuch <|
  let up := beaconParent s.master node
  need (s.live node && s.plant.beaconGot.contains up && !s.plant.beaconGot.contains node) .wrongState <|
  let d := (s.router up).timeOff - (s.router node).timeOff + err
  let s := (s.modRouter node fun r => { r with correction := d }).modPlant fun p => { p with beaconGot := p.beaconGot ++ [node] }
  let s := (s.put F.timSync_lastErr node 0 0 (lastErr d)).count F.timSync_beacons node 0 0
  .next (if 16 < d ∨ d < -16 then
    (s.put F.timSync_outOfBound node 0 0 1).error ⟨node, pageOf .tim node 0, 0x3F, none⟩ 28 .ce 0 (lastErr d) else s)

/-- A step (R436): every router loads the new count; the entry carries the counts before and after. -/
def State.stepTime (s : State) (count : Nat) : State :=
  let old := s.now
  let s := { s with now := count % 2 ^ 64, routers := s.routers.map fun (e : Nat × Router) => (e.1, { e.2 with timeOff := 0, correction := 0 }) }
  (s.modPlant fun p => { p with beaconAt := count, steer := 0 }).stateEntry ⟨s.master, pageOf .tim s.master 0, 0x3F, none⟩ .ce .other old count

/-- TIME_STEP (R436): a step before the first job. Refused, with KIND 0x5, while a job is live; after the first job time is not stepped. -/
def execTimeStep (count : Nat) (s : State) : Out :=
  let page := pageOf .tim s.master 0
  if s.plant.jobSeen then
    .next (s.accessErr s.master page (0x200000000000 + s.master * 0x40000 + page * 0x1000 + 0x100) .F .value)
  else .next (s.stepTime count)

/-- The master hub steers its rate towards an offset, within 100 ppm (R358, R437): by how much is open (log entry 2). -/
def State.steerTo (s : State) (offset : Int) : State :=
  let (d, s) := s.draw
  let k : Int := ((Config.freeWord d).toNat % 100001 : Nat)
  s.modPlant fun p => { p with rate := if offset = 0 then 0 else if 0 < offset then k else -k }

/-- Function 10 is in hardware mode (R419). -/
def State.steersItself (s : State) : Bool := !s.hostDuty s.master (pageOf .tim s.master 0) 10

/-- How far the next multiple of a second lies from a count, the nearer one. -/
def toSecond (t : Nat) : Int := if t % sec < sec / 2 then -((t % sec : Nat) : Int) else ((sec - t % sec : Nat) : Int)

/-- PPS_EDGE (R437): a rising edge of PTP 1PPS in, captured at count `t`. The first alignment is a step; with a job live it is by rate alone. -/
def execPpsEdge (t : Nat) (s : State) : Out :=
  let page := s.master
  need (s.flag F.hubPanel_timeSource 180 && s.flag F.timPps_inEn page && decide (t ≤ s.now)) .wrongState <|
  let s := s.setWord .timPpsCapt s.master 0 0 (BitVec.ofNat 64 t)
  if !s.steersItself then .next s
  else if !s.plant.jobSeen && !s.plant.aligned then
    .next ((s.stepTime (((s.now : Int) + toSecond t).toNat)).modPlant fun p => { p with aligned := true })
  else .next (s.steerTo (toSecond t))

/-- A write of TIM_RATE takes effect while function 10 is host-assisted (R440), clamped to 100 ppm. -/
def State.onTimRate (s : State) (v : Word) : State :=
  if s.steersItself then s else
  let r := sext 32 v.toNat
  s.modPlant fun p => { p with rate := max (-100000) (min 100000 r), rateAt := s.now }

/-- The UP Drieno bundles with what their peers advertise: (depth, edge die and bundle, source). -/
def State.timePeers (s : State) : List (Nat × Nat × Nat × Nat) :=
  (List.range 24).flatMap fun e => (List.range 5).filterMap fun b =>
    if s.linkState (156 + e) b == .up && !s.flag F.lnkCtrl_mode (156 + e) 0 b then
      match (s.link (156 + e) b).time with
      | some (d, src) => if src = 0xFFF then none else some (d, 156 + e, b, src)
      | none => none
    else none

/-- This panel is the time source of its domain (R358). -/
def State.isSource (s : State) : Bool :=
  s.flag F.hubPanel_timeSource 180 && !s.timePeers.any fun e => decide (e.2.2.2 < s.panelId)

/-- The parent bundle (R358): the lowest depth; ties go to the lower edge die and then the lower bundle. -/
def State.timeParent (s : State) : Option (Nat × Nat × Nat × Nat) :=
  if s.isSource then none else s.timePeers.foldl (fun best e => match best with
    | some x => if e.1 < x.1 then some e else some x
    | none => some e) none

/-- The depth and the source this panel advertises (R358); 255 and 0xFFF while it has none. -/
def State.timeDepth (s : State) : Nat × Nat :=
  if s.isSource then (0, s.panelId) else match s.timeParent with
    | some (d, _, _, src) => (d + 1, src)
    | none => (255, 0xFFF)

/-- TIME_EXCHANGE (R358): the bundle's four timestamps of this millisecond. The parent's offset corrects panel time: by a step before the first job
(once it has been settled so, by rate), after that by rate alone. -/
def execTimeExchange (node b t1 t2 t3 t4 : Nat) (s : State) : Out :=
  need (isEdge node && decide (b < 5)) .noSuch <|
  let x := s.link node b
  need (s.linkState node b == .up && !s.flag F.lnkCtrl_mode node 0 b) .wrongState <|
  need (match x.timeAt with | some t => decide (t + ms ≤ s.now) | none => true) .notDue <|
  let (d, src) := s.timeDepth
  let (f, x) := ({ x with timeAt := some s.now }).stamp { body := .time d src t1 t2 t3 t4 }
  let s := (s.setLink node b x).emit node b f
  let offset : Int := (((t2 : Int) - t1) - ((t4 : Int) - t3)) / 2
  let mine := match s.timeParent with | some (_, e, i, _) => e == node && i == b | none => false
  if !mine || !s.steersItself then .next s
  else if !s.plant.jobSeen && !s.plant.aligned then
    .next ((s.stepTime ((s.now : Int) + offset).toNat).modPlant fun p => { p with aligned := true })
  else .next (s.steerTo offset)

/-- TIME_FRAME (R334, R358): the peer's depth and source are noted; the frame's acknowledgement and credits count. -/
def execTimeFrame (node b : Nat) (f : Frame) (s : State) : Out :=
  match f.body with
  | .time d src _ _ _ _ =>
    need (s.frameOk node b f (fun _ => true) && !s.flag F.lnkCtrl_mode node 0 b) .wrongState <|
    .next ((s.takeFields node b f).modLink node b fun x => { x with time := some (d, src) })
  | _ => .refused .wrongCommand

/-- The lowest frequency at which every region that runs lists of a job can run, with its reason (R356): safety loops, shares, preferences. -/
def State.ownPace (s : State) (j : Job) : Nat × Nat :=
  (j.nodes.filter isRegion).foldl (fun best n =>
    let t := lowestCeiling (s.pref n) ((s.ceilings n).filter fun e => decide (e.1 ≤ 6))
    if t.2 < best.2 then t else best) (0, opFreq 15)

/-- PACE_REPORT (R356): at each millisecond a member reports its pace to the bellwether, which takes the lowest report and sets it 200 µs ahead. -/
def execPaceReport (tag : Nat) (s : State) : Out :=
  match s.job? tag with
  | none => .refused .noSuch
  | some j =>
    need (j.lockstep && j.state == .running) .wrongState <|
    need (decide (j.paced / ms < s.now / ms)) .notDue <|
    let (reason, pace) := s.ownPace j
    let s := s.modJob tag fun j => { j with paced := s.now }
    if j.cascade && j.bell != s.panelId then .next (s.tellPanel j.bell (.pace j.bell s.panelId tag (.paceReport pace reason)))
    else
      let s := s.modJob tag fun j => { j with members := j.members.map fun m => if m.panel == s.panelId then { m with pace := pace, heard := s.now } else m }
      let low := (j.members.filter fun m => m.panel != s.panelId && m.pace != 0).foldl (fun a m => min a m.pace) pace
      let at' := s.now + 200 * us
      let s := s.modJob tag fun j => { j with nextPace := some (low, at') }
      .next (j.members.foldl (fun s m => if m.panel = s.panelId then s else
        s.tellPanel m.panel (.pace m.panel s.panelId tag (.paceSet low at'))) s)

/-- PACE_APPLY (R356): the pace takes effect at its time. -/
def execPaceApply (tag : Nat) (s : State) : Out :=
  match s.job? tag with
  | none => .refused .noSuch
  | some j => match j.nextPace with
    | none => .refused .wrongState
    | some (p, t) => need (decide (t ≤ s.now)) .notDue <| .next (s.modJob tag fun j => { j with pace := p, nextPace := none })

/-- A fabric cycle passes (R434-R437, log entry 18): every counter adds 2; the master's rate correction makes its own add 1 or 3; a router works off
its beacon's difference by one unit in 256 cycles. The fabric moves its packets (log entry 110). PTP 1PPS out rises at each whole second. -/
def State.tick (s : State) : State :=
  let acc := s.plant.steer + 2 * s.plant.rate
  let (d, acc) : Nat × Int := if 1000000000 ≤ acc then (3, acc - 1000000000) else if acc ≤ -1000000000 then (1, acc + 1000000000) else (2, acc)
  let t := (s.now + d) % 2 ^ 64
  let fix := t / 512 != s.now / 512
  let slip : Int := 2 - (d : Int)
  let one := fun (r : Router) =>
    let c : Int := if !fix || r.correction = 0 then 0 else if 0 < r.correction then 1 else -1
    { r with timeOff := r.timeOff + slip + c, correction := r.correction - c }
  let others := if d = 2 && !fix then s.routers
    else (List.range 182).foldl (fun m n => if n = s.master then m else
      if d = 2 && (Sparse.find? m n).isNone then m else Sparse.upd {} m n one) s.routers
  let out := s.flag F.timPps_outEn s.master && t / sec != s.now / sec
  let s := { s with now := t, routers := others, plant := { s.plant with steer := acc } }.fabricCycle.takeTurns.settleWeights
  if out then s.say (.ppsOut s.master) else s

end Sys2Proof.Machine
end

