-- ==== Sys2Proof/Machine/RegApply.lean ====
section
/-!
DEFINITION. What an accepted write of a register does beyond the register, and a write of any width at a page (R405, R408, R412, R414).
-/
namespace Sys2Proof.Machine

/-- Every page of the panel that has a LOCK (R394, R408). -/
def lockPages : List (Nat × Nat) :=
  (List.range 182).flatMap fun n => ((pagesOf n).filter fun p => match pageKind n p with | some (k, _) => hasHeader k | none => false).map fun p => (n, p)

/-- LOCKED written 1 (R408): in the master hub's HUB_ main page it locks every page of the panel. -/
def State.onLock (s : State) (w : RegWr) : State :=
  if bit w.raw 0 && w.node == s.master && pageKind w.node w.page == some (.hubMain, 0) && bit F.lock_locked.writers w.o.code then
    lockPages.foldl (fun s p => s.put F.lock_locked p.1 p.2 0 1) s
  else s

/-- The gaps between the host's periodic writes of functions 5, 6 and 10 run from the moment a unit is host-assisted (R418-R419). -/
def State.onDuty (s : State) (w : RegWr) : State :=
  let set := fun (f : Nat) => bit w.new (f - 1) && !bit w.old (f - 1)
  let s := if set 5 then (if isRegion w.node then s.modPow w.node fun p => { p with shared := s.now } else s.modPlant fun p => { p with sharesAt := s.now }) else s
  let s := if set 6 then s.modPlant fun p => { p with fcHostAt := s.now } else s
  if set 10 then s.modPlant fun p => { p with rateAt := s.now } else s

/-- FREEZE and THAW reach every ring of the panel; FREEZE wins in one write (R539). -/
def State.setFrozen (s : State) (on : Bool) : State :=
  let keys := (List.range 182).flatMap fun n => ((pagesOf n).filter fun p => match pageKind n p with | some (k, _) => keepsRing k | none => false).map fun p => n * 64 + p
  { s with rings := keys.foldl (fun m k => Sparse.upd {} m k fun r => { r with frozen := on }) s.rings }

/-- The queue of number `k` of a block (R237). -/
def blockQueue (node b k : Nat) : QueueRef := ⟨node, b, k / 4, k % 4⟩

/-- RESUME (R541): the held command is forwarded without another check, and every queue goes on. -/
def State.resumeBlock (s : State) (node b : Nat) : State :=
  let s := match (s.block node b).held with
    | some q => s.modQueue q fun x => { x with passBreak := true }
    | none => s
  (s.modBlock node b fun x => { x with held := none, stepping := none }).put F.dbgBrk_state node 0 b 0

/-- STEP (R541): the head of a queue is forwarded, breakpoints not checked. -/
def State.stepBlock (s : State) (node b k : Nat) : State :=
  if 20 ≤ k then s else
  (s.modBlock node b fun x => { x with stepping := some (blockQueue node b k) }).modQueue (blockQueue node b k) fun x => { x with passBreak := true }

/-- DBG_MODE.DEBUG written 0 ends stepping (R542). -/
def State.endStepping (s : State) : State := { s with blocks := s.blocks.map fun (e : Nat × Block) => (e.1, { e.2 with stepping := none }) }

/-- GO (R542): the access is issued on the fabric as origin D, 64 bits wide. -/
def State.issueAccess (s : State) (hub : Nat) : State :=
  let s := s.put F.dbgAcc_busy hub 0 0 1
  let wr := s.flag F.dbgAcc_write hub
  s.request hub { op := .mgmt, cls := 5, len := if wr then 1 else 0, srcUnit := 0x13, addr := s.fld F.dbgAcc_addr hub, oparg0 := 8, oparg1 := b2n wr, byteMask := 255,
                  payload := if wr then leBytes 8 (s.fld F.dbgAccData_data hub) ++ List.replicate 56 0 else [] } (.mgmt 0x13)

/-- Mailbox doorbells (R391). -/
def State.onMailbox (s : State) (w : RegWr) : State :=
  if w.i = 64 ∧ w.o = .G then s.say (.vector w.node 55)
  else if w.i = 65 ∧ (w.o = .H ∨ w.o = .F) then s.say (.guestInterrupt w.node)
  else s

/-- What an accepted write does once the register holds it: by the rule of the register. `w.old` is the word before. -/
def State.afterWrite (s : State) (w : RegWr) : State :=
  let old := BitVec.ofNat 64 w.old
  let raw := BitVec.ofNat 64 w.raw
  let asked := fun (f : Field) => bits w.raw f.lo f.width != 0
  let changed := fun (f : Field) => bits w.new f.lo f.width != bits w.old f.lo f.width
  match w.r with
  | .rtrEpoch => if asked F.rtrEpoch_seal then s.seal w.node w.o else s
  | .mxcRoundsCtrl => if changed F.mxcRoundsCtrl_enable then s.roundsEnable w.node w.b (bit w.new 0) else s
  | .blkPenCfg => if changed F.blkPenCfg_poolUnits then s.poolChanged w.node w.b (bits w.old 0 9) else s
  | .blkPenCount => if asked F.blkPenCount_clear then s.setWord .blkPenCount w.node w.b 0 0 else s
  | .blkClear => if asked F.blkClear_clear then s.resetCopies .blkCounter w.node w.b 17 else s
  | .drvClear => if asked F.drvClear_clear then s.resetCopies .drvCounter w.node w.b 6 else s
  | .hubMemcfg => s.onMemcfg old
  | .lnkCtrl => s.onLnkCtrl w.node w.i old (BitVec.ofNat 64 (Nat.lor w.new (Nat.land w.raw 0x3000000)))
  | .hubSqcfg => s.onSqcfg w.node w.i
  | .unitCtrl => s.onUnitCtrl w.node w.page old (BitVec.ofNat 64 (putBits w.new 1 1 (bits w.raw 1 1)))
  | .dutyMode => s.onDuty w
  | .lock => s.onLock w
  | .errInject => if asked F.errInject_go then s.injectError w.node w.page (w.field F.errInject_bit) else s
  | .hubAssistReply => if s.writesNumber w then s.replyAssist (bits w.raw 0 16) (bits w.raw 16 2) (bits w.raw 18 46 * 4) else s
  | .hubFbctrl => if changed F.hubFbctrl_run then (if bit w.new 0 then s.put F.hubFbctrl_state w.node 0 w.i 1 else s.holdCore w.node w.i) else s
  | .timRate => if s.writesNumber w then s.onTimRate raw else s
  | .pwrLimit => if s.writesNumber w then s.onShare w.node w.o raw else s
  | .pwrContact => if asked F.pwrContact_rebase then
      let (d, s) := s.draw
      s.setBaseline w.node ((Config.freeWord d).toNat % 65536) else s
  | .hubFcHost => if s.writesNumber w then s.onFcHost raw else s
  | .hubPstate => if asked F.hubPstate_standbyReq && s.pstate == 0 then s.onStandby none else s
  | .logHringHead => if s.writesNumber w then (s.putLg F.logHringHead_head (bits w.raw 0 16)).onHead else s
  | .logLatch1 => if asked F.logLatch1_valid then s.setWord .logLatch0 w.node 0 0 0 else s
  | .hubBootctl => s.onBootctl (BitVec.ofNat 64 (Nat.lor (bits w.new 0 1) (bits w.raw 0 4)))
  | .hubPanel => if changed F.hubPanel_panelId then s.onPanelId else s
  | .dbgFreeze => if asked F.dbgFreeze_freeze then s.setFrozen true else if asked F.dbgFreeze_thaw then s.setFrozen false else s
  | .dbgBrk => if asked F.dbgBrk_resume then s.resumeBlock w.node w.i
      else if asked F.dbgBrk_step then s.stepBlock w.node w.i (bits w.raw 20 5) else s
  | .dbgMode => if changed F.dbgMode_debug && !bit w.new 0 then s.endStepping else s
  | .dbgAcc => if asked F.dbgAcc_go then s.issueAccess w.node else s
  | .mailbox => s.onMailbox w
  | _ => s

/-- The word of an accepted write is stored and the change recorded (R421). -/
def State.storeWrite (s : State) (w : RegWr) : State :=
  let before := s.regWord w.r w.node w.b w.i
  let s := s.setWord w.r w.node w.b w.i (BitVec.ofNat 64 w.stored)
  match w.changeKind with
  | some k => s.change w.node w.page (w.r.place.off + w.i * w.r.place.stride) w.o k before (s.regWord w.r w.node w.b w.i)
  | none => s

/-- An accepted write: the word is stored, the change recorded, and the write takes effect (R421). RTR_FLIP_AT keeps its own record (R422). -/
def State.applyWrite (s : State) (w : RegWr) : State :=
  if w.r = .rtrFlipAt then
    if w.new = w.old then s.change w.node w.page w.r.place.off w.o 0 w.old w.old else s.flipAt w.node w.o w.new
  else (s.storeWrite w).afterWrite w

/-- A refused access is recorded, and completes ACCESS_FAULT. -/
def State.refuseAccess (s : State) (node page off : Nat) (o : Origin) (k : AccessKind) : Status × State :=
  (.accessFault, s.accessErr node page (regAddr node page off) o k)

/-- One write of at most 8 bytes of a page (R410-R412). P never reaches a page, G only its mailbox; before bring-up step 4 has ended the host's BARs are
not served (R521). -/
def State.writeReg (s : State) (o : Option Origin) (node page off n v : Nat) : Status × State :=
  match o, pageKind node page with
  | some o, some (k, _) =>
    if o = .P ∨ (o = .G ∧ k ≠ .mailbox) then s.refuseAccess node page off o .hole
    else if o = .H ∧ s.fld F.hubBoot_step 180 ≤ 4 then (.accessFault, s)
    else if !(n == 1 || n == 2 || n == 4 || n == 8) || off % n != 0 then s.refuseAccess node page off o .misaligned
    else if n < 4 then s.refuseAccess node page off o .narrow
    else match namedAt node page (off / 8 * 8) with
      | .hole => s.refuseAccess node page off o .hole
      | .reserved => (.done, s)
      | .testPort => if s.testOpen o then (.done, s) else s.refuseAccess node page off o .hole
      | .reg r b i =>
        let sh := 8 * (off % 8)
        let w : RegWr := ⟨node, page, o, r, b, i, (s.word r node b i).toNat, v % 2 ^ (8 * n) * 2 ^ sh, (2 ^ (8 * n) - 1) * 2 ^ sh⟩
        let w := s.settle w
        match s.writeRefusal w with
        | some k => s.refuseAccess node page off o k
        | none => (.done, s.applyWrite w)
  | o, _ => s.refuseAccess node page off (o.getD .C) .hole

/-- A wide write: 64-bit writes in ascending address order, each checked and recorded alone (R412). -/
def State.writeRegs (s : State) (o : Option Origin) (node page off : Nat) : List Nat → Status × State
  | [] => (.done, s)
  | v :: rest =>
    let (x, s) := s.writeReg o node page off 8 v
    let (y, s) := s.writeRegs o node page (off + 8) rest
    (x.first y, s)

/-- A write of `n` bytes of a page. -/
def State.writePage (s : State) (o : Option Origin) (node page off n v : Nat) : Status × State :=
  if n ≤ 8 then s.writeReg o node page off n v
  else if off % 8 ≠ 0 ∨ n % 8 ≠ 0 ∨ 4096 < off + n then s.refuseAccess node page off (o.getD .C) .misaligned
  else s.writeRegs o node page off ((List.range (n / 8)).map fun i => bits v (64 * i) 64)

/-- SRC_UNIT of an origin's accesses from a hub (R410). -/
def originUnit : Origin → Nat
  | .H => 0x10 | .F => 0x11 | .M => 0x12 | .D => 0x13 | .G => 0xF0 | .C => 0x40 | .P => 0xFF

/-- An access is held in the reservoir of its node (R69, R414). -/
def accessPacket (s : State) (a : RegAccess) (wr : Bool) : Packet :=
  { op := .mgmt, cls := 5, len := if wr then 1 else 0, epoch := s.fld F.rtrEpoch_injEpoch s.master, dest := a.node, src := if a.o = .C then a.node else s.master,
    srcUnit := originUnit a.o, addr := regAddr a.node a.page a.off, oparg0 := a.n, oparg1 := b2n wr, byteMask := 2 ^ a.n - 1, injTime := s.timeAt s.master,
    payload := if wr then leBytes 64 (a.v % 2 ^ (8 * a.n)) else [] }

/-- An access takes the sideband (R43, R414): F and M, once the probe has found the unit's fabric path faulty or its router is down. -/
def State.viaSideband (s : State) (a : RegAccess) : Bool :=
  (a.o == .F || a.o == .M) && (!s.live a.node || s.flag F.logNodestate_mgmtPath s.master 0 a.node)

/-- The path of an access is silent (R43, R414): the router is down, or the sideband fails where that is the path. -/
def State.pathSilent (s : State) (a : RegAccess) : Bool :=
  if s.viaSideband a then s.fld F.logNodestate_sideband s.master 0 a.node == 2 else !s.live a.node

/-- A write reaches its page, as the page's domain answers it (R414): status, and the state; none where it is held. -/
def State.accessWrite (s : State) (a : RegAccess) : Option Status × State :=
  if a.o == .G && s.guestShut a.node then (some .fenceDenied, s)
  else if s.pathSilent a then (some .timeout, s)
  else match s.pageAnswer (some a.o) a.node a.page with
    | .status x => (some x, s)
    | .holds => (none, s.hold a.node (accessPacket s a true))
    | .serves => let (x, s) := s.writePage (some a.o) a.node a.page a.off a.n a.v
      (some x, s)

/-- A read, as `accessWrite`. Of a region that neither path reaches, the hub answers RGN_SITE from its own table, with ROLE 0b100 (R43). -/
def State.accessRead (s : State) (a : RegAccess) : Option Status × List Byte × State :=
  if a.o == .G && s.guestShut a.node then (some .fenceDenied, [], s)
  else if s.pathSilent a then
    if s.viaSideband a && isRegion a.node && a.page == 0 && a.off == 0x100 && a.n == 8 then
      (some .done, leBytes 8 (wordPut (s.regWord .rgnSite a.node 0 0) 16 3 4).toNat, s)
    else (some .timeout, [], s)
  else match s.pageAnswer (some a.o) a.node a.page with
    | .status x => (some x, [], s)
    | .holds => (none, [], s.hold a.node (accessPacket s a false))
    | .serves => let (x, bs, s) := s.readPage (some a.o) a.node a.page a.off a.n
      (some x, bs, s)

/-- The access writes 1 into one of the WO fields, or covers one of the other fields, of `fs`: the rows that name a register's field take such writes. -/
def RegAccess.touches (a : RegAccess) (fs : List Field) : Bool :=
  match namedAt a.node a.page (a.off / 8 * 8) with
  | .reg r _ _ =>
    let sh := 8 * (a.off % 8)
    fs.any fun f => f.reg == r && (if f.type == .wo && !r.numeric then bits (a.v % 2 ^ (8 * a.n) * 2 ^ sh) f.lo f.width != 0
      else bits ((2 ^ (8 * a.n) - 1) * 2 ^ sh) f.lo f.width != 0)
  | _ => false

end Sys2Proof.Machine
end

