-- ==== Sys2Proof/Machine/Replies.lean ====
section
/-!
DEFINITION. What the answer to an outstanding request does at its requester (R69-R70, R202, R204, R230, R317, R350, R375, R386, R414).
-/
namespace Sys2Proof.Machine

/-- The status a reply brings; data that failed its end-to-end check is poisoned (R66). -/
def Packet.outcome (p : Packet) : Status :=
  let st := (Status.ofCode p.status).getD .timeout
  if p.poison && st == .done then .poisoned else st

/-- The bytes a READ_DATA or MGMT_REPLY brings. -/
def Packet.data (p : Packet) : List Byte := p.payload.take p.oparg0

/-- A holder-table entry takes its grant (R204). -/
def State.markGrant (s : State) (r : Request) (p : Packet) : State :=
  let u := s.holderUnit r.node r.unit
  s.updHolders r.node r.unit { u with holders := u.holders.map fun h =>
    if h.txn == r.txn && !h.granted then { h with granted := true, base := p.oparg0, units := p.oparg1 % 512, dest := p.src } else h }

/-- The holder-table entry of a pen request on its answer (R202, R204): granted, or free again. -/
def State.penAnswered (s : State) (r : Request) (p : Packet) : State :=
  if p.op == .penGrant then s.markGrant r p else s.dropHolder r.node r.unit fun h => h.txn == r.txn && !h.granted

/-- A hub's pen has been released (R206). -/
def State.hubReleased (s : State) (r : Request) (p : Packet) : State :=
  if p.outcome = .done then s.dropHolder r.node r.unit fun h => h.granted && h.base == r.addr else s

/-- The write a mirror write belongs to completes once the mirror has acknowledged it, or is gone (R317). -/
def State.mirrorAnswered (s : State) (r : Request) (orig p : Packet) : State :=
  let own : Status := if orig.poison then .poisoned else .done
  let st := match p.outcome with
    | .done | .poisoned | .targetRetired => own
    | x => x
  s.send { answerPacket s r.node orig st with oparg0 := if orig.op == .atomicAdd then orig.oparg1 else 0 }

/-- The window of the debug port has its answer (R542). -/
def State.windowAnswered (s : State) (r : Request) (p : Packet) : State :=
  let s := (s.put F.dbgAcc_status r.node 0 0 p.outcome.code).put F.dbgAcc_busy r.node 0 0 0
  if p.op == .mgmtReply && p.outcome == .done && p.len != 0 then s.setWord .dbgAccData r.node 0 0 (BitVec.ofNat 64 (leNat (p.payload.take 8))) else s

/-- A request is answered: its requester goes on. -/
def State.reply (s : State) (r : Request) (p : Packet) : State :=
  let st := p.outcome
  match r.purpose with
  | .plain => s
  | .threadRead t l vd => s.threadReadDone t l vd st p.data
  | .threadWrite t l pc => s.threadWriteDone t l pc st
  | .threadAtomic t l => s.threadAtomicDone t l st
  | .penQueue q => if p.op == .penGrant then (s.penAnswered r p).penGranted q st p.src p.oparg0 else (s.penAnswered r p).penRefused q st
  | .engine q cmd => s.packetDone q cmd st
  | .copy q cmd src dsts pen => s.moveAnswer q cmd src dsts pen st p.data
  | .penHub _ => s.penAnswered r p
  | .penRelease q => s.penReleased q st
  | .penReleaseHub _ => s.hubReleased r p
  | .penOrphan => if p.op == .penGrant then s.orphanGrant r.node r.unit r.tag p.oparg0 else s
  | .sx node blk launch rd fp size signed' => s.sxReply node blk launch rd fp size signed' st (if p.op == .completion then p.oparg0 else leNat p.data)
  | .drove seq tag off =>
    if st = .done ∨ st = .poisoned then s.droveData r.node seq tag off p.data (st == .poisoned) else s.linkReadFailed r.node seq tag st
  | .guest hub unit txn =>
    let s := if r.op == .penReq then s.penAnswered r p else if r.op == .penRelease then s.hubReleased r p else s
    s.guestReply hub unit txn p
  | .peer edge entry => s.peerReply edge entry p
  | .peerPen edge proxy => s.penProxyReply edge proxy p
  | .host hub tag => s.hostReply hub tag r.addr st p.data
  | .mirror orig => s.mirrorAnswered r orig p
  | .mgmt _ => s.windowAnswered r p

end Sys2Proof.Machine
end

