-- ==== Sys2Proof/Machine/Arrivals.lean ====
section
/-!
DEFINITION. Packets that are injected and that arrive: requests at storage and register pages, replies at their requester, timeouts.
-/
namespace Sys2Proof.Machine

/-- PACKET_INJECT (R55, R202): a requester of a node injects a packet; a hub's pen requests take an entry of its holder table. -/
def execPacketInject (node : Nat) (p : Packet) (line : Nat) (s : State) : Out :=
  need (decide (node < 182) && s.live node) .noSuch <|
  .next (if isHub node && p.op == .penReq then s.penAsk node p (.penHub node)
    else s.inject node p (if isHub node && p.op == .penRelease then .penReleaseHub node else .plain) line)

/-- A packet arrives (R66, R72): checked; sent on where it is on its way to a peer (R348-R349); else dealt with by `f`. -/
def State.onArrival (s : State) (p : Packet) (f : Packet → State → State) : State :=
  match s.arrive p.dest p with
  | (none, s) => s
  | (some p, s) => (s.towardsPeer p).getD (f p s)

/-- The requester that a packet's header names. -/
def Packet.requester (p : Packet) : Requester := ⟨p.src, p.srcUnit, p.jobTag⟩

/-- The queue a control core posts a task for: the lowest of its block's that runs a list of the packet's job (R184). -/
def State.poster (s : State) (p : Packet) : QueueRef :=
  let qs := unitQueues p.src (p.srcUnit % 4)
  (qs.find? fun q => (s.queue q).tag == some p.jobTag).getD ⟨p.src, p.srcUnit % 4, 0, 0⟩

/-- A status as a poisoned packet's completion carries it: the effect is complete and the data is marked (R5). -/
def Status.marked (st : Status) (poison : Bool) : Status := if st = .done ∧ poison then .poisoned else st

/-- A WRITE to a register page (R184, R410-R412): to a task window it posts a task; a write with bytes left out is refused. One of poisoned data takes effect and
completes POISONED (R5). -/
def State.packetRegWrite (s : State) (p : Packet) (node page off : Nat) : Status × State :=
  let r := p.requester
  let n := p.extent
  let v := leNat (p.payload.take n)
  let (st, s) := if !p.named.all (·.2) then s.refuseAccess node page off (r.origin.getD .C) .misaligned
  else if (pageKind node page).map (·.1) = some .taskWindow then
    if n ≠ 64 ∨ off % 64 ≠ 0 then s.refuseAccess node page off (r.origin.getD .C) .misaligned
    else match r.origin with
      | some .C => s.postTask node (some (s.poster p)) p.jobTag v
      | some .H => s.postTask node none p.jobTag v
      | o => s.refuseAccess node page off (o.getD .C) .notWriter
  else s.writePage r.origin node page off n v
  (st.marked p.poison, s)

/-- A WRITE at its destination (R36-R41, R69, R190, R198, R205, R317, R323). -/
def State.packetWrite (p : Packet) (s : State) : State :=
  match s.locate p.dest p.epoch p.addr (max 1 p.extent) with
  | .error st => s.answer p.dest p st
  | .ok (d, l) =>
    let r := p.requester
    if s.heldAt r d l then s.hold p.dest p
    else match s.barred r d l, l with
      | some st, _ => s.answer p.dest p st
      | none, .reg node page off =>
        let (st, s) := s.packetRegWrite p node page off
        s.answer p.dest p st
      | none, .stack st _ =>
        let (x, s) := s.writeLoc r d l p.named p.poison
        if (x == .done || x == .poisoned) && s.mirrored st d then s.sendMirror st p p else s.answer p.dest p x
      | none, _ =>
        let (x, s) := s.writeLoc r d l p.named p.poison
        s.answer p.dest p x

/-- WRITE (R54). Mirror writes are MIRROR_WRITE. -/
def execWrite (p : Packet) (s : State) : Out :=
  need (p.op == .write && decide (p.dest < 182)) .noSuch <|
  need (mirrorSource p).isNone .wrongCommand <|
  need (!s.ahead p) .notDue <| .next (s.onArrival p State.packetWrite)

/-- The READ_DATA that answers a READ_REQ. -/
def readDataPacket (s : State) (node : Nat) (p : Packet) (st : Status) (bs : List Byte) : Packet :=
  let n := (bs.length + 63) / 64
  { answerPacket s node p st with op := .readData, len := n, poison := st == .poisoned, oparg0 := bs.length, payload := bs ++ List.replicate (64 * n - bs.length) 0 }

/-- A READ_REQ at its destination (R36-R41, R69, R192, R198, R318, R412). -/
def State.packetRead (p : Packet) (s : State) : State :=
  if p.oparg0 = 0 ∨ 512 < p.oparg0 then s.answer p.dest p .accessFault
  else match s.locate p.dest p.epoch p.addr p.oparg0 with
    | .error st => s.answer p.dest p st
    | .ok (d, l) =>
      let r := p.requester
      if s.heldAt r d l then s.hold p.dest p
      else
        let (x, bs, s) := s.readLoc r d l p.oparg0
        let x := if x = .done ∧ p.poison then .poisoned else x
        if x = .done ∨ x = .poisoned then s.send (readDataPacket s p.dest p x bs) else s.answer p.dest p x

/-- READ_REQ (R54). -/
def execReadReq (p : Packet) (s : State) : Out :=
  need (p.op == .readReq && decide (p.dest < 182)) .noSuch <|
  need (!s.ahead p) .notDue <| .next (s.onArrival p State.packetRead)

/-- The sum an ATOMIC_ADD leaves (R109; log entry 12): kind 0 FP32, 1 INT32, 2 of 64 bits. -/
def atomicSum (kind old v : Nat) : Nat :=
  match kind with
  | 0 => add32 (old % 2 ^ 32) (v % 2 ^ 32)
  | 1 => (old + v) % 2 ^ 32
  | _ => (old + v) % 2 ^ 64

/-- The answer to an atomic add: OPARG0 holds the value it found (log entry 12). -/
def State.atomicAnswer (s : State) (p : Packet) (st : Status) (old : Nat) : State := s.send { answerPacket s p.dest p st with oparg0 := old }

/-- The pen, or the firmware's right, under which an atomic add may change a block's store (R154, R198, R205). -/
def State.atomicScratch (s : State) (p : Packet) (node blk off n : Nat) : Status :=
  let u := s.penUnit node blk
  match s.regionAnswer node blk with
  | .status .targetRetired => .targetRetired
  | a =>
    if (penFor u.pens p off n).isSome then .done
    else match a with
      | .status st => if (penFor u.revoked p off n).isSome then .targetResetting else st
      | _ => if (penFor u.revoked p off n).isSome then .targetResetting
        else if p.requester.firmware && inAS off then .done else .accessFault

/-- An ATOMIC_ADD at its destination (R109, R154, R317): the addressed word against the value that stands there. -/
def State.packetAtomic (p : Packet) (s : State) : State :=
  let n := p.extent
  match s.locate p.dest p.epoch p.addr n with
  | .error st => s.answer p.dest p st
  | .ok (d, l) =>
    let r := p.requester
    if p.addr % n ≠ 0 ∨ 2 < p.oparg1 then s.answer p.dest p .accessFault
    else if s.heldAt r d l then s.hold p.dest p
    else match l with
      | .stack st off =>
        match s.barred r d l with
        | some x => s.answer p.dest p x
        | none =>
          let (t, o) := stackPlace st off d
          let (bs, bad, s) := s.readStack t o n
          let old := leNat bs
          let new := leBytes n (atomicSum p.oparg1 old p.oparg0)
          let s := s.writeStackCopy t o (allOn new) (bad || p.poison)
          let x : Status := if bad || p.poison then .poisoned else .done
          if s.mirrored st d then
            s.sendMirror st { p with op := .write, len := 1, poison := x == .poisoned, byteMask := 2 ^ n - 1, oparg0 := 0, oparg1 := 0,
                                     payload := new ++ List.replicate (64 - n) 0 } { p with oparg1 := old, poison := x == .poisoned }
          else s.atomicAnswer p x old
      | .host a =>
        let old := s.mem.num (0x300000000000 + a) n
        let s := { s with mem := s.mem.write (0x300000000000 + a) (leBytes n (atomicSum p.oparg1 old p.oparg0)) }
        s.atomicAnswer p (if p.poison then .poisoned else .done) old
      | .scratch node blk off =>
        match s.atomicScratch p node blk off n with
        | .done =>
          let (bs, bad, s) := s.readBlk node blk off n
          let new := allOn (leBytes n (atomicSum p.oparg1 (leNat bs) p.oparg0))
          let s := (s.asChange r node blk off new).writeBlk node blk off new (bad || p.poison)
          s.atomicAnswer p (if bad || p.poison then .poisoned else .done) (leNat bs)
        | x => s.answer p.dest p x
      | _ => s.answer p.dest p .accessFault

/-- ATOMIC_ADD (R54, R109). Those for an edge die's tally tables are TALLY_ATOMIC_ADD. -/
def execAtomicAdd (p : Packet) (s : State) : Out :=
  need (p.op == .atomicAdd && decide (p.dest < 182)) .noSuch <|
  need (!(isEdge p.dest && p.addr == tallyAddr p.dest)) .wrongCommand <|
  need (!s.ahead p) .notDue <| .next (s.onArrival p State.packetAtomic)

/-- A reply at its requester (R69): the request it answers goes on; a reply that answers none is an orphan, a grant among them is released
again (R202, R210), a stale fold's completion ends the fold (R72). -/
def State.packetReply (p : Packet) (s : State) : State :=
  match s.takeRequest p.dest p.srcUnit p.txn with
  | (some r, s) => s.reply r p
  | (none, s) =>
    if p.op == .completion then s.foldStale p
    else
      if p.op == .penGrant then s.orphanGrant p.dest p.srcUnit p.jobTag p.oparg0
      else s.modRouter p.dest fun r => { r with orphans := r.orphans + 1 }

/-- READ_DATA (R54, R69). -/
def execReadData (p : Packet) (s : State) : Out :=
  need (p.op == .readData && decide (p.dest < 182)) .noSuch <|
  need (!s.ahead p) .notDue <| .next (s.onArrival p State.packetReply)

/-- A completion has a row of its own: a revocation (R208), a failing link read of a stream (R255). -/
def State.ownRow (s : State) (p : Packet) : Bool :=
  ((p.status == 4 || p.status == 5) && p.oparg0 != 0) ||
    match (s.takeRequest p.dest p.srcUnit p.txn).1 with
    | some r => (match r.purpose with | .drove .. => p.status != 0 && p.status != 1 | _ => false)
    | none => false

/-- COMPLETION (R69). -/
def execCompletion (p : Packet) (s : State) : Out :=
  need (p.op == .completion && decide (p.dest < 182)) .noSuch <|
  need (!s.ownRow p) .wrongCommand <|
  need (!s.ahead p) .notDue <| .next (s.onArrival p State.packetReply)

/-- PEN_GRANT (R204). -/
def execPenGrant (p : Packet) (s : State) : Out :=
  need (p.op == .penGrant && decide (p.dest < 182)) .noSuch <|
  need (!s.ahead p) .notDue <| .next (s.onArrival p State.packetReply)

/-- A control packet in its router's mailbox (R46): the master hub notes a destination that is reported suspect (R70). -/
def State.consume (p : Packet) (s : State) : State :=
  if p.oparg1 = Notice.suspect.code ∧ p.dest = s.master ∧ p.oparg0 < 182 ∧ !s.suspects.contains p.oparg0 ∧ !s.probes.any (fun x => x.node == p.oparg0) then
    { s with suspects := s.suspects ++ [p.oparg0] }
  else s

/-- CONTROL (R46, R54, R70): consumed in the router domain. Notices that have rows of their own are not. -/
def execControl (p : Packet) (s : State) : Out :=
  need (p.op == .control && decide (p.dest < 182)) .noSuch <|
  need (!([Notice.bufFree, .commit, .cancel, .ack].map Notice.code).contains p.oparg1) .wrongCommand <|
  need (!s.ahead p) .notDue <|
  match s.arrive p.dest p with
  | (none, s) => .next s
  | (some p, s) => .next (s.consume p)

/-- The MGMT_REPLY to a register access (R414). -/
def State.mgmtReply (s : State) (p : Packet) (st : Status) (bs : List Byte) : State :=
  let n := (bs.length + 63) / 64
  s.send { answerPacket s p.dest p st with op := .mgmtReply, cls := 5, len := n, oparg0 := bs.length, payload := bs ++ List.replicate (64 * n - bs.length) 0 }

/-- A MGMT packet at its unit's register port (R410-R414; log entry 11): OPARG0 the bytes, OPARG1 bit 0 a write. -/
def State.packetMgmt (p : Packet) (s : State) : State :=
  let n := p.oparg0
  if n = 0 ∨ 512 < n then s.mgmtReply p .accessFault []
  else match s.locate p.dest p.epoch p.addr n with
    | .error st => s.mgmtReply p st []
    | .ok (_, .reg node page off) =>
      let o := p.requester.origin
      match s.pageAnswer o node page with
      | .status st => s.mgmtReply p st []
      | .holds => s.hold p.dest p
      | .serves =>
        if bit p.oparg1 0 then
          let (st, s) := s.writePage o node page off n (leNat (p.payload.take n))
          s.mgmtReply p (st.marked p.poison) []
        else
          let (st, bs, s) := s.readPage o node page off n
          s.mgmtReply p (st.marked p.poison) (if st = .done then bs else [])
    | .ok _ => s.mgmtReply p .accessFault []

/-- MGMT (R414). -/
def execMgmt (p : Packet) (s : State) : Out :=
  need (p.op == .mgmt && decide (p.dest < 182)) .noSuch <|
  need (!s.ahead p) .notDue <| .next (s.onArrival p State.packetMgmt)

/-- MGMT_REPLY (R414). -/
def execMgmtReply (p : Packet) (s : State) : Out :=
  need (p.op == .mgmtReply && decide (p.dest < 182)) .noSuch <|
  need (!s.ahead p) .notDue <| .next (s.onArrival p State.packetReply)

/-- The timeout of a request: that of the peer range, or of the panel (R70, R352). -/
def State.timeoutOf (s : State) (r : Request) : Nat :=
  if inPeer r.addr then max 1 (s.fld F.rtrPeerTo_peerTimeout r.node) * (100 * us) else max 1 (s.fld F.rtrTimeout_reqTimeout r.node) * us

/-- REQUEST_TIMEOUT (R70, R202, R352): an outstanding C2 request, named by its node, SRC_UNIT and transaction, completes TIMEOUT. -/
def execRequestTimeout (node unit txn : Nat) (s : State) : Out :=
  match s.takeRequest node unit txn with
  | (none, _) => .refused .noSuch
  | (some r, s') =>
    need (r.op.cls == 2) .wrongState <|
    need (decide (r.time + s.timeoutOf r ≤ s.now)) .notDue <|
    let p : Packet := { op := .completion, cls := 1, dest := r.node, src := r.dest, srcUnit := r.unit, txn := r.txn, jobTag := r.tag, addr := r.addr,
                        status := Status.timeout.code, injTime := s.timeAt r.node }
    .next ((if inPeer r.addr then s' else s'.countTimeout r.node r.dest).reply r p)

end Sys2Proof.Machine
end

