-- ==== Sys2Proof/Machine/ControlRows.lean ====
section
/-!
DEFINITION. The control surface (R415-R417): the vendor commands, MCTP control, PLDM, and the RAIL frames (R553). `inst` is the instance number a
requester gives a message, `waiting` the requests that are not yet answered.
-/
namespace Sys2Proof.Machine

/-- The answer to a vendor message: type, IANA enterprise number, command, completion and payload (R416). -/
def State.vendorSay (s : State) (cmd : Nat) (body : List Nat) : State :=
  s.say (.mgmtAnswer (([0x7F, 0x00, 0x00, 0xE4, 0x2B, cmd] ++ body).map fun b => BitVec.ofNat 8 b))

/-- The bytes of a number, least significant first. -/
def leNats (n v : Nat) : List Nat := (leBytes n v).map (·.toNat)

/-- The endpoint holds four requests; a fifth is answered BUSY; then NOT_READY before bring-up step 4 has ended; then INVALID_LENGTH; then INVALID_DATA
(R416). A panel without a hub answers nothing (R498). -/
def State.vendor (s : State) (cmd waiting len : Nat) (payload : List Byte) (valid : Bool) (f : State → State) : Out :=
  .next <|
    if s.plant.bothLost then s
    else if 4 ≤ waiting then s.vendorSay cmd [5]
    else if s.fld F.hubBoot_step 180 ≤ 4 then s.vendorSay cmd [4]
    else if payload.length ≠ len then s.vendorSay cmd [3]
    else if !valid then s.vendorSay cmd [2]
    else f s

/-- The completion of a register access (R416): SUCCESS, or REFUSED with the status and the ACCESS_ERR KIND of the page that refused. -/
def State.accessBody (s : State) (a : RegAccess) (st : Status) : List Nat :=
  if st = .done then [0] else [1, st.code, if st = .accessFault then s.fld F.accessErr_kind a.node (errPage a.node a.page) else 0]

/-- An access of origin M to a panel address: none where the address lies outside the register range. -/
def mgmtAccess (addr n v : Nat) : Option RegAccess :=
  let k := addr - 0x200000000000
  if 0x200000000000 ≤ addr ∧ k / 0x40000 < 182 then some ⟨.M, k / 0x40000, k / 0x1000 % 64, k % 0x1000, n, v⟩ else none

/-- MCTP_REG_READ: R416: REG_READ reads a register of width 4 or 8 as origin M. -/
def execMctpRegRead (payload : List Byte) (waiting : Nat) (s : State) : Out :=
  let n := leNat (payload.drop 8)
  let acc := mgmtAccess (leNat (payload.take 8)) n 0
  s.vendor 1 waiting 9 payload (n == 4 || n == 8) fun s =>
    match acc with
    | none => s.vendorSay 1 [1, Status.accessFault.code, AccessKind.hole.code]
    | some a =>
      let (x, bs, s) := s.accessRead a
      let st := x.getD .timeout
      s.vendorSay 1 (s.accessBody a st ++ if st = .done then leNats 8 (leNat bs) else [])

/-- A register write as origin M; a write of HUB_PSTATE wakes the panel (R468). -/
def State.mgmtWrite (s : State) (cmd : Nat) (a : RegAccess) : State :=
  let s := if isHub a.node ∧ namedAt a.node a.page (a.off / 8 * 8) = .reg .hubPstate 0 0 then s.wakeEvent 3 cmd else s
  let (x, s) := s.accessWrite a
  s.vendorSay cmd (s.accessBody a (x.getD .timeout))

/-- MCTP_REG_WRITE: R416: REG_WRITE writes a register of width 4 or 8 as origin M. -/
def execMctpRegWrite (payload : List Byte) (waiting : Nat) (s : State) : Out :=
  let n := leNat ((payload.drop 8).take 1)
  let acc := mgmtAccess (leNat (payload.take 8)) n (leNat (payload.drop 9))
  s.vendor 2 waiting 17 payload (n == 4 || n == 8) fun s =>
    match acc with
    | none => s.vendorSay 2 [1, Status.accessFault.code, AccessKind.hole.code]
    | some a => s.mgmtWrite 2 a

/-- The hottest region junction, and the hottest stack, in °C. -/
def State.hottestRegion (s : State) : Nat := (List.range 156).foldl (fun m n => max m (s.fld F.pwrTemp_max n)) 0
def State.hottestStack (s : State) : Nat := (List.range 24).foldl (fun m i => max m (s.fld F.hbmStat_temp (156 + i))) 0

/-- GET_STATE: R416: geometry, master hub, power state, hottest junction, input power. -/
def execGetState (payload : List Byte) (waiting : Nat) (s : State) : Out :=
  s.vendor 3 waiting 0 payload true fun s =>
    let s := s.wakeEvent 3 3
    s.vendorSay 3 (0 :: leNats 8 (s.regWord .hubGeometry s.master 0 0) ++ [s.master - 180, s.pstate, s.hottestRegion] ++ leNats 2 (s.fld F.hubBudget_measured 180))

/-- SET_BUDGET: R453: sets the panel budget, clamped, and answers the budget in force. -/
def execSetBudget (payload : List Byte) (waiting : Nat) (s : State) : Out :=
  s.vendor 4 waiting 2 payload true fun s =>
    let s := s.wakeEvent 3 4
    let a : RegAccess := ⟨.M, s.master, 0, 0x120, 4, leNat payload⟩
    let (x, s) := s.accessWrite a
    let st := x.getD .timeout
    s.vendorSay 4 (s.accessBody a st ++ if st = .done then leNats 2 (s.fld F.hubBudget_budget 180) else [])

/-- GET_ENERGY: R416, R461: a job tag's energy in mJ. -/
def execGetEnergy (payload : List Byte) (waiting : Nat) (s : State) : Out :=
  let tag := leNat payload
  s.vendor 5 waiting 1 payload (decide (tag < 64)) fun s =>
    let s := s.wakeEvent 3 5
    s.vendorSay 5 (0 :: leNats 8 (s.fld F.pwrEnergy_energy s.master 0 tag))

/-- LOG_READ: R416, R503: up to 30 entries from a sequence number on: those in flash that the ring no longer holds, then the ring's. -/
def execLogRead (payload : List Byte) (waiting : Nat) (s : State) : Out :=
  let first := leNat (payload.take 4)
  let count := leNat (payload.drop 4)
  s.vendor 6 waiting 5 payload (decide (1 ≤ count) && decide (count ≤ 30)) fun s =>
    let s := s.wakeEvent 3 6
    let old := s.log.flash.filter fun (e : LogEntry) => !s.log.ring.any fun (r : LogEntry) => r.seq == e.seq
    let es := ((old ++ s.log.ring).filter fun (e : LogEntry) => decide (first ≤ e.seq)).take count
    s.vendorSay 6 (0 :: es.length :: (es.flatMap (·.bytes)).map (·.toNat))

/-- MCTP_ASSIST_REPLY: R416, R420: writes HUB_ASSIST_REPLY as origin M. -/
def execMctpAssistReply (payload : List Byte) (waiting : Nat) (s : State) : Out :=
  s.vendor 7 waiting 8 payload true fun s =>
    let s := s.wakeEvent 3 7
    let a : RegAccess := ⟨.M, s.master, 0, 0x310, 8, leNat payload⟩
    let (x, s) := s.accessWrite a
    s.vendorSay 7 (s.accessBody a (x.getD .timeout))

/-- `n` bytes the spec leaves open. -/
def State.openBytes (s : State) (n : Nat) : List Nat × State :=
  let (d, s) := s.draw
  ((List.range n).map fun i => (Config.freeByte d i).toNat, s)

/-- The answer to an MCTP control message. -/
def State.controlSay (s : State) (inst cmd : Nat) (body : List Nat) : State :=
  s.say (.mgmtAnswer (([0x00, inst % 32, cmd] ++ body).map fun b => BitVec.ofNat 8 b))

/-- MCTP_CONTROL: R415: Set and Get Endpoint ID, Get Endpoint UUID, Get MCTP Version Support, Get Message Type Support, Get Vendor Defined Message Support.
PRESUMED: message bodies and completion codes as DSP0236 has them. -/
def execMctpControl (inst cmd : Nat) (payload : List Byte) (s : State) : Out :=
  let arg := fun (i : Nat) => (payload.getD i 0).toNat
  if s.plant.bothLost then .next s else
  let say := fun (s : State) (body : List Nat) => Host.Outcome.next (s.controlSay inst cmd body)
  match cmd with
  | 1 =>
    if payload.length ≠ 2 then say s [3]
    else if 2 ≤ arg 0 ∨ arg 1 < 8 ∨ arg 1 = 0xFF then say s [2]
    else say (s.put F.hubMgmt_eid 180 0 0 (arg 1)) [0, 0, arg 1, 0]
  | 2 => if payload.length ≠ 0 then say s [3] else say s [0, s.fld F.hubMgmt_eid 180, 0, 0]
  | 3 =>
    if payload.length ≠ 0 then say s [3] else
    let (u, s) := s.openBytes 16
    say s (0 :: u)
  | 4 =>
    if payload.length ≠ 1 then say s [3]
    else if arg 0 = 0x00 ∨ arg 0 = 0xFF then say s [0, 1, 0xF1, 0xF3, 0xF0, 0x00]
    else if arg 0 = 0x01 ∨ arg 0 = 0x7F then
      let (u, s) := s.openBytes 4
      say s ([0, 1] ++ u)
    else say s [0x80]
  | 5 => if payload.length ≠ 0 then say s [3] else say s [0, 2, 0x01, 0x7F]
  | 6 =>
    if payload.length ≠ 1 then say s [3]
    else if arg 0 ≠ 0 then say s [2]
    else
      let (u, s) := s.openBytes 2
      say s ([0, 0xFF, 0x01, 0x00, 0x00, 0xE4, 0x2B] ++ u)
  | _ => say s [5]

/-- The reading of a numeric sensor (R417): input power, hottest region, hottest stack, stacks W0-W11 and E0-E11. -/
def State.reading (s : State) (k : Nat) : Nat :=
  match k with
  | 1 => s.fld F.hubBudget_measured 180
  | 2 => s.hottestRegion
  | 3 => s.hottestStack
  | _ => s.fld F.hbmStat_temp (156 + (k - 4))

/-- The state of a reading against warning, critical and fatal thresholds: normal 1, upper warning 8, upper critical 9, upper fatal 10 (PRESUMED: DSP0248). -/
def overStates (w c f v : Nat) : Nat := if f ≤ v then 10 else if c ≤ v then 9 else if w ≤ v then 8 else 1

/-- The present state of a sensor (R417). Panel state: 1 active, 2 standby, 3 stopped, 4 reduced, 5 no compute; airflow: 1 asserted; master hub: 1 HN. -/
def State.sensorState (s : State) (k : Nat) : Nat :=
  match k with
  | 2 => overStates 100 110 115 s.hottestRegion
  | 3 => overStates 85 95 105 s.hottestStack
  | 28 => if s.pstate = 4 then 3 else if s.pstate = 2 then 2 else if s.flag F.hubGeometry_noCompute s.master then 5
      else if s.flag F.hubGeometry_reduced s.master then 4 else 1
  | 29 => if s.plant.airflow then 1 else 2
  | 30 => if s.master = 180 then 1 else 2
  | _ => 1

/-- The state a sensor was last reported in. -/
def State.lastState (s : State) (k : Nat) : Nat := Sparse.get 1 s.plant.sensed k

/-- The answer to a PLDM message. -/
def State.pldmSay (s : State) (inst typ cmd : Nat) (body : List Nat) : State :=
  s.say (.mgmtAnswer (([0x01, inst % 32, typ, cmd] ++ body).map fun b => BitVec.ofNat 8 b))

/-- The commands of a PLDM type, as a mask. -/
def pldmCommands (typ : Nat) : List Nat := if typ = 0 then [2, 3, 4, 5] else if typ = 2 then [0x04, 0x11, 0x21, 0x50, 0x51] else []

/-- PLDM type 0 (R417). PRESUMED: bodies as DSP0240 has them. -/
def State.pldmBase (s : State) (cmd : Nat) (payload : List Byte) : List Nat × State :=
  let arg := fun (i : Nat) => (payload.getD i 0).toNat
  match cmd with
  | 2 =>
    let (u, s) := s.openBytes 1
    (0 :: u, s)
  | 3 =>
    if arg 5 = 0 ∨ arg 5 = 2 then
      let (u, s) := s.openBytes 8
      ([0, 0, 0, 0, 0, 5] ++ u, s)
    else ([0x83], s)
  | 4 => (0 :: leNats 8 5, s)
  | 5 => if arg 0 = 0 ∨ arg 0 = 2 then (0 :: leNats 32 (ofBits (pldmCommands (arg 0))), s) else ([0x83], s)
  | _ => ([5], s)

/-- PLDM type 2 (R417): the event receiver, sensor readings, the repository of 30 records, whose bytes the spec does not give. PRESUMED: bodies as DSP0248
has them. -/
def State.pldmPlatform (s : State) (cmd : Nat) (payload : List Byte) : List Nat × State :=
  let arg := fun (i : Nat) => (payload.getD i 0).toNat
  let k := leNat (payload.take 2)
  match cmd with
  | 0x04 => ([0], s.modPlant fun p => { p with receiver := if arg 0 = 0 then none else some (arg 2) })
  | 0x11 =>
    if 1 ≤ k ∧ k ≤ 27 then ([0, 2, 0, 1, s.sensorState k, s.lastState k, s.sensorState k] ++ leNats 2 (s.reading k), s) else ([0x80], s)
  | 0x21 =>
    if 28 ≤ k ∧ k ≤ 30 then ([0, 1, 0, s.sensorState k, s.lastState k, s.sensorState k], s) else ([0x80], s)
  | 0x50 =>
    let (u, s) := s.openBytes 34
    ([0, 0] ++ u.take 26 ++ leNats 4 30 ++ u.drop 26 ++ [0], s)
  | 0x51 =>
    let r := leNat (payload.take 4)
    if 30 < r then ([0x82], s) else
    let r := max 1 r
    let (u, s) := s.openBytes 64
    (0 :: leNats 4 (if r < 30 then r + 1 else 0) ++ leNats 4 0 ++ [5] ++ leNats 2 64 ++ u, s)
  | _ => ([5], s)

/-- PLDM_REQUEST: R417: a command of type 0 or 2 is answered; other types and commands are answered as unsupported. -/
def execPldmRequest (inst typ cmd : Nat) (payload : List Byte) (s : State) : Out :=
  if s.plant.bothLost then .next s else
  let (body, s) := if typ = 0 then s.pldmBase cmd payload else if typ = 2 then s.pldmPlatform cmd payload else ([0x20], s)
  .next (s.pldmSay inst typ cmd body)

/-- PLATFORM_EVENT: R417: a sensor has crossed a threshold or changed state since it was last reported; the receiver, if there is one, is told. -/
def execPlatformEvent (sensor : Nat) (s : State) : Out :=
  need (decide (1 ≤ sensor) && decide (sensor ≤ 30)) .noSuch <|
  need (!s.plant.bothLost && s.sensorState sensor != s.lastState sensor) .wrongState <|
    let old := s.lastState sensor
    let now := s.sensorState sensor
    let body := if sensor < 28 then leNats 2 sensor ++ [2, now, old, 1] ++ leNats 2 (s.reading sensor) else leNats 2 sensor ++ [1, 0, now, old]
    let s := s.modPlant fun p => { p with sensed := Sparse.set p.sensed sensor now }
    .next (if s.plant.receiver.isSome then s.say (.platformEvent (([0x01, 0x80, 0x02, 0x0A, 0x01, 0x00, 0x00] ++ body).map fun b => BitVec.ofNat 8 b)) else s)

/-- DYNAMIC_ADDRESS: R415, R424: ENTDAA or SETDASA assigns the I3C dynamic address; both hubs hold it. -/
def execDynamicAddress (addr : Nat) (s : State) : Out :=
  need (decide (addr < 128)) .noSuch <| .next ((s.put F.hubMgmt_dynAddr 180 0 0 addr).put F.hubMgmt_dynValid 180 0 0 1)

/-- RAIL_FRAME: R553: one frame every 10 µs while the panel runs. `step` is the step expected of the current, `next` the highest current predicted for
the next 1 ms, in A. The CRC's conventions are not given (log entry 7). -/
def execRailFrame (step next : Nat) (s : State) : Out :=
  need (decide (step < 4) && decide (next < 4096)) .noSuch <|
  need s.ready .wrongState <|
  need (decide (s.plant.railAt + 10 * us ≤ s.now)) .notDue <|
    let low := next + 2 ^ 12 * step + 2 ^ 14 * b2n (s.pstate == 4) + 2 ^ 15 * b2n s.log.stopped + 2 ^ 16 * (s.plant.railSeq % 256)
    let frame := low + 2 ^ 24 * (Config.railCrc low % 256)
    .next ((s.say (.railFrame s.master frame)).modPlant fun p => { p with railAt := s.now, railSeq := (p.railSeq + 1) % 256 })

end Sys2Proof.Machine
end

