-- ==== Sys2Proof/Machine/DroveRows.lean ====
section
/-!
DEFINITION. A drove at its members (R247-R251, R257-R263, R283): DROVE_TILE, COMMIT_NOTICE, CANCEL_NOTICE.
-/
namespace Sys2Proof.Machine

/-- A consumer of a discarded stream loses its tiles, its progress and its shadow slot (R261-R262). -/
def State.discardRun (s : State) (r : MatRun) : State :=
  match (s.queue r.q).cur with
  | some c => (s.dropRun r.q).modBlock r.q.node r.q.blk fun b =>
      { b with tiles := (gSlots c.desc).foldl (fun m n => Sparse.del m n) b.tiles }
  | none => s.dropRun r.q

/-- The runs of a block that have begun on a sequence of a half. -/
def State.consumers (s : State) (node blk side seq : Nat) : List MatRun :=
  (s.block node blk).runs.filter fun r => r.ready && match (s.queue r.q).cur with
    | some c => c.status.isNone && gFed c.desc && gSource c.desc == side && gSeq c.desc == seq
    | none => false

/-- A consumer of a withdrawn stream starts again as the head of its queue (R262). -/
def State.restart (s : State) (r : MatRun) : State :=
  (s.discardRun r).modQueue r.q fun x => match x.cur with
    | some c => { x with cur := none, walk := some c.addr, waited := true }
    | none => x

/-- Bytes a block has received of a stream, in KiB units of its tally (R530). -/
def Feed.bytes (f : Feed) : Nat := 64 * ((setBits 8192 f.units0).length + (setBits 8192 f.units1).length)

/-- A consumer of a cancelled stream completes CANCELLED (R261). -/
def State.cancelRun (s : State) (r : MatRun) (bytes : Nat) : State :=
  ((s.discardRun r).modCur r.q fun c => { c with cancelled := c.cancelled + bytes }).endCmd r.q .cancelled

/-- Some line of the stream has come to the block. -/
def Feed.hasLines (f : Feed) : Bool := f.fill0.isSome || f.fill1.isSome || !f.freed.isEmpty

/-- Later provisional streams of the half that are not decided and of which a line has come are withdrawn at a block (R262). -/
def State.withdrawAt (s : State) (node blk side : Nat) (later : List Feed) : State :=
  let gone := later.filter fun f => f.prov && f.decision.isNone && f.hasLines
  let s := gone.foldl (fun s f => (s.consumers node blk side f.seq).foldl State.restart s) s
  s.modBlock node blk fun b => b.modHalf side fun h => { h with feeds := h.feeds.filter fun f => !gone.contains f }

/-- A block discards a stream of its half: its consumers complete CANCELLED when `cancel` is set and start again otherwise; later provisional
streams are withdrawn (R261-R262). -/
def State.discardFeed (s : State) (node blk side : Nat) (f : Feed) (cancel : Bool) : State :=
  let h := (s.block node blk).half side
  let s := (s.consumers node blk side f.seq).foldl (fun s r => if cancel then s.cancelRun r f.bytes else s.restart r) s
  let later := (h.feeds.dropWhile (· != f)).drop 1
  let s := s.modBlock node blk fun b => b.modHalf side fun h => { h with feeds := h.feeds.filter (· != f) }
  s.withdrawAt node blk side later

/-- Record a decision that comes before any line of its sequence: 16 entries to a half, the oldest giving way (R263; log entry 14). -/
def Half.record (h : Half) (seq tag : Nat) (k : Decision) : Half :=
  let t := h.table.filter (fun e => !(e.1 == seq && e.2.1 == tag)) ++ [(seq, tag, k)]
  { h with table := t.drop (t.length - 16) }

/-- The header is one of a cancelled stream whose sequence has been decided empty meanwhile (R302). -/
def Half.isEmpty (h : Half) (seq tag : Nat) : Bool := h.table.any fun e => e.1 == seq && e.2.1 == tag && e.2.2 == .empty

/-- The stream header reaches a block (R247, R263): a stream of that sequence it still holds gives way; a recorded decision applies. A provisional
header of a sequence decided empty is the cancelled stream's, and is discarded (R302; log entry 54). -/
def State.feedHeader (s : State) (p : Packet) (blk : Nat) : State :=
  let seq := bits p.oparg0 0 16
  let side := bits p.oparg0 16 1
  if bit p.oparg0 17 && ((s.block p.dest blk).half side).isEmpty seq p.jobTag then s else
  let s := match ((s.block p.dest blk).half side).feed? seq with
    | some f => s.discardFeed p.dest blk side f false
    | none => s
  let h := (s.block p.dest blk).half side
  let dec : Option Decision := (h.table.find? fun e => e.1 == seq && e.2.1 == p.jobTag).map fun e => e.2.2
  let feed : Feed := { seq := seq, src := p.src, tag := p.jobTag, prov := bit p.oparg0 17, header := headerOf (leNat (p.payload.take 64)) p.oparg1,
                       decision := match dec with | some .empty => none | x => x }
  (s.modBlock p.dest blk fun b => b.modHalf side fun h =>
    { feeds := h.feeds ++ [feed], table := h.table.filter fun e => !(e.1 == seq && e.2.1 == p.jobTag) }).matrixTick p.dest blk

/-- The fill a buffer holds gives way to fill `k` when its first line comes. -/
def Feed.holding (f : Feed) (k : Nat) : Feed :=
  if k % 2 = 0 then (if f.fill0 = some k then f else { f with fill0 := some k, units0 := 0, closed0 := false })
  else if f.fill1 = some k then f else { f with fill1 := some k, units1 := 0, closed1 := false }

/-- Units arrive in a buffer. -/
def Feed.addUnits (f : Feed) (k : Nat) (us : List Nat) : Feed :=
  if k % 2 = 0 then { f with units0 := us.foldl (fun m u => putBits m u 1 1) f.units0 } else { f with units1 := us.foldl (fun m u => putBits m u 1 1) f.units1 }

/-- A buffer is closed (R283). -/
def Feed.close (f : Feed) (k : Nat) : Feed := if k % 2 = 0 then { f with closed0 := true } else { f with closed1 := true }

/-- A line, or a close packet, reaches a block (R249, R283): the units it carries are written into the weight stage. -/
def State.feedLine (s : State) (p : Packet) (blk : Nat) : State :=
  let seq := bits p.oparg0 0 16
  let side := bits p.oparg0 16 1
  match ((s.block p.dest blk).half side).feed? seq with
  | none => s
  | some f =>
    if f.decision = some .cancel ∨ f.tag ≠ p.jobTag then s else
    let line := bits p.oparg0 20 19
    let n := max 1 f.header.fillLines
    if p.len = 0 then
      let k := (line - 1) / n
      (s.modBlock p.dest blk fun b => b.modHalf side fun h => h.modFeed seq fun f => (f.holding k).close k).matrixTick p.dest blk
    else
      let k := line / n
      let us := setBits 8 p.oparg1
      let off := 0x2000000 + side * 0x100000 + k % 2 * 0x80000 + 512 * (line % n)
      let s := us.foldl (fun s u => s.writeBlk p.dest blk (off + 64 * u) (allOn ((p.payload.drop (64 * u)).take 64)) p.poison) s
      (s.modBlock p.dest blk fun b => b.modHalf side fun h => h.modFeed seq fun f =>
        (f.holding k).addUnits k (us.map fun u => 8 * (line % n) + u)).matrixTick p.dest blk

/-- DROVE_TILE (R247, R249, R257): the header, a line or a close packet reaches all four blocks of a member; a napping member's router holds it. -/
def execDroveTile (p : Packet) (s : State) : Out :=
  need (p.op == .droveTile && isRegion p.dest && isEdge p.src) .noSuch <|
  need (!s.ahead p) .notDue <|
  match s.arrive p.dest p with
  | (none, s) => .next s
  | (some p, s) =>
    if s.coreGated p.dest then .next (s.hold p.dest p)
    else if [0, 1, 2, 3].all fun b => !s.works p.dest b then
      .next (s.modRouter p.dest fun r => { r with mcastDiscards := r.mcastDiscards + 1 })
    else .next ([0, 1, 2, 3].foldl (fun s b =>
      if !s.works p.dest b then s else if bit p.oparg0 18 then s.feedHeader p b else s.feedLine p b) s)

/-- COMMIT_NOTICE (R260, R263, R302): awaiting consumers promote, computing ones will; the acknowledgement goes once none is left to promote. An empty
decision leaves nothing of its sequence at a block, and its consumers end. -/
def execCommitNotice (p : Packet) (s : State) : Out :=
  need (p.op == .control && isRegion p.dest && p.oparg1 == Notice.commit.code) .noSuch <|
  need (!s.ahead p) .notDue <|
  match s.arrive p.dest p with
  | (none, s) => .next s
  | (some p, s) =>
    let seq := bits p.oparg0 0 16
    let side := bits p.oparg0 16 1
    let one := fun (s : State) (b : Nat) =>
      match ((s.block p.dest b).half side).feed? seq with
      | some f =>
        if bit p.oparg0 17 then
          (s.discardFeed p.dest b side f false).modBlock p.dest b fun x => x.modHalf side fun h => h.record seq p.jobTag .empty
        else
        let rs := s.consumers p.dest b side seq
        let s := s.modBlock p.dest b fun x => x.modHalf side fun h => h.modFeed seq fun f => { f with decision := some .commit }
        rs.foldl (fun s r => s.modRun r.q fun r => { r with promote := true }) s
      | none => s.modBlock p.dest b fun x => x.modHalf side fun h => h.record seq p.jobTag (if bit p.oparg0 17 then .empty else .commit)
    let s := [0, 1, 2, 3].foldl one s
    let s := { s with acks := s.acks ++ [⟨p.dest, p.src, side, seq, p.jobTag⟩] }
    let s := [0, 1, 2, 3].foldl (fun (s : State) b => s.matrixTick p.dest b) s
    .next (s.closeFeed p.dest side seq)

/-- CANCEL_NOTICE (R261-R263): every block discards the sequence, its consumers complete CANCELLED, and the member acknowledges. A block that has seen no
line of it records the notice, unless none has been sent (log entry 54). -/
def execCancelNotice (p : Packet) (s : State) : Out :=
  need (p.op == .control && isRegion p.dest && p.oparg1 == Notice.cancel.code) .noSuch <|
  need (!s.ahead p) .notDue <|
  match s.arrive p.dest p with
  | (none, s) => .next s
  | (some p, s) =>
    let seq := bits p.oparg0 0 16
    let side := bits p.oparg0 16 1
    let one := fun (s : State) (b : Nat) =>
      match ((s.block p.dest b).half side).feed? seq with
      | some f => (s.discardFeed p.dest b side f true).matrixTick p.dest b
      | none => if bit p.oparg0 17 then s else s.modBlock p.dest b fun x => x.modHalf side fun h => h.record seq p.jobTag .cancel
    .next (([0, 1, 2, 3].foldl one s).notice p.dest p.src p.jobTag .ack seq side 1)

end Sys2Proof.Machine
end

