-- ==== Sys2Proof/Machine/WriteRows.lean ====
section
/-!
DEFINITION. The rows that write registers, each with the access as operand: it is checked, applied and recorded as R411 says, and then has the effect of
the register's own rule (RegApply). A row takes writes that reach its fields.
-/
namespace Sys2Proof.Machine

/-- A write that reaches one of the fields `fs`: its effect, whatever status it completes with. -/
def fieldRow (fs : List Field) (a : RegAccess) (s : State) : Out := need (a.touches fs) .wrongCommand <| .next (s.accessWrite a).2

/-- BANK_SEAL: R71: SEAL makes the FREE bank LOADED, or ACTIVE at the first seal. -/
def execBankSeal (a : RegAccess) (s : State) : Out := fieldRow [F.rtrEpoch_seal] a s

/-- FLIP_AT_WRITE: R74: a write of RTR_FLIP_AT schedules the flip, or cancels it. -/
def execFlipAtWrite (a : RegAccess) (s : State) : Out := fieldRow [F.rtrFlipAt_flipAt] a s

/-- ROUNDS_CTRL_WRITE: R138: ENABLE stops or resumes matrix rounds. -/
def execRoundsCtrlWrite (a : RegAccess) (s : State) : Out := fieldRow [F.mxcRoundsCtrl_enable] a s

/-- FB_RUN_WRITE: R425: RUN releases a fall-back core at ENTRY, or holds it in reset. -/
def execFbRunWrite (a : RegAccess) (s : State) : Out := fieldRow [F.hubFbctrl_run] a s

/-- POOL_UNITS_WRITE: R201: POOL_UNITS resizes the pen pool, or the write is dropped. -/
def execPoolUnitsWrite (a : RegAccess) (s : State) : Out := fieldRow [F.blkPenCfg_poolUnits] a s

/-- PEN_COUNT_CLEAR: R215: CLEAR zeroes every field of BLK_PEN_COUNT. -/
def execPenCountClear (a : RegAccess) (s : State) : Out := fieldRow [F.blkPenCount_clear] a s

/-- COUNTER_CLEAR: R535: CLEAR zeroes a page's free-running counters. -/
def execCounterClear (a : RegAccess) (s : State) : Out := fieldRow [F.blkClear_clear, F.drvClear_clear] a s

/-- MEMCFG_WRITE: R316: placement while no job is live, or the length of a scrub pass. -/
def execMemcfgWrite (a : RegAccess) (s : State) : Out := fieldRow [F.hubMemcfg_placement, F.hubMemcfg_scrubHours] a s

/-- LINK_ENABLE: R338: ENABLE starts or stops a bundle. -/
def execLinkEnable (a : RegAccess) (s : State) : Out := fieldRow [F.lnkCtrl_enable] a s

/-- LINK_MODE_WRITE: R360: MODE switches Drieno or Ethernet and retrains the bundle. -/
def execLinkModeWrite (a : RegAccess) (s : State) : Out := fieldRow [F.lnkCtrl_mode] a s

/-- REENABLE: R338: a retired bundle goes back to training. -/
def execReenable (a : RegAccess) (s : State) : Out := fieldRow [F.lnkCtrl_reenable] a s

/-- FULL_TRAIN: R360: the saved settings are discarded and the bundle retrains. -/
def execFullTrain (a : RegAccess) (s : State) : Out := fieldRow [F.lnkCtrl_fullTrain] a s

/-- BAR2_WIN_WRITE: R374: the window moves for later requests. -/
def execBar2WinWrite (a : RegAccess) (s : State) : Out := fieldRow [F.hubBar2Win_base, F.hubBar2Win_tagEn, F.hubBar2Win_jobTag] a s

/-- SQ_CFG_WRITE: R384: HUB_SQCFG and HUB_CQCFG configure, enable or reset a queue. -/
def execSqCfgWrite (a : RegAccess) (s : State) : Out := fieldRow [F.hubSqcfg_base, F.hubSqcfg_log2, F.hubSqcfg_cq, F.hubSqcfg_enable, F.hubCqcfg_base, F.hubCqcfg_log2, F.hubCqcfg_vector, F.hubCqcfg_enable] a s

/-- HOSTCFG_WRITE: R424: DUAL selects failover or dual host routing. -/
def execHostcfgWrite (a : RegAccess) (s : State) : Out := fieldRow [F.hubHostcfg_dual] a s

/-- UNIT_ENABLE: R400: ENABLE starts a unit, or takes it to off through draining. -/
def execUnitEnable (a : RegAccess) (s : State) : Out := fieldRow [F.unitCtrl_enable] a s

/-- RESET_REQ: R523: RESET_REQ starts a unit's partial reset through draining. -/
def execResetReq (a : RegAccess) (s : State) : Out := fieldRow [F.unitCtrl_resetReq] a s

/-- QUIESCE: R400: QUIESCE takes a unit to quiesced, or back to running. -/
def execQuiesce (a : RegAccess) (s : State) : Out := fieldRow [F.unitCtrl_quiesce] a s

/-- ERR_INJECT: R404: GO injects one error condition in debug mode. -/
def execErrInject (a : RegAccess) (s : State) : Out := fieldRow [F.errInject_go] a s

/-- LOCK: R408: LOCKED locks the page, or the whole panel from the master hub. -/
def execLock (a : RegAccess) (s : State) : Out := fieldRow [F.lock_locked] a s

/-- ASSIST_REPLY: R420: HUB_ASSIST_REPLY completes a pending assist. -/
def execAssistReply (a : RegAccess) (s : State) : Out := fieldRow [F.hubAssistReply_id, F.hubAssistReply_verdict, F.hubAssistReply_data] a s

/-- TIM_RATE_WRITE: R440: TIM_RATE sets the rate correction of the host. -/
def execTimRateWrite (a : RegAccess) (s : State) : Out := fieldRow [F.timRate_rate] a s

/-- SHARE_WRITE: R470: PWR_LIMIT.SHARE sets a host-assisted share of the budget. -/
def execShareWrite (a : RegAccess) (s : State) : Out := fieldRow [F.pwrLimit_share] a s

/-- BUDGET_WRITE: R453: HUB_BUDGET.BUDGET sets the panel budget. -/
def execBudgetWrite (a : RegAccess) (s : State) : Out := fieldRow [F.hubBudget_budget] a s

/-- FC_HOST_WRITE: R476: HUB_FC_HOST supplies the fan request and the ceilings. -/
def execFcHostWrite (a : RegAccess) (s : State) : Out := fieldRow [F.hubFcHost_fan, F.hubFcHost_tableEn, F.hubFcHost_table] a s

/-- LOG_HRING_HEAD: R510: LOG_HRING_HEAD acknowledges the entries the host has read. -/
def execLogHringHead (a : RegAccess) (s : State) : Out := fieldRow [F.logHringHead_head] a s

/-- COMPUTE_RESET: R522: COMPUTE_RESET aborts every job and resets every region core and block. -/
def execComputeReset (a : RegAccess) (s : State) : Out := fieldRow [F.hubBootctl_computeReset] a s

/-- PANEL_RESET: R524: PANEL_RESET spills the log and resets the panel. -/
def execPanelReset (a : RegAccess) (s : State) : Out := fieldRow [F.hubBootctl_panelReset] a s

/-- UPDATE: R526: UPDATE authenticates and applies the inactive firmware bundle. -/
def execUpdate (a : RegAccess) (s : State) : Out := fieldRow [F.hubBootctl_update] a s

/-- FORCE_FULL_WRITE: R527: FORCE_FULL requests a full start at the next bring-up. -/
def execForceFullWrite (a : RegAccess) (s : State) : Out := fieldRow [F.hubBootctl_forceFull] a s

/-- RESUME: R541: RESUME forwards the held command and the block goes on. -/
def execResume (a : RegAccess) (s : State) : Out := fieldRow [F.dbgBrk_resume] a s

/-- STEP: R541: STEP forwards one command of a halted block in debug mode. -/
def execStep (a : RegAccess) (s : State) : Out := fieldRow [F.dbgBrk_step] a s

/-- FREEZE: R539: FREEZE freezes every event ring. -/
def execFreeze (a : RegAccess) (s : State) : Out := fieldRow [F.dbgFreeze_freeze] a s

/-- THAW: R539: THAW unfreezes every event ring. -/
def execThaw (a : RegAccess) (s : State) : Out := fieldRow [F.dbgFreeze_thaw] a s

/-- DEBUG_MODE_WRITE: R542: DEBUG enters debug mode while no job is live, or leaves it. -/
def execDebugModeWrite (a : RegAccess) (s : State) : Out := fieldRow [F.dbgMode_debug] a s

/-- DBG_ACC_GO: R542: GO issues a register access as origin D. -/
def execDbgAccGo (a : RegAccess) (s : State) : Out := fieldRow [F.dbgAcc_go] a s

/-- STANDBY_REQ: R466: the write puts the panel into Panel Standby; `abort` is the step of entry B0-B5 at which a wake aborts it, if one does (R467). -/
def execStandbyReq (a : RegAccess) (abort : Option Nat) (s : State) : Out :=
  need (a.touches [F.hubPstate_standbyReq]) .wrongCommand <|
    let (x, s') := s.accessWrite a
    .next (if x = some .done then (if s.pstate = 0 then s.onStandby abort else s) else s')

/-- REBASE: R473: in debug mode the contact resistance is measured anew; `r` is the measurement. -/
def execRebase (a : RegAccess) (r : Nat) (s : State) : Out :=
  need (a.touches [F.pwrContact_rebase]) .wrongCommand <|
    let (x, s) := s.accessWrite a
    .next (if x = some .done then s.setBaseline a.node r else s)

/-- REGISTER_WRITE: R411: a write of any register is checked field by field, applied and recorded. -/
def execRegisterWrite (a : RegAccess) (s : State) : Out := .next (s.accessWrite a).2

end Sys2Proof.Machine
end

