-- ==== Sys2Proof/Machine/Dispatch.lean ====
section
/-!
DEFINITION. One arm for each command: the meaning of each is a definition of its own in Machine/<Family>.lean.
-/
namespace Sys2Proof.Machine

def exec (i : Instr) (s : State) : Host.Outcome State Fault Refusal :=
  match i with
  | .write p => Sys2Proof.Machine.execWrite p s
  | .readReq p => Sys2Proof.Machine.execReadReq p s
  | .readData p => Sys2Proof.Machine.execReadData p s
  | .completion p => Sys2Proof.Machine.execCompletion p s
  | .penReq p => Sys2Proof.Machine.execPenReq p s
  | .penGrant p => Sys2Proof.Machine.execPenGrant p s
  | .penPut p => Sys2Proof.Machine.execPenPut p s
  | .penRelease p => Sys2Proof.Machine.execPenRelease p s
  | .atomicAdd p => Sys2Proof.Machine.execAtomicAdd p s
  | .tallyAtomicAdd p => Sys2Proof.Machine.execTallyAtomicAdd p s
  | .droveTile p => Sys2Proof.Machine.execDroveTile p s
  | .foldPart p => Sys2Proof.Machine.execFoldPart p s
  | .hurdleArrive p => Sys2Proof.Machine.execHurdleArrive p s
  | .hurdleRelease p => Sys2Proof.Machine.execHurdleRelease p s
  | .control p => Sys2Proof.Machine.execControl p s
  | .bufFree p => Sys2Proof.Machine.execBufFree p s
  | .commitNotice p => Sys2Proof.Machine.execCommitNotice p s
  | .cancelNotice p => Sys2Proof.Machine.execCancelNotice p s
  | .decisionAck p => Sys2Proof.Machine.execDecisionAck p s
  | .mgmt p => Sys2Proof.Machine.execMgmt p s
  | .mgmtReply p => Sys2Proof.Machine.execMgmtReply p s
  | .packetInject node p line => Sys2Proof.Machine.execPacketInject node p line s
  | .flitCrcError node port lane sent received => Sys2Proof.Machine.execFlitCrcError node port lane sent received s
  | .nakResend node port lane => Sys2Proof.Machine.execNakResend node port lane s
  | .resentFlitGood node port lane => Sys2Proof.Machine.execResentFlitGood node port lane s
  | .bridgeRetrainDone node port ok => Sys2Proof.Machine.execBridgeRetrainDone node port ok s
  | .requestTimeout node unit txn => Sys2Proof.Machine.execRequestTimeout node unit txn s
  | .suspectMark node => Sys2Proof.Machine.execSuspectMark node s
  | .bankSeal a => Sys2Proof.Machine.execBankSeal a s
  | .flipAtWrite a => Sys2Proof.Machine.execFlipAtWrite a s
  | .epochFlip node => Sys2Proof.Machine.execEpochFlip node s
  | .epochDrainEnd node => Sys2Proof.Machine.execEpochDrainEnd node s
  | .mapSwitch t => Sys2Proof.Machine.execMapSwitch t s
  | .mxeBindHeft q => Sys2Proof.Machine.execMxeBindHeft q s
  | .mxeGemm q ups => Sys2Proof.Machine.execMxeGemm q ups s
  | .mxeGemmT q ups => Sys2Proof.Machine.execMxeGemmT q ups s
  | .mxeLocal q ups => Sys2Proof.Machine.execMxeLocal q ups s
  | .mxeCodebook q => Sys2Proof.Machine.execMxeCodebook q s
  | .mxeDrain q => Sys2Proof.Machine.execMxeDrain q s
  | .recomputeDone node blk failed => Sys2Proof.Machine.execRecomputeDone node blk failed s
  | .roundsRotation node blk => Sys2Proof.Machine.execRoundsRotation node blk s
  | .roundsTestDone node blk pass signature => Sys2Proof.Machine.execRoundsTestDone node blk pass signature s
  | .roundsWindowEnd node blk => Sys2Proof.Machine.execRoundsWindowEnd node blk s
  | .sliceWindowOpen node blk => Sys2Proof.Machine.execSliceWindowOpen node blk s
  | .roundsCtrlWrite a => Sys2Proof.Machine.execRoundsCtrlWrite a s
  | .vxeLaunch q => Sys2Proof.Machine.execVxeLaunch q s
  | .vxeLaunchChecked q => Sys2Proof.Machine.execVxeLaunchChecked q s
  | .groupPlace q => Sys2Proof.Machine.execGroupPlace q s
  | .vadd t => Sys2Proof.Machine.execVadd t s
  | .vsub t => Sys2Proof.Machine.execVsub t s
  | .vmul t => Sys2Proof.Machine.execVmul t s
  | .vfma t => Sys2Proof.Machine.execVfma t s
  | .vmin t => Sys2Proof.Machine.execVmin t s
  | .vmax t => Sys2Proof.Machine.execVmax t s
  | .vrcp t => Sys2Proof.Machine.execVrcp t s
  | .vrsq t => Sys2Proof.Machine.execVrsq t s
  | .vand t => Sys2Proof.Machine.execVand t s
  | .vor t => Sys2Proof.Machine.execVor t s
  | .vxor t => Sys2Proof.Machine.execVxor t s
  | .vsh t => Sys2Proof.Machine.execVsh t s
  | .vcmpf t => Sys2Proof.Machine.execVcmpf t s
  | .vcmpi t => Sys2Proof.Machine.execVcmpi t s
  | .vsel t => Sys2Proof.Machine.execVsel t s
  | .vperm t => Sys2Proof.Machine.execVperm t s
  | .vcvt t => Sys2Proof.Machine.execVcvt t s
  | .vqnt t => Sys2Proof.Machine.execVqnt t s
  | .vdqnt t => Sys2Proof.Machine.execVdqnt t s
  | .vcrv t => Sys2Proof.Machine.execVcrv t s
  | .vred t => Sys2Proof.Machine.execVred t s
  | .vscan t => Sys2Proof.Machine.execVscan t s
  | .vzbm t => Sys2Proof.Machine.execVzbm t s
  | .vbcs t => Sys2Proof.Machine.execVbcs t s
  | .vgsc t mism => Sys2Proof.Machine.execVgsc t mism s
  | .vgrd t => Sys2Proof.Machine.execVgrd t s
  | .plog t => Sys2Proof.Machine.execPlog t s
  | .vidx t => Sys2Proof.Machine.execVidx t s
  | .sop t => Sys2Proof.Machine.execSop t s
  | .smovv t => Sys2Proof.Machine.execSmovv t s
  | .srd t => Sys2Proof.Machine.execSrd t s
  | .saddi t => Sys2Proof.Machine.execSaddi t s
  | .sandi t => Sys2Proof.Machine.execSandi t s
  | .sori t => Sys2Proof.Machine.execSori t s
  | .sshi t => Sys2Proof.Machine.execSshi t s
  | .sshin t => Sys2Proof.Machine.execSshin t s
  | .vbci t => Sys2Proof.Machine.execVbci t s
  | .vaddi t => Sys2Proof.Machine.execVaddi t s
  | .vld t => Sys2Proof.Machine.execVld t s
  | .vst t mism => Sys2Proof.Machine.execVst t mism s
  | .vldx t => Sys2Proof.Machine.execVldx t s
  | .vstx t mism => Sys2Proof.Machine.execVstx t mism s
  | .sld t => Sys2Proof.Machine.execSld t s
  | .sst t mism => Sys2Proof.Machine.execSst t mism s
  | .vldr t => Sys2Proof.Machine.execVldr t s
  | .vstr t mism => Sys2Proof.Machine.execVstr t mism s
  | .vput t mism => Sys2Proof.Machine.execVput t mism s
  | .vatom t mism => Sys2Proof.Machine.execVatom t mism s
  | .satomr t mism => Sys2Proof.Machine.execSatomr t mism s
  | .vcld t mism => Sys2Proof.Machine.execVcld t mism s
  | .bra t => Sys2Proof.Machine.execBra t s
  | .beq t => Sys2Proof.Machine.execBeq t s
  | .bne t => Sys2Proof.Machine.execBne t s
  | .blt t => Sys2Proof.Machine.execBlt t s
  | .bge t => Sys2Proof.Machine.execBge t s
  | .bpany t => Sys2Proof.Machine.execBpany t s
  | .bpall t => Sys2Proof.Machine.execBpall t s
  | .yield t => Sys2Proof.Machine.execYield t s
  | .yieldEnd t => Sys2Proof.Machine.execYieldEnd t s
  | .harv t mism => Sys2Proof.Machine.execHarv t mism s
  | .hwait t mism => Sys2Proof.Machine.execHwait t mism s
  | .exit t mism => Sys2Proof.Machine.execExit t mism s
  | .checkSkewTimeout t => Sys2Proof.Machine.execCheckSkewTimeout t s
  | .launchEnd q => Sys2Proof.Machine.execLaunchEnd q s
  | .vectorRoundsTest node blk => Sys2Proof.Machine.execVectorRoundsTest node blk s
  | .vectorTestDone node blk pass => Sys2Proof.Machine.execVectorTestDone node blk pass s
  | .sxHarrive node blk => Sys2Proof.Machine.execSxHarrive node blk s
  | .sxHwaitc node blk => Sys2Proof.Machine.execSxHwaitc node blk s
  | .sxEcall node blk => Sys2Proof.Machine.execSxEcall node blk s
  | .sxTrap node blk => Sys2Proof.Machine.execSxTrap node blk s
  | .sxRoundsTest node blk pass => Sys2Proof.Machine.execSxRoundsTest node blk pass s
  | .lockstepMismatch node blk => Sys2Proof.Machine.execLockstepMismatch node blk s
  | .taskPost hub poster tag bits512 => Sys2Proof.Machine.execTaskPost hub poster tag bits512 s
  | .taskDone hub core place st => Sys2Proof.Machine.execTaskDone hub core place st s
  | .fbRunWrite a => Sys2Proof.Machine.execFbRunWrite a s
  | .scrubSlot node blk => Sys2Proof.Machine.execScrubSlot node blk s
  | .penUnitZeroed node blk => Sys2Proof.Machine.execPenUnitZeroed node blk s
  | .penWaitExpiry node blk src txn => Sys2Proof.Machine.execPenWaitExpiry node blk src txn s
  | .holderWaitExpiry node unit => Sys2Proof.Machine.execHolderWaitExpiry node unit s
  | .penRevoke node blk => Sys2Proof.Machine.execPenRevoke node blk s
  | .revokeNotice p => Sys2Proof.Machine.execRevokeNotice p s
  | .poolUnitsWrite a => Sys2Proof.Machine.execPoolUnitsWrite a s
  | .penCountClear a => Sys2Proof.Machine.execPenCountClear a s
  | .mveCopy q => Sys2Proof.Machine.execMveCopy q s
  | .mvePenReq q => Sys2Proof.Machine.execMvePenReq q s
  | .mvePenPut q => Sys2Proof.Machine.execMvePenPut q s
  | .mvePenRelease q => Sys2Proof.Machine.execMvePenRelease q s
  | .mveBcast q => Sys2Proof.Machine.execMveBcast q s
  | .mveFold q => Sys2Proof.Machine.execMveFold q s
  | .mveDigest q => Sys2Proof.Machine.execMveDigest q s
  | .gteSelect q => Sys2Proof.Machine.execGteSelect q s
  | .gteDispatch q => Sys2Proof.Machine.execGteDispatch q s
  | .gteCombine q => Sys2Proof.Machine.execGteCombine q s
  | .gteTally q => Sys2Proof.Machine.execGteTally q s
  | .ctlHurdle q => Sys2Proof.Machine.execCtlHurdle q s
  | .ctlWait q => Sys2Proof.Machine.execCtlWait q s
  | .ctlWaitPoll q => Sys2Proof.Machine.execCtlWaitPoll q s
  | .ctlWaitLimit q => Sys2Proof.Machine.execCtlWaitLimit q s
  | .ctlJump q => Sys2Proof.Machine.execCtlJump q s
  | .ctlCall q => Sys2Proof.Machine.execCtlCall q s
  | .ctlRet q => Sys2Proof.Machine.execCtlRet q s
  | .ctlPredicate q => Sys2Proof.Machine.execCtlPredicate q s
  | .ctlPhase q => Sys2Proof.Machine.execCtlPhase q s
  | .ctlTallyFlush q => Sys2Proof.Machine.execCtlTallyFlush q s
  | .ctlBreak q => Sys2Proof.Machine.execCtlBreak q s
  | .ctlNop q => Sys2Proof.Machine.execCtlNop q s
  | .commandComplete q => Sys2Proof.Machine.execCommandComplete q s
  | .dveStream q => Sys2Proof.Machine.execDveStream q s
  | .dveStreamLink q => Sys2Proof.Machine.execDveStreamLink q s
  | .dveExperts q => Sys2Proof.Machine.execDveExperts q s
  | .dveCommit q => Sys2Proof.Machine.execDveCommit q s
  | .dveCancel q => Sys2Proof.Machine.execDveCancel q s
  | .streamStallTimeout node seq => Sys2Proof.Machine.execStreamStallTimeout node seq s
  | .linkReadFail p => Sys2Proof.Machine.execLinkReadFail p s
  | .tallyTableFinal node => Sys2Proof.Machine.execTallyTableFinal node s
  | .jbeSubmit => Sys2Proof.Machine.execJbeSubmit s
  | .jbeAbort => Sys2Proof.Machine.execJbeAbort s
  | .jbeQuery => Sys2Proof.Machine.execJbeQuery s
  | .tallyRecord => Sys2Proof.Machine.execTallyRecord s
  | .counterClear a => Sys2Proof.Machine.execCounterClear a s
  | .memcfgWrite a => Sys2Proof.Machine.execMemcfgWrite a s
  | .mirrorWrite p => Sys2Proof.Machine.execMirrorWrite p s
  | .stackTempRead st temp => Sys2Proof.Machine.execStackTempRead st temp s
  | .stackScrubPass st => Sys2Proof.Machine.execStackScrubPass st s
  | .scrubAtRisk st done => Sys2Proof.Machine.execScrubAtRisk st done s
  | .stackFail st cause => Sys2Proof.Machine.execStackFail st cause s
  | .stackTrainFallback st ok => Sys2Proof.Machine.execStackTrainFallback st ok s
  | .linkEnable a => Sys2Proof.Machine.execLinkEnable a s
  | .linkModeWrite a => Sys2Proof.Machine.execLinkModeWrite a s
  | .reenable a => Sys2Proof.Machine.execReenable a s
  | .fullTrain a => Sys2Proof.Machine.execFullTrain a s
  | .linkWakeEvent node b cause => Sys2Proof.Machine.execLinkWakeEvent node b cause s
  | .trainingDone node b ok => Sys2Proof.Machine.execTrainingDone node b ok s
  | .alignDone node b ok => Sys2Proof.Machine.execAlignDone node b ok s
  | .exchange node b peer inc session last lanes mode => Sys2Proof.Machine.execExchange node b peer inc session last lanes mode s
  | .linkDown node b cause => Sys2Proof.Machine.execLinkDown node b cause s
  | .laneRetire node b lane => Sys2Proof.Machine.execLaneRetire node b lane s
  | .lingerExpiry node b => Sys2Proof.Machine.execLingerExpiry node b s
  | .dataFrame node b f => Sys2Proof.Machine.execDataFrame node b f s
  | .idleFrame node b f => Sys2Proof.Machine.execIdleFrame node b f s
  | .hurdleFrame node b f => Sys2Proof.Machine.execHurdleFrame node b f s
  | .paceFrame node b f => Sys2Proof.Machine.execPaceFrame node b f s
  | .timeFrame node b f => Sys2Proof.Machine.execTimeFrame node b f s
  | .downFrame node b f => Sys2Proof.Machine.execDownFrame node b f s
  | .frameNak node b f => Sys2Proof.Machine.execFrameNak node b f s
  | .ackTimeout node b => Sys2Proof.Machine.execAckTimeout node b s
  | .ethDatagram node b d good => Sys2Proof.Machine.execEthDatagram node b d good s
  | .knockSend node b => Sys2Proof.Machine.execKnockSend node b s
  | .wakeLimitExpiry node b => Sys2Proof.Machine.execWakeLimitExpiry node b s
  | .peerRequest node b cls => Sys2Proof.Machine.execPeerRequest node b cls s
  | .peerPenReq node b => Sys2Proof.Machine.execPeerPenReq node b s
  | .transitPacket node b cls => Sys2Proof.Machine.execTransitPacket node b cls s
  | .cascadeJoin tag panel => Sys2Proof.Machine.execCascadeJoin tag panel s
  | .joinExpiry tag => Sys2Proof.Machine.execJoinExpiry tag s
  | .paceReport tag => Sys2Proof.Machine.execPaceReport tag s
  | .paceApply tag => Sys2Proof.Machine.execPaceApply tag s
  | .memberLost tag panel => Sys2Proof.Machine.execMemberLost tag panel s
  | .timeExchange node b t1 t2 t3 t4 => Sys2Proof.Machine.execTimeExchange node b t1 t2 t3 t4 s
  | .flr hub => Sys2Proof.Machine.execFlr hub s
  | .perst hub => Sys2Proof.Machine.execPerst hub s
  | .bar2Access hub tag off n data => Sys2Proof.Machine.execBar2Access hub tag off n data s
  | .bar2WinWrite a => Sys2Proof.Machine.execBar2WinWrite a s
  | .hostCompletionTimeout hub tag => Sys2Proof.Machine.execHostCompletionTimeout hub tag s
  | .sqDoorbell hub tag off n data => Sys2Proof.Machine.execSqDoorbell hub tag off n data s
  | .cqDoorbell hub tag off n data => Sys2Proof.Machine.execCqDoorbell hub tag off n data s
  | .sqFetch hub => Sys2Proof.Machine.execSqFetch hub s
  | .sqDescriptor => Sys2Proof.Machine.execSqDescriptor s
  | .cqEntryWrite hub q => Sys2Proof.Machine.execCqEntryWrite hub q s
  | .sqCfgWrite a => Sys2Proof.Machine.execSqCfgWrite a s
  | .hostcfgWrite a => Sys2Proof.Machine.execHostcfgWrite a s
  | .guestPacket hub p since => Sys2Proof.Machine.execGuestPacket hub p since s
  | .guestLinkDown hub => Sys2Proof.Machine.execGuestLinkDown hub s
  | .guestDoorbell hub => Sys2Proof.Machine.execGuestDoorbell hub s
  | .guestInterrupt hub o => Sys2Proof.Machine.execGuestInterrupt hub o s
  | .registerWrite a => Sys2Proof.Machine.execRegisterWrite a s
  | .unitEnable a => Sys2Proof.Machine.execUnitEnable a s
  | .resetReq a => Sys2Proof.Machine.execResetReq a s
  | .quiesce a => Sys2Proof.Machine.execQuiesce a s
  | .drainComplete node page => Sys2Proof.Machine.execDrainComplete node page s
  | .selfTestDone node page ok => Sys2Proof.Machine.execSelfTestDone node page ok s
  | .errInject a => Sys2Proof.Machine.execErrInject a s
  | .lock a => Sys2Proof.Machine.execLock a s
  | .assistPost own => Sys2Proof.Machine.execAssistPost own s
  | .assistReply a => Sys2Proof.Machine.execAssistReply a s
  | .assistDeadline x => Sys2Proof.Machine.execAssistDeadline x s
  | .mctpRegRead payload waiting => Sys2Proof.Machine.execMctpRegRead payload waiting s
  | .mctpRegWrite payload waiting => Sys2Proof.Machine.execMctpRegWrite payload waiting s
  | .getState payload waiting => Sys2Proof.Machine.execGetState payload waiting s
  | .setBudget payload waiting => Sys2Proof.Machine.execSetBudget payload waiting s
  | .getEnergy payload waiting => Sys2Proof.Machine.execGetEnergy payload waiting s
  | .logRead payload waiting => Sys2Proof.Machine.execLogRead payload waiting s
  | .mctpAssistReply payload waiting => Sys2Proof.Machine.execMctpAssistReply payload waiting s
  | .mctpControl inst cmd payload => Sys2Proof.Machine.execMctpControl inst cmd payload s
  | .pldmRequest inst typ cmd payload => Sys2Proof.Machine.execPldmRequest inst typ cmd payload s
  | .platformEvent sensor => Sys2Proof.Machine.execPlatformEvent sensor s
  | .dynamicAddress addr => Sys2Proof.Machine.execDynamicAddress addr s
  | .refclkLoss both => Sys2Proof.Machine.execRefclkLoss both s
  | .freqChangeStart node => Sys2Proof.Machine.execFreqChangeStart node s
  | .pllLock node => Sys2Proof.Machine.execPllLock node s
  | .pllLockFail node fabric => Sys2Proof.Machine.execPllLockFail node fabric s
  | .targetRecompute node power current => Sys2Proof.Machine.execTargetRecompute node power current s
  | .droopCrossing node => Sys2Proof.Machine.execDroopCrossing node s
  | .droopRecovery node => Sys2Proof.Machine.execDroopRecovery node s
  | .beaconSend => Sys2Proof.Machine.execBeaconSend s
  | .beaconReceive node err => Sys2Proof.Machine.execBeaconReceive node err s
  | .timeStep count => Sys2Proof.Machine.execTimeStep count s
  | .ppsEdge t => Sys2Proof.Machine.execPpsEdge t s
  | .timRateWrite a => Sys2Proof.Machine.execTimRateWrite a s
  | .railFault node panel => Sys2Proof.Machine.execRailFault node panel s
  | .vinCoreLoss n vaonLost => Sys2Proof.Machine.execVinCoreLoss n vaonLost s
  | .contactMeasure node r => Sys2Proof.Machine.execContactMeasure node r s
  | .efficiencyLoop node stalls cycles => Sys2Proof.Machine.execEfficiencyLoop node stalls cycles s
  | .budgetLoop panel fixed => Sys2Proof.Machine.execBudgetLoop panel fixed s
  | .budgetGuard panel => Sys2Proof.Machine.execBudgetGuard panel s
  | .shareWrite a => Sys2Proof.Machine.execShareWrite a s
  | .budgetWrite a => Sys2Proof.Machine.execBudgetWrite a s
  | .throttleAssert => Sys2Proof.Machine.execThrottleAssert s
  | .throttleRelease => Sys2Proof.Machine.execThrottleRelease s
  | .thermalSample node s0 s1 s2 s3 => Sys2Proof.Machine.execThermalSample node s0 s1 s2 s3 s
  | .regionThermalRestart node => Sys2Proof.Machine.execRegionThermalRestart node s
  | .panelStop cause => Sys2Proof.Machine.execPanelStop cause s
  | .airflowLoss => Sys2Proof.Machine.execAirflowLoss s
  | .panelResume => Sys2Proof.Machine.execPanelResume s
  | .forecast hot p => Sys2Proof.Machine.execForecast hot p s
  | .fcHostWrite a => Sys2Proof.Machine.execFcHostWrite a s
  | .energyInterval node uj parts => Sys2Proof.Machine.execEnergyInterval node uj parts s
  | .regionIdleEntry node => Sys2Proof.Machine.execRegionIdleEntry node s
  | .regionIdleExit node => Sys2Proof.Machine.execRegionIdleExit node s
  | .napEntry node abort => Sys2Proof.Machine.execNapEntry node abort s
  | .napExit node => Sys2Proof.Machine.execNapExit node s
  | .standbyReq a abort => Sys2Proof.Machine.execStandbyReq a abort s
  | .panelWake => Sys2Proof.Machine.execPanelWake s
  | .wakeN => Sys2Proof.Machine.execWakeN s
  | .wakeTimer => Sys2Proof.Machine.execWakeTimer s
  | .probeFinding node => Sys2Proof.Machine.execProbeFinding node s
  | .probeAttempt node sideband answers => Sys2Proof.Machine.execProbeAttempt node sideband answers s
  | .loopbackTest node transit => Sys2Proof.Machine.execLoopbackTest node transit s
  | .regionRetire node => Sys2Proof.Machine.execRegionRetire node s
  | .sparePowered node => Sys2Proof.Machine.execSparePowered node s
  | .spareKatDone node pass => Sys2Proof.Machine.execSpareKatDone node pass s
  | .unitReset node stack => Sys2Proof.Machine.execUnitReset node stack s
  | .heartbeat hub fabric sideband => Sys2Proof.Machine.execHeartbeat hub fabric sideband s
  | .heartbeatLoss hub => Sys2Proof.Machine.execHeartbeatLoss hub s
  | .handoverMaster => Sys2Proof.Machine.execHandoverMaster s
  | .beaconAbsent => Sys2Proof.Machine.execBeaconAbsent s
  | .logReport => Sys2Proof.Machine.execLogReport s
  | .logSpill ok => Sys2Proof.Machine.execLogSpill ok s
  | .logScrub bad corrected => Sys2Proof.Machine.execLogScrub bad corrected s
  | .logHringHead a => Sys2Proof.Machine.execLogHringHead a s
  | .panelResetRelease b => Sys2Proof.Machine.execPanelResetRelease b s
  | .panelResetAssert => Sys2Proof.Machine.execPanelResetAssert s
  | .pwrEnDeassert => Sys2Proof.Machine.execPwrEnDeassert s
  | .computeReset a => Sys2Proof.Machine.execComputeReset a s
  | .panelReset a => Sys2Proof.Machine.execPanelReset a s
  | .update a => Sys2Proof.Machine.execUpdate a s
  | .forceFullWrite a => Sys2Proof.Machine.execForceFullWrite a s
  | .resume a => Sys2Proof.Machine.execResume a s
  | .step a => Sys2Proof.Machine.execStep a s
  | .freeze a => Sys2Proof.Machine.execFreeze a s
  | .thaw a => Sys2Proof.Machine.execThaw a s
  | .debugModeWrite a => Sys2Proof.Machine.execDebugModeWrite a s
  | .dbgAccGo a => Sys2Proof.Machine.execDbgAccGo a s
  | .rebase a r => Sys2Proof.Machine.execRebase a r s
  | .railFrame step next => Sys2Proof.Machine.execRailFrame step next s
  | .ctlWaitTimePassed q => Sys2Proof.Machine.execCtlWaitTimePassed q s
  | .holdupCharged => Sys2Proof.Machine.execHoldupCharged s
  | .vaonPresent => Sys2Proof.Machine.execVaonPresent s
  | .perstRelease hub => Sys2Proof.Machine.execPerstRelease hub s
  | .sxInstruction node blk => Sys2Proof.Machine.execSxInstruction node blk s

end Sys2Proof.Machine
end

