-- ==== Sys2Proof/Safety.lean ====
section
/-!
DEFINITION. What counts as a safe run, and the words the statements use: memory in its canonical form, bytes that read the same, a thread that issues
an instruction, what an instruction's lanes hold.
-/
namespace Sys2Proof.Machine

/-- Every byte of storage reads in `t` as it reads in `s`. -/
def SameBytes (s t : State) : Prop := ∀ a, t.mem.byte a = s.mem.byte a

/-- Every byte of storage outside [lo, lo+n) reads in `t` as it reads in `s`. -/
def SameBytesBut (lo n : Nat) (s t : State) : Prop := ∀ a, a < lo ∨ lo + n ≤ a → t.mem.byte a = s.mem.byte a

/-- Every register but the one under a key is in `t` as in `s`. -/
def SameRegsBut (k : Nat) (s t : State) : Prop := ∀ j, j ≠ k → Sparse.find? t.regs j = Sparse.find? s.regs j

/-- Nothing moves on its own: no router holds a packet, no command waits for its turn, no block holds weights. -/
structure State.quiet (s : State) : Prop where
  routers : ∀ e ∈ s.routers, e.2.inputs = [] ∧ e.2.reservoir = []
  turns : ∀ q c, (s.queue q).cur = some c → c.wait ≠ .turn
  weights : ∀ e ∈ s.blocks, e.2.west.feeds = [] ∧ e.2.east.feeds = []

/-- What every command keeps: memory in its canonical form, the queue it was taken from, and no free value drawn twice. -/
structure Intact (s t : State) : Prop where
  queue : t.pending = s.pending
  memory : s.mem.wf = true → t.mem.wf = true
  draws : s.freeCount ≤ t.freeCount

/-- A thread issues an instruction of an opcode (R152, R159): it is ready, its block runs, the word is legal and names registers it has. -/
structure Issues (s : State) (t : ThreadRef) (op : Nat) (c : VCtx) : Prop where
  cell : t.cell < 14
  entry : t.entry < 256
  ready : s.vecCtx t = some c
  opcode : c.i.op = op
  legal : c.i.illegal = false
  held : ∀ r ∈ c.i.vregs, r < c.l.regs

/-- Lane `i` of a vector register of the thread. -/
def VCtx.lane (c : VCtx) (r i : Nat) : Nat := (c.th.vec r).getD i 0

/-- A row that writes one vector register: its opcode, what it gives lane `i` (R160), the lanes it writes, and whether an operand is poisoned. -/
structure LaneRow where
  row : ThreadRef → Instr
  op : Nat
  lane : State → VCtx → Nat → Nat
  mask : VCtx → Nat := VCtx.mask
  bad : State → VCtx → Bool

/-- An operation of two vector registers. -/
def twoVec (row : ThreadRef → Instr) (op : Nat) (f : Nat → Nat → Nat → Nat) : LaneRow :=
  { row := row, op := op, lane := fun _ c i => f c.i.fn (c.lane c.i.a i) (c.lane c.i.b i),
    bad := fun _ c => c.badVec c.i.a || c.badVec c.i.b || c.maskBad }

/-- The rows that write one vector register and nothing else (R160-R164). -/
def laneRows : List LaneRow :=
  [ twoVec .vadd 0x00 fun fn a b => match fn with
      | 0 => add32 a b | 1 => halves addBf a b | _ => (a + b) % 2 ^ 32,
    twoVec .vsub 0x01 fun fn a b => match fn with
      | 0 => sub32 a b | 1 => halves subBf a b | _ => (a + 2 ^ 32 - b) % 2 ^ 32,
    twoVec .vmul 0x02 fun fn a b => match fn with
      | 0 => mul32 a b | 1 => halves mulBf a b | _ => a * b % 2 ^ 32,
    twoVec .vmin 0x04 fun fn a b => match fn with
      | 0 => minMax f32 false a b | 1 => halves (minMax bf16 false) a b | 2 => if sext 32 a ≤ sext 32 b then a else b | _ => min a b,
    twoVec .vmax 0x05 fun fn a b => match fn with
      | 0 => minMax f32 true a b | 1 => halves (minMax bf16 true) a b | 2 => if sext 32 a ≤ sext 32 b then b else a | _ => max a b,
    twoVec .vand 0x08 fun _ a b => Nat.land a b,
    twoVec .vor 0x09 fun _ a b => Nat.lor a b,
    twoVec .vxor 0x0A fun _ a b => Nat.xor a b,
    twoVec .vsh 0x0B fun fn a b => match fn with
      | 0 => a * 2 ^ (b % 32) % 2 ^ 32 | 1 => a / 2 ^ (b % 32) | _ => wrapInt 32 (sext 32 a / (2 ^ (b % 32) : Nat)),
    { row := .vfma, op := 0x03,
      lane := fun _ c i => (if c.i.fn = 0 then fma32 else fmaBf2) (c.lane c.i.a i) (c.lane c.i.b i) (c.lane c.i.d i),
      bad := fun _ c => c.badVec c.i.a || c.badVec c.i.b || c.badVec c.i.d || c.maskBad },
    { row := .vrcp, op := 0x06, lane := fun _ c i => rcp32 (c.lane c.i.a i), bad := fun _ c => c.badVec c.i.a || c.maskBad },
    { row := .vrsq, op := 0x07, lane := fun _ c i => rsq32 (c.lane c.i.a i), bad := fun _ c => c.badVec c.i.a || c.maskBad },
    { row := .vsel, op := 0x0E, lane := fun _ c i => if bit c.mask i then c.lane c.i.a i else c.lane c.i.b i, mask := fun _ => 0xFFFFFFFF,
      bad := fun _ c => c.badVec c.i.a || c.badVec c.i.b || c.maskBad },
    { row := .vperm, op := 0x0F, lane := fun _ c i => c.lane c.i.a (c.lane c.i.b i % 32),
      bad := fun _ c => c.badVec c.i.a || c.badVec c.i.b || c.maskBad },
    { row := .vcvt, op := 0x10, lane := fun _ c i => laneCvt c.i.fn (c.lane c.i.a i) (c.lane c.i.b i),
      bad := fun _ c => c.badVec c.i.a || ((c.i.fn == 0 || c.i.fn == 3) && c.badVec c.i.b) || c.maskBad },
    { row := .vcrv, op := 0x13,
      lane := fun s c i => match Sparse.find? (s.block c.t.node c.t.blk).curves c.i.b with | some tab => curve tab (c.lane c.i.a i) | none => 0,
      bad := fun s c => c.badVec c.i.a || (s.block c.t.node c.t.blk).badCurves.contains c.i.b || c.maskBad },
    { row := .vscan, op := 0x15, lane := fun _ c i => (scan c.i.fn c.mask (c.th.vec c.i.a)).getD i 0,
      bad := fun _ c => c.badVec c.i.a || c.maskBad },
    { row := .vbcs, op := 0x17, lane := fun _ c _ => c.th.scalar c.i.a % 2 ^ 32, bad := fun _ c => c.badScalar c.i.a || c.maskBad },
    { row := .vidx, op := 0x1B,
      lane := fun _ c i => ((match c.i.fn with | 0 => 0 | 1 => 32 * c.th.index | _ => 32 * c.th.group) + i) % 2 ^ 32,
      bad := fun _ c => c.maskBad },
    { row := .vbci, op := 0x25, lane := fun _ c _ => wrapInt 32 c.i.imm, mask := fun _ => 0xFFFFFFFF, bad := fun _ _ => false },
    { row := .vaddi, op := 0x26, lane := fun _ c i => wrapInt 32 ((c.lane c.i.a i : Int) + c.i.imm), mask := fun _ => 0xFFFFFFFF,
      bad := fun _ c => c.badVec c.i.a } ]

/-- A row that writes one scalar register: its value (R160-R163), and whether an operand is poisoned. -/
structure ScalarRow where
  row : ThreadRef → Instr
  op : Nat
  value : State → VCtx → Nat
  bad : VCtx → Bool

/-- The rows that write one scalar register and nothing else, with a value the spec gives (R160). -/
def scalarRows : List ScalarRow :=
  [ { row := .smovv, op := 0x1D, value := fun _ c => c.lane c.i.a c.i.b, bad := fun c => c.badVec c.i.a },
    { row := .saddi, op := 0x20, value := fun _ c => wrapInt 64 ((c.th.scalar c.i.a : Int) + c.i.imm), bad := fun c => c.badScalar c.i.a },
    { row := .sandi, op := 0x21, value := fun _ c => Nat.land (c.th.scalar c.i.a) (wrapInt 64 c.i.imm), bad := fun c => c.badScalar c.i.a },
    { row := .sori, op := 0x22, value := fun _ c => Nat.lor (c.th.scalar c.i.a) (wrapInt 64 c.i.imm), bad := fun c => c.badScalar c.i.a },
    { row := .sshi, op := 0x23,
      value := fun _ c => if bit (wrapInt 12 c.i.imm) 6 then c.th.scalar c.i.a / 2 ^ (wrapInt 12 c.i.imm % 64)
        else c.th.scalar c.i.a * 2 ^ (wrapInt 12 c.i.imm % 64), bad := fun c => c.badScalar c.i.a },
    { row := .sshin, op := 0x24, value := fun _ c => c.th.scalar c.i.a * 4096 + wrapInt 12 c.i.imm, bad := fun c => c.badScalar c.i.a },
    { row := .vzbm, op := 0x16,
      value := fun _ c => if c.i.fn = 7 then ofBits ((List.range 32).filter fun i => bit c.mask i && c.lane c.i.a i % 2 ^ 31 == 0)
        else zeroBits c.i.fn (Sparse.get 0 c.th.v c.i.a).toNat,
      bad := fun c => c.badVec c.i.a || (c.i.fn == 7 && c.maskBad) } ]

/-- A row that writes one predicate: its bits (R160), and whether an operand is poisoned. -/
structure MaskRow where
  row : ThreadRef → Instr
  op : Nat
  on : VCtx → Nat → Bool
  bad : VCtx → Bool

/-- The rows that write one predicate and nothing else (R160). -/
def maskRows : List MaskRow :=
  [ { row := .vcmpf, op := 0x0C, on := fun c i => cmpF c.i.fn (c.lane c.i.a i) (c.lane c.i.b i),
      bad := fun c => c.badVec c.i.a || c.badVec c.i.b || c.maskBad },
    { row := .vcmpi, op := 0x0D,
      on := fun c i => match c.i.fn with
        | 0 => c.lane c.i.a i == c.lane c.i.b i
        | 1 => c.lane c.i.a i != c.lane c.i.b i
        | 2 => decide (sext 32 (c.lane c.i.a i) < sext 32 (c.lane c.i.b i))
        | 3 => decide (sext 32 (c.lane c.i.a i) ≤ sext 32 (c.lane c.i.b i))
        | 4 => decide (c.lane c.i.a i < c.lane c.i.b i)
        | _ => decide (c.lane c.i.a i ≤ c.lane c.i.b i),
      bad := fun c => c.badVec c.i.a || c.badVec c.i.b || c.maskBad },
    { row := .plog, op := 0x1A,
      on := fun c i =>
        let x := bit (c.th.p.getD c.i.a 0) i
        let y := bit (c.th.p.getD c.i.b 0) i
        match c.i.fn with
        | 0 => x && y | 1 => x || y | 2 => x != y | 3 => x && !y | 4 => !x | 5 => true | _ => false,
      bad := fun c => (decide (c.i.fn < 5) && c.th.badP.contains c.i.a) || (decide (c.i.fn < 4) && c.th.badP.contains c.i.b) || c.maskBad } ]

/-- A branch: when its condition is poisoned, when it is taken (R160). -/
structure BranchRow where
  row : ThreadRef → Instr
  op : Nat
  bad : VCtx → Bool
  take : VCtx → Bool

/-- The branches (R160). -/
def branchRows : List BranchRow :=
  let x := fun (c : VCtx) => c.th.scalar c.i.d
  let y := fun (c : VCtx) => c.th.scalar c.i.a
  let bad := fun (c : VCtx) => c.badScalar c.i.d || c.badScalar c.i.a
  [ ⟨.bra, 0x34, fun _ => false, fun _ => true⟩,
    ⟨.beq, 0x35, bad, fun c => x c == y c⟩,
    ⟨.bne, 0x36, bad, fun c => x c != y c⟩,
    ⟨.blt, 0x37, bad, fun c => decide (sext 64 (x c) < sext 64 (y c))⟩,
    ⟨.bge, 0x38, bad, fun c => decide (sext 64 (y c) ≤ sext 64 (x c))⟩,
    ⟨.bpany, 0x39, fun c => c.th.badP.contains c.i.d, fun c => c.th.p.getD c.i.d 0 != 0⟩,
    ⟨.bpall, 0x3A, fun c => c.th.badP.contains c.i.d, fun c => c.th.p.getD c.i.d 0 == 0xFFFFFFFF⟩ ]

/-- The rest of a thread is as it was: everything but its registers and where it stands. -/
structure SameThread (a b : Thread) : Prop where
  launch : b.launch = a.launch
  group : b.group = a.group
  index : b.index = a.index
  park : b.park = a.park
  writes : b.writes = a.writes
  arrivals : b.arrivals = a.arrivals
  waits : b.waits = a.waits

/-- A packet comes whole at its destination and is for this node (R60, R66, R72, R348): no older packet of its flow is still to be dealt with and no router
still holds it, its sender is not fenced off, its header and end-to-end checks are good, its epoch is not stale, and it is not on its way to a peer. -/
structure Lands (s : State) (p : Packet) : Prop where
  dest : p.dest < 182
  due : s.ahead p = false
  heard : (s.router p.dest).fenced ≠ some p.src
  header : p.hdrOk = true
  fresh : (s.take p).stale p.dest p = false
  whole : p.e2eOk = true
  here : (s.take p).towardsPeer p = none

/-- The request of its node that a reply answers: the one under its SRC_UNIT and transaction (R53, R70). -/
def Request.answeredBy (p : Packet) (r : Request) : Bool := r.node == p.dest && r.unit == p.srcUnit && r.txn == p.txn
def State.asked (s : State) (p : Packet) : Option Request := s.outstanding.find? (Request.answeredBy p)

/-- The reply is taken, and the request it answers leaves the outstanding table. -/
def State.answered (s : State) (p : Packet) : State := { s.take p with outstanding := s.outstanding.eraseP (Request.answeredBy p) }

/-- A thread of a block. -/
def State.threadAt (s : State) (t : ThreadRef) : Option Thread := Sparse.find? (s.block t.node t.blk).threads t.key

/-- The head of a queue starts (R217-R222, R227, R540): the walk stands at `a` in a list of job `tag`, the unit runs and forwards commands, the line
there is fetched clean and is the descriptor `d` of an opcode of `ops`, no breakpoint matches, the engine has room and no higher queue is ready; the wait, the
predicate and the checks pass, in `u`. -/
structure Starts (s : State) (q : QueueRef) (ops : List Nat) (ok : State → Nat → Bool) (a tag d : Nat) (u : State) : Prop where
  queue : q.ok = true
  walk : (s.queue q).walk = some a
  job : (s.queue q).tag = some tag
  free : (s.queue q).cur = none
  runs : s.unitRuns q = true
  forwards : s.forwards q = true
  clean : (s.fetchDesc q a).1 = .done
  desc : (s.fetchDesc q a).2.1 = d
  opcode : ops.contains (dOpcode d) = true
  unbroken : s.breakpoint q a tag = none
  taken : s.takes q (dOpcode d) = true
  passes : (((s.fetchDesc q a).2.2.takeCur q a d).event (q.site (some tag)) 0 0x01 a (dOpcode d) 0 q.eng q.queue).pass q d = .goes u
  common : commonOk q.eng tag d = true
  own : ok u d = true

/-- The command in flight of a queue is complete but for its record: its status, and where the walk goes on (R220, R235). -/
def State.ended (s : State) (q : QueueRef) (st : Status) (after : Option Nat) : Prop :=
  ∃ c, (s.queue q).cur = some c ∧ c.status = some st ∧ c.after = after

/-- The start of a command is recorded in the event ring (R537). -/
def State.began (u : State) (q : QueueRef) (tag a d : Nat) : State := u.event (q.site (some tag)) 0 0x02 a (dOpcode d) 0 q.eng q.queue

/-- A row that starts the command at the head of a queue: its opcode, its own checks of R227, and its work (R217-R228). -/
structure HeadRow where
  row : QueueRef → Instr
  op : Nat
  own : QueueRef → State → Nat → Bool := fun _ _ _ => true
  work : State → QueueRef → Nat → State

/-- The commands of R224-R226 that start by R222 alone; `ups` are the upsets a matrix command meets. -/
def headRows (ups : List Upset) : List HeadRow :=
  [ { row := .mxeBindHeft, op := 0x10, own := fun q s d => s.bindOk q d, work := State.runBind },
    { row := fun q => .mxeGemm q ups, op := 0x11, own := fun _ _ d => gemmOk d, work := fun s q d => s.startMatrix q d ups },
    { row := fun q => .mxeGemmT q ups, op := 0x12, own := fun _ _ d => gemmOk d, work := fun s q d => s.startMatrix q d ups },
    { row := fun q => .mxeLocal q ups, op := 0x13,
      own := fun _ _ d => pairOk (gA d) (gW d) && gW d != 6 && gW d != 7 && gKTiles d != 0 && psClear d && decide (0 < bits d 224 6)
        && decide (bits d 224 6 ≤ 32), work := fun s q d => s.startMatrix q d ups },
    { row := .mxeCodebook, op := 0x14, work := State.runCodebook },
    { row := .mxeDrain, op := 0x15, own := fun _ _ d => psClear d, work := fun s q d => (s.drain q (gSlots d) (gPs d)).endCmd q .done },
    { row := .vxeLaunch, op := 0x20, own := fun q s d => s.launchOk q (dChecked d) d, work := fun s q d => s.runLaunch q (dChecked d) d },
    { row := .vxeLaunchChecked, op := 0x21, own := fun q s d => s.launchOk q true d, work := fun s q d => s.runLaunch q true d },
    { row := .mveCopy, op := 0x30, own := fun _ _ d => bits d 224 24 != 0 && bits d 248 16 != 0, work := State.runCopy },
    { row := .mvePenReq, op := 0x31, own := fun q s d => bits d 176 9 != 0 && bits d 185 2 != 3 && !s.handleBusy q.node q.blk (bits d 192 6),
      work := State.runPenReq },
    { row := .mvePenPut, op := 0x32, own := fun q s d => s.handlesHeld q [bits d 128 6],
      work := fun s q d => s.runPut q [bits d 128 6] (bits d 160 48) (bits d 208 24) (bits d 232 24) },
    { row := .mvePenRelease, op := 0x33, own := fun q s d => s.handlesHeld q [bits d 128 6], work := State.runPenRelease },
    { row := .mveBcast, op := 0x34,
      own := fun q s d => (bcastHandles d).all (· < 64) && bits d 136 12 / 2 ^ s.lcols == 0 && s.handlesHeld q (bcastHandles d),
      work := fun s q d => s.runPut q (bcastHandles d) (bits d 160 48) (bits d 208 24) (bits d 232 24) },
    { row := .mveFold, op := 0x35, own := fun _ s d => s.foldOk d, work := fun s q d => s.runFold q d },
    { row := .mveDigest, op := 0x36, own := fun _ _ d => bits d 176 32 != 0 && bits d 224 48 % 8 == 0, work := State.runDigest },
    { row := .gteSelect, op := 0x40,
      own := fun _ _ d => decide (0 < bits d 150 4) && decide (bits d 150 4 ≤ 8) && decide (bits d 150 4 ≤ bits d 140 10 + 1),
      work := fun s q d => s.runSelect q d },
    { row := .gteDispatch, op := 0x41, own := fun q s d => decide (bits d 140 6 ≤ 52) && s.handlesHeld q (dispatchHandles d),
      work := fun s q d => if (s.dispatchReady q d).isSome && s.hostDuty q.node (pageOf .gtu q.node q.blk) 3 then s.askDispatch q d else s.dispatch q d false },
    { row := .gteCombine, op := 0x42,
      own := fun q s d => match s.heftIn q.node q.blk (dTag d) (bits d 128 12) with | some h => h.format == bits d 216 4 | none => true,
      work := fun s q d => s.runCombine q d },
    { row := .gteTally, op := 0x43, own := fun _ _ d => hurdleScope (dSignal d) == 5 || hurdleScope (dSignal d) == 6, work := fun s q d => s.runTally q d },
    { row := .ctlWait, op := 0x51, own := fun q s d => s.waitOk q d, work := State.runWait },
    { row := .ctlJump, op := 0x52, own := fun _ _ d => bits d 128 48 % 64 == 0, work := fun s q d => s.goto q d (bits d 128 48) },
    { row := .ctlCall, op := 0x53, own := fun q s d => bits d 128 48 % 64 == 0 && decide ((s.queue q).calls.length < 8), work := State.runCall },
    { row := .ctlRet, op := 0x54, own := fun q s _ => !(s.queue q).calls.isEmpty, work := State.runRet },
    { row := .ctlPredicate, op := 0x55, own := fun _ _ d => decide (6 ≤ bits d 132 3) || bits d 144 48 % 8 == 0, work := State.runPredicate },
    { row := .ctlPhase, op := 0x56, work := State.runPhase },
    { row := .ctlTallyFlush, op := 0x57, work := fun s q _ => s.runFlush q },
    { row := .ctlNop, op := 0x59, work := fun s q _ => s.endCmd q .done },
    { row := .dveStream, op := 0x60, own := fun _ s d => bits d 176 16 != 0 && weightFmt (bits d 192 4) && s.membersOk (bits d 200 12), work := State.runStream },
    { row := .dveStreamLink, op := 0x61,
      own := fun _ s d => bits d 192 16 != 0 && weightFmt (bits d 208 4) && s.membersOk (bits d 212 12) && bits d 140 3 != 5 && bits d 140 3 != 6,
      work := State.runStreamLink },
    { row := .dveCommit, op := 0x63, work := State.runCommit },
    { row := .dveCancel, op := 0x64, work := State.runCancel } ]

/-- A register write is granted (R387, R410-R414): its path answers, a guest that writes is present, its page is served, the access is whole and aligned, it names
a register, and no field's check refuses it. `w` is the write as it acts. -/
structure Grants (s : State) (a : RegAccess) (w : RegWr) : Prop where
  path : s.pathSilent a = false
  guest : a.o = .G → s.guestShut a.node = false
  served : s.pageAnswer (some a.o) a.node a.page = .serves
  booted : a.o = .H → 4 < s.fld F.hubBoot_step 180
  origin : a.o ≠ .P ∧ (a.o = .G → (pageKind a.node a.page).map (·.1) = some .mailbox)
  page : (pageKind a.node a.page).isSome
  width : a.n = 4 ∨ a.n = 8
  aligned : a.off % a.n = 0
  names : ∃ r b i, namedAt a.node a.page (a.off / 8 * 8) = .reg r b i ∧ w = s.settle
    ⟨a.node, a.page, a.o, r, b, i, (s.word r a.node b i).toNat, a.v % 2 ^ (8 * a.n) * 2 ^ (8 * (a.off % 8)), (2 ^ (8 * a.n) - 1) * 2 ^ (8 * (a.off % 8))⟩
  allowed : s.writeRefusal w = none

/-- A granted write that reaches one of the fields a row names (R411). -/
structure Takes (s : State) (a : RegAccess) (w : RegWr) (fs : List Field) : Prop where
  grants : Grants s a w
  reaches : a.touches fs = true

/-- The write asks for something: it puts a number other than 0 into a field. -/
def RegWr.asks (w : RegWr) (f : Field) : Prop := bits w.raw f.lo f.width ≠ 0

/-- The write changes a field. -/
def RegWr.changes (w : RegWr) (f : Field) : Prop := bits w.new f.lo f.width ≠ bits w.old f.lo f.width

end Sys2Proof.Machine
end

