-- ==== Sys2Proof/Certificates/Slice0/Obligations.lean ====
section
/-!
DEFINITION. The statements for the provers.
-/
open Sys2Proof Sys2Proof.Machine

/-! ## The queue and time -/

/-- A step runs the command at the front of the queue with the queue's rest. -/
def Obligations.StepRunsTheFrontCommand : Prop :=
  ∀ (s : State) (c : Instr) (rest : List Instr), s.pending = c :: rest → step s = exec c { s with pending := rest }

/-- With no command waiting a step lets a fabric cycle pass (the model's choice, log entries 18 and 110). While no router holds a packet and nothing waits for
its turn, panel time (64 bits) rises and storage, the queues, the packets in flight, the blocks and the registers stay as they are. -/
def Obligations.IdleStepPassesTime : Prop :=
  (∀ s : State, s.pending = [] → step s = .next s.tick) ∧
  ∀ s : State, s.quiet → (s.now + 3 < 2 ^ 64 → s.now < s.tick.now) ∧ s.tick.fabricTime = s.fabricTime + 2 ∧ SameBytes s s.tick ∧ s.tick.pending = s.pending ∧
    s.tick.fabric = s.fabric ∧ s.tick.blocks = s.blocks ∧ s.tick.queues = s.queues ∧ s.tick.regs = s.regs

/-! ## Vector threads -/

/-- COMPLETES: VADD, VSUB, VMUL, VFMA, VMIN, VMAX, VRCP, VRSQ, VAND, VOR, VXOR, VSH, VSEL, VPERM, VCVT, VCRV, VSCAN, VBCS, VIDX, VBCI, VADDI. The rows that write one vector register: the active lanes hold the row's result, the others and every other register keep their values, the mark of
R167 follows the operands, and the thread goes on to the next instruction (R160-R161, R167). -/
def Obligations.VectorRegisterRows : Prop :=
  ∀ r ∈ laneRows, ∀ (s : State) (t : ThreadRef) (c : VCtx), Issues s t r.op c → (r.op = 0x0B → c.badVec c.i.b = false) →
    ∃ th, exec (r.row t) s = .next (s.setThread t th) ∧ SameThread c.th th ∧ th.pc = (c.th.pc + 1) % 4096 ∧
      (∀ i, i < 32 → (th.vec c.i.d).getD i 0 = if bit (r.mask c) i then r.lane s c i % 2 ^ 32 else c.lane c.i.d i) ∧
      (∀ q, q ≠ c.i.d → th.vec q = c.th.vec q ∧ th.badV.contains q = c.badVec q) ∧
      th.badV.contains c.i.d = (r.bad s c || (c.badVec c.i.d && r.mask c != 0xFFFFFFFF)) ∧
      th.s = c.th.s ∧ th.p = c.th.p ∧ th.badS = c.th.badS ∧ th.badP = c.th.badP

/-- COMPLETES: SMOVV, SADDI, SANDI, SORI, SSHI, SSHIN, VZBM, VCMPF, VCMPI, PLOG. The rows that write one scalar register (R160-R161).
The rows that write one predicate: the active bits hold the row's result, the others keep theirs (R160-R161). -/
def Obligations.ScalarAndPredicateRows : Prop :=
  (∀ r ∈ scalarRows, ∀ (s : State) (t : ThreadRef) (c : VCtx), Issues s t r.op c →
    ∃ th, exec (r.row t) s = .next (s.setThread t th) ∧ SameThread c.th th ∧ th.pc = (c.th.pc + 1) % 4096 ∧
      th.s = setAt c.th.s c.i.d (BitVec.ofNat 64 (r.value s c)) ∧ th.badS.contains c.i.d = r.bad c ∧
      (∀ q, q ≠ c.i.d → th.badS.contains q = c.badScalar q) ∧
      th.v = c.th.v ∧ th.p = c.th.p ∧ th.badV = c.th.badV ∧ th.badP = c.th.badP) ∧
  (∀ r ∈ maskRows, ∀ (s : State) (t : ThreadRef) (c : VCtx), Issues s t r.op c →
    ∃ th, exec (r.row t) s = .next (s.setThread t th) ∧ SameThread c.th th ∧ th.pc = (c.th.pc + 1) % 4096 ∧
      (∀ q, q ≠ c.i.d → th.p.getD q 0 = c.th.p.getD q 0) ∧
      (c.i.d < c.th.p.length → ∀ i, i < 32 → bit (th.p.getD c.i.d 0) i = if bit c.mask i then r.on c i else bit (c.th.p.getD c.i.d 0) i) ∧
      th.badP.contains c.i.d = (r.bad c || (c.th.badP.contains c.i.d && c.mask != 0xFFFFFFFF)) ∧
      th.v = c.th.v ∧ th.s = c.th.s ∧ th.badV = c.th.badV ∧ th.badS = c.th.badS)

/-- COMPLETES: VRED, SOP, SRD, VQNT, VDQNT. VRED writes the reduction by the fixed tree of R162 into the low half of its scalar register; the high half is a free value of the operands (log entries 2
and 118). SOP writes its result modulo 2^64; SHL and SHR by 64 or more leave a free value, and a poisoned count ends the launch POISONED. SRD reads panel time,
the job tag, the logical region or the block; the cycle count is a free value.
VQNT writes the quantised block of R111-R115 and its sticky bits; VDQNT writes the block's values, for T5 those of elements 32 to 39 into the next
register's lanes 0 to 7, whose other lanes are free values of the block (log entries 2 and 118); under a mask every lane counts towards VQNT's scale (the
model's choice, log entry 120). -/
def Obligations.ScalarAndQuantisationRowsWithFreeValues : Prop :=
  ((∀ (s : State) (t : ThreadRef) (c : VCtx), Issues s t 0x14 c →
    ∃ th, exec (.vred t) s = .next (s.setThread t th) ∧ SameThread c.th th ∧ th.pc = (c.th.pc + 1) % 4096 ∧
      (c.i.d < c.th.s.length → th.scalar c.i.d % 2 ^ 32 = reduce c.i.fn c.mask (c.th.vec c.i.a) % 2 ^ 32) ∧
      (∀ q, q ≠ c.i.d → th.scalar q = c.th.scalar q) ∧ th.v = c.th.v ∧ th.p = c.th.p) ∧
  (∀ (s : State) (t : ThreadRef) (c : VCtx), Issues s t 0x1C c → (6 ≤ c.i.fn → c.badScalar c.i.b = false ∧ c.th.scalar c.i.b < 64) →
    ∃ th, exec (.sop t) s = .next (s.setThread t th) ∧ SameThread c.th th ∧ th.pc = (c.th.pc + 1) % 4096 ∧ th.v = c.th.v ∧ th.p = c.th.p ∧
      (∀ q, q ≠ c.i.d → th.scalar q = c.th.scalar q) ∧
      (c.i.d < c.th.s.length → th.scalar c.i.d = (match c.i.fn with
        | 0 => c.th.scalar c.i.a + c.th.scalar c.i.b | 1 => c.th.scalar c.i.a + 2 ^ 64 - c.th.scalar c.i.b
        | 2 => c.th.scalar c.i.a * c.th.scalar c.i.b | 3 => Nat.land (c.th.scalar c.i.a) (c.th.scalar c.i.b)
        | 4 => Nat.lor (c.th.scalar c.i.a) (c.th.scalar c.i.b) | 5 => Nat.xor (c.th.scalar c.i.a) (c.th.scalar c.i.b)
        | 6 => c.th.scalar c.i.a * 2 ^ c.th.scalar c.i.b | _ => c.th.scalar c.i.a / 2 ^ c.th.scalar c.i.b) % 2 ^ 64)) ∧
  (∀ (s : State) (t : ThreadRef) (c : VCtx), Issues s t 0x1C c → 6 ≤ c.i.fn → c.badScalar c.i.b = false → 64 ≤ c.th.scalar c.i.b →
    ∃ th, exec (.sop t) s = .next (s.setThread t th) ∧ SameThread c.th th ∧ th.pc = (c.th.pc + 1) % 4096 ∧
      (∀ q, q ≠ c.i.d → th.scalar q = c.th.scalar q) ∧ th.v = c.th.v ∧ th.p = c.th.p) ∧
  (∀ (s : State) (t : ThreadRef) (c : VCtx), Issues s t 0x1C c → 6 ≤ c.i.fn → c.badScalar c.i.b = true → exec (.sop t) s = .next (s.threadFault c 5)) ∧
  (∀ (s : State) (t : ThreadRef) (c : VCtx), Issues s t 0x1E c → c.i.fn ≠ 1 →
    ∃ th, exec (.srd t) s = .next (s.setThread t th) ∧ SameThread c.th th ∧ th.pc = (c.th.pc + 1) % 4096 ∧
      (∀ q, q ≠ c.i.d → th.scalar q = c.th.scalar q) ∧ th.v = c.th.v ∧ th.p = c.th.p ∧
      (c.i.d < c.th.s.length → th.scalar c.i.d =
        (match c.i.fn with | 0 => s.timeAt t.node | 2 => c.l.tag | 3 => s.lnum t.node | _ => t.blk) % 2 ^ 64)) ∧
  (∀ (s : State) (t : ThreadRef) (c : VCtx), Issues s t 0x1E c → c.i.fn = 1 →
    ∃ th, exec (.srd t) s = .next ({ s with freeCount := s.freeCount + 1 }.setThread t th) ∧ SameThread c.th th ∧
      th.pc = (c.th.pc + 1) % 4096 ∧ (∀ q, q ≠ c.i.d → th.scalar q = c.th.scalar q))) ∧
  ((∀ (s : State) (t : ThreadRef) (c : VCtx), Issues s t 0x11 c →
    let t5 := c.i.fn == 6
    let seed := if bit c.i.b 1 then some (c.th.scalar (bits c.i.b 2 4), c.th.scalar (bits c.i.b 2 4 + 1)) else none
    let q := quantise c.i.fn (c.th.vec c.i.a ++ (if t5 then (c.th.vec (c.i.a + 1)).take 8 else [])) (bit c.i.b 0) seed
    ∃ th, exec (.vqnt t) s = .next ((s.numNotes t.node t.blk q.sat q.clamp false).setThread t th) ∧ SameThread c.th th ∧
      th.pc = (c.th.pc + 1) % 4096 ∧ (∀ r, r ≠ c.i.d → th.vec r = c.th.vec r) ∧ th.s = c.th.s ∧ th.p = c.th.p ∧
      ∀ i, i < 32 → (th.vec c.i.d).getD i 0 = if bit c.mask i then (lanes (quantReg c.i.fn q)).getD i 0 else c.lane c.i.d i) ∧
  (∀ (s : State) (t : ThreadRef) (c : VCtx), Issues s t 0x12 c →
    let out := dequantise c.i.fn ((Sparse.get 0 c.th.v c.i.b).toNat % 2 ^ 128) (Sparse.get 0 c.th.v c.i.a).toNat
    ∃ (s' : State) (th : Thread), exec (.vdqnt t) s = .next (s'.setThread t th) ∧
      s' = (if c.i.fn = 6 then s.numNotes t.node t.blk 0 false (badTrits (Sparse.get 0 c.th.v c.i.a).toNat) else s) ∧
      SameThread c.th th ∧ th.pc = (c.th.pc + 1) % 4096 ∧ th.s = c.th.s ∧ th.p = c.th.p ∧
      (∀ r, r ≠ c.i.d → (c.i.fn = 6 → r ≠ c.i.d + 1) → th.vec r = c.th.vec r) ∧
      (∀ i, i < 32 → (th.vec c.i.d).getD i 0 = if bit c.mask i then out.getD i 0 % 2 ^ 32 else c.lane c.i.d i) ∧
      (c.i.fn = 6 → ∀ i, i < 8 → (th.vec (c.i.d + 1)).getD i 0 =
        if bit c.mask i then out.getD (32 + i) 0 % 2 ^ 32 else c.lane (c.i.d + 1) i)))

/-- COMPLETES: BRA, BEQ, BNE, BLT, BGE, BPANY, BPALL. A branch goes to its own index plus its signed offset when its condition holds, else to the next instruction; a poisoned condition ends the launch
POISONED with cause POISON_USE. Nothing else of the thread changes (R160, R166).
An illegal instruction faults its thread with cause ILLEGAL, and one that names a vector register at or above the allocation with cause REG_RANGE,
whichever row the thread's word is issued as (R159, R166). -/
def Obligations.BranchesAndIllegalInstructions : Prop :=
  (∀ r ∈ branchRows, ∀ (s : State) (t : ThreadRef) (c : VCtx), Issues s t r.op c →
    exec (r.row t) s = if r.bad c then .next (s.threadFault c 5)
      else .next (s.setThread t { c.th with pc := wrapInt 12 ((c.th.pc : Int) + if r.take c then sext 16 c.i.imm.toNat else 1) })) ∧
  (∀ (s : State) (t : ThreadRef) (c : VCtx), t.cell < 14 → t.entry < 256 → s.vecCtx t = some c →
    ((insSpec c.i.op).isNone → ∀ r ∈ laneRows, exec (r.row t) s = .next (s.threadFault c 0)) ∧
    (∀ r ∈ laneRows, c.i.op = r.op → c.i.illegal = true → exec (r.row t) s = .next (s.threadFault c 0)) ∧
    (∀ r ∈ laneRows, c.i.op = r.op → c.i.illegal = false → (∃ q ∈ c.i.vregs, c.l.regs ≤ q) → exec (r.row t) s = .next (s.threadFault c 1)) ∧
    (∀ r ∈ branchRows, c.i.op = r.op → c.i.illegal = true → exec (r.row t) s = .next (s.threadFault c 0)))

/-- COMPLETES: VLD, VLDX, SLD. Local loads (R154-R155, R160-R161): with every active lane's address aligned and reachable, VLD and VLDX fill the active lanes from the group's memory,
zero-extended, and SLD its scalar with 8 bytes. A load changes no byte of storage, and nothing but the thread where no word carries an error. -/
def Obligations.LocalLoads : Prop :=
  (∀ (s : State) (t : ThreadRef) (c : VCtx) (offs : List (Nat × Nat)), Issues s t 0x28 c → c.badScalar c.i.a = false →
    c.addr 128 % elemSize c.i.fn = 0 →
    s.reachAll c .load (elemSize c.i.fn) (c.lanesAt fun i => c.addr 128 + i * elemSize c.i.fn) = .ok offs →
    ∃ (s2 : State) (th : Thread), exec (.vld t) s = .next (s2.setThread c.t th) ∧ (s.mem.latent = [] → s2 = s) ∧ SameBytes s s2 ∧ SameThread c.th th ∧
      th.pc = (c.th.pc + 1) % 4096 ∧ th.s = c.th.s ∧ th.p = c.th.p ∧ (∀ q, q ≠ c.i.d → th.vec q = c.th.vec q) ∧
      (∀ o ∈ offs, (th.vec c.i.d).getD o.1 0 = leNat (s.mem.read (blkKeyAt c.t.node c.t.blk o.2) (elemSize c.i.fn))) ∧
      ∀ i, i < 32 → bit c.mask i = false → (th.vec c.i.d).getD i 0 = c.lane c.i.d i) ∧
  (∀ (s : State) (t : ThreadRef) (c : VCtx) (offs : List (Nat × Nat)), Issues s t 0x2A c → c.badScalar c.i.a = false → c.badVec c.i.d = false →
    s.reachAll c .load 4 (c.lanesAt fun i => c.th.scalar c.i.a + c.lane c.i.d i) = .ok offs →
    ∃ (s2 : State) (th : Thread), exec (.vldx t) s = .next (s2.setThread c.t th) ∧ (s.mem.latent = [] → s2 = s) ∧ SameBytes s s2 ∧ SameThread c.th th ∧
      th.pc = (c.th.pc + 1) % 4096 ∧ th.s = c.th.s ∧ th.p = c.th.p ∧ (∀ q, q ≠ c.i.d → th.vec q = c.th.vec q) ∧
      (∀ o ∈ offs, (th.vec c.i.d).getD o.1 0 = leNat (s.mem.read (blkKeyAt c.t.node c.t.blk o.2) 4)) ∧
      ∀ i, i < 32 → bit c.mask i = false → (th.vec c.i.d).getD i 0 = c.lane c.i.d i) ∧
  (∀ (s : State) (t : ThreadRef) (c : VCtx) (off : Nat), Issues s t 0x2C c → c.badScalar c.i.a = false → c.addr 8 % 8 = 0 →
    s.ownLoc c .load (c.addr 8) 8 = some off →
    ∃ (s2 : State) (th : Thread), exec (.sld t) s = .next (s2.setThread t th) ∧ (s.mem.latent = [] → s2 = s) ∧ SameBytes s s2 ∧ SameThread c.th th ∧
      th.pc = (c.th.pc + 1) % 4096 ∧ th.v = c.th.v ∧ th.p = c.th.p ∧ (∀ q, q ≠ c.i.d → th.scalar q = c.th.scalar q) ∧
      (c.i.d < c.th.s.length → th.scalar c.i.d = leNat (s.mem.read (blkKeyAt c.t.node c.t.blk off) 8)))

/-- COMPLETES: SST, VST, VSTX, VATOM. SST stores its 8 bytes at the address it names and nowhere else in storage, except that a checked pair's local memory is written on both cells; it
moves its thread to the next instruction (R154, R160, R168).
VST, VSTX and VATOM, with every active lane aligned and reachable: the lanes' bytes are written, poisoned where an operand is, and the thread goes
on (R154-R155, R160-R161, R167, R190). -/
def Obligations.LocalStores : Prop :=
  (∀ (s : State) (t : ThreadRef) (c : VCtx) (off : Nat), Issues s t 0x2D c → c.badScalar c.i.a = false → c.addr 8 % 8 = 0 →
    s.ownLoc c .store (c.addr 8) 8 = some off →
    ∃ u : State, exec (.sst t none) s = .next (u.setThread t c.th.advance) ∧
      u.mem.read (blkKeyAt c.t.node c.t.blk off) 8 = leBytes 8 (c.th.scalar c.i.d) ∧
      ((∀ g p, s.groupOf c = some g → g.twin = some p → off < 0x3000000) → SameBytesBut (blkKeyAt c.t.node c.t.blk off) 8 s u)) ∧
  ((∀ (s : State) (t : ThreadRef) (c : VCtx) (offs : List (Nat × Nat)), Issues s t 0x29 c → c.badScalar c.i.a = false →
    c.addr 128 % elemSize c.i.fn = 0 →
    s.reachAll c .store (elemSize c.i.fn) (c.lanesAt fun i => c.addr 128 + i * elemSize c.i.fn) = .ok offs →
    ∃ u : State, exec (.vst t none) s = .next (u.setThread c.t c.th.advance) ∧ u.freeCount = s.freeCount + 1 ∧
      (offs = [] → SameBytes s u) ∧
      ((∀ g, s.groupOf c = some g → g.twin = none) →
        (∀ a, (∀ o ∈ offs, a < blkKeyAt c.t.node c.t.blk o.2 ∨ blkKeyAt c.t.node c.t.blk o.2 + elemSize c.i.fn ≤ a) → u.mem.byte a = s.mem.byte a) ∧
        (∀ o ∈ offs, (∀ o' ∈ offs, o'.1 ≠ o.1 → o'.2 + elemSize c.i.fn ≤ o.2 ∨ o.2 + elemSize c.i.fn ≤ o'.2) →
          u.mem.read (blkKeyAt c.t.node c.t.blk o.2) (elemSize c.i.fn) = leBytes (elemSize c.i.fn) (c.lane c.i.d o.1)))) ∧
  (∀ (s : State) (t : ThreadRef) (c : VCtx) (offs : List (Nat × Nat)), Issues s t 0x2B c → c.badScalar c.i.a = false → c.badVec c.i.d = false →
    s.reachAll c .store (elemSize c.i.fn) (c.lanesAt fun i => c.th.scalar c.i.a + c.lane c.i.d i) = .ok offs →
    ∃ u : State, exec (.vstx t none) s = .next (u.setThread c.t c.th.advance) ∧ u.freeCount = s.freeCount + 1 ∧
      ((∀ g, s.groupOf c = some g → g.twin = none) →
        ∀ a, (∀ o ∈ offs, a < blkKeyAt c.t.node c.t.blk o.2 ∨ blkKeyAt c.t.node c.t.blk o.2 + elemSize c.i.fn ≤ a) → u.mem.byte a = s.mem.byte a)) ∧
  (∀ (s : State) (t : ThreadRef) (c : VCtx) (offs : List (Nat × Nat)), Issues s t 0x31 c → c.badScalar c.i.a = false → c.badVec c.i.d = false →
    s.reachAll c .store 4 (c.lanesAt fun i => c.th.scalar c.i.a + c.lane c.i.d i) = .ok offs →
    ∃ u : State, exec (.vatom t none) s = .next (u.setThread t c.th.advance) ∧ u.freeCount = s.freeCount + 1 ∧
      ((∀ g, s.groupOf c = some g → g.twin = none) →
        (∀ a, (∀ o ∈ offs, a < blkKeyAt c.t.node c.t.blk o.2 ∨ blkKeyAt c.t.node c.t.blk o.2 + 4 ≤ a) → u.mem.byte a = s.mem.byte a) ∧
        (∀ o, offs = [o] → u.mem.read (blkKeyAt c.t.node c.t.blk o.2) 4 =
          leBytes 4 (atomOp c.i.fn (leNat (s.mem.read (blkKeyAt c.t.node c.t.blk o.2) 4)) (c.lane (c.i.d + 1) o.1))))))

/-- COMPLETES: VLDR, VSTR, VPUT, SATOMR. VLDR and SATOMR park their thread and send one request under it; VSTR and VPUT send the register's active words as WRITE packets,
or PEN_PUT into a held pen, one for each run of active lanes, poisoned where the register or the mask is, each counted against the thread, which goes on; no byte of
storage changes on the way (R154-R156, R160, R167). -/
def Obligations.RemoteAccesses : Prop :=
  (∀ (s : State) (t : ThreadRef) (c : VCtx), Issues s t 0x2E c → c.badScalar c.i.a = false → c.addr 128 % 4 = 0 → s.remoteRead c (c.addr 128) = true →
    s.replySlots t < 64 →
    exec (.vldr t) s = .next ((s.setThread t { c.th.advance with park := .reply }).request t.node
      { op := .readReq, cls := 2, srcUnit := t.blk, jobTag := c.l.tag, addr := c.addr 128, oparg0 := 128 } (.threadRead t c.l.id c.i.d))) ∧
  (∀ (s : State) (t : ThreadRef) (c : VCtx) (pen : Bool), Issues s t 0x32 c → c.badScalar c.i.a = false → c.badScalar c.i.d = false →
    c.addr 8 % 4 = 0 → s.remoteAt c (c.addr 8) 4 = (if pen then .pen else .plain) →
    exec (.satomr t none) s = .next (({ s with freeCount := s.freeCount + 1 }.setThread t { c.th.advance with park := .atomic }).request t.node
      (atomicPacket t.blk c.l.tag (c.addr 8) (c.th.scalar c.i.d % 2 ^ 32) c.i.fn) (.threadAtomic t c.l.id))) ∧
  (∀ (s : State) (t : ThreadRef) (c : VCtx) (pen : Bool), c.badScalar c.i.a = false → c.addr 128 % 4 = 0 →
    s.remoteAt c (c.addr 128) 128 = (if pen then .pen else .plain) →
    let runs := maskedRuns c c.i.d (c.addr 128)
    let bad := c.badVec c.i.d || c.maskBad
    let v := ({ s with freeCount := s.freeCount + 1 } : State).setThread c.t { c.th.advance with writes := c.th.writes + runs.length }
    let u := runs.foldl (fun s r => s.sendBytes c.t.node c.t.blk c.l.tag r.1 r.2 bad pen (.threadWrite c.t c.l.id c.th.pc)) (if bad then v.poisonLaunch c else v)
    (Issues s t 0x2F c → exec (.vstr t none) s = .next u) ∧ (Issues s t 0x30 c → pen = true → exec (.vput t none) s = .next u) ∧ u.mem = s.mem ∧
    (Sparse.find? (u.block c.t.node c.t.blk).threads c.t.key).map (·.writes) = some (c.th.writes + runs.length))

/-- COMPLETES: VCLD, VGSC, VGRD, YIELD, YIELD_END, HARV, HWAIT, EXIT, CHECK_SKEW_TIMEOUT. VCLD loads a curve table of the launch's write mask; VGSC adds its active scores to its token's candidates; VGRD reads a token's record and status
(R154, R164-R165, R289, R293).
YIELD parks its thread until YIELD_END; HARV with no remote write outstanding arrives once at its hurdle; HWAIT parks at its hurdle's next generation,
or at the group barrier; EXIT ends the thread (R155, R160, R233). A checked pair that disagrees at HWAIT or EXIT, or in time at any compare point, is a mismatch (R169). -/
def Obligations.CurveGateAndControlRows : Prop :=
  ((∀ (s : State) (t : ThreadRef) (c : VCtx) (off : Nat), Issues s t 0x33 c → c.badScalar c.i.a = false → bit c.l.ctWrite c.i.d = true →
    c.addr 16 % 16 = 0 → s.ownLoc c .table (c.addr 16) 1040 = some off →
    bits (leNat (s.mem.read (blkKeyAt c.t.node c.t.blk off) 1040)) 64 8 ≤ 1 →
    ∃ u : State, exec (.vcld t none) s = .next (u.setThread t c.th.advance) ∧ SameBytes s u ∧
      Sparse.find? (u.block t.node t.blk).curves c.i.d = some (leNat (s.mem.read (blkKeyAt c.t.node c.t.blk off) 1040))) ∧
  (∀ (s : State) (t : ThreadRef) (c : VCtx), Issues s t 0x18 c → s.selecting t.node t.blk true = false → c.badScalar c.i.d = false →
    c.badScalar c.i.b = false → c.th.scalar c.i.d ≤ 4095 → (∀ i ∈ setBits 32 c.mask, (c.th.scalar c.i.b + i) % 2 ^ 64 ≤ 1023) →
    ∃ u : State, exec (.vgsc t none) s = .next (u.setThread t c.th.advance) ∧ SameBytes s u ∧ (setBits 32 c.mask ≠ [] → u.fld F.gtuStat_listsHeld t.node t.blk = 1) ∧
      (Sparse.get {} (u.block t.node t.blk).cands (c.th.scalar c.i.d)).count =
        (Sparse.get {} (s.block t.node t.blk).cands (c.th.scalar c.i.d)).count + (setBits 32 c.mask).length) ∧
  (∀ (s : State) (t : ThreadRef) (c : VCtx) (x : Select) (rest : List Select), Issues s t 0x19 c → s.selecting t.node t.blk false = false →
    c.badScalar c.i.a = false → (s.block t.node t.blk).selects = x :: rest → c.th.scalar c.i.a < x.tokens →
    s.mayReadAS c.who t.node t.blk (x.recOff + 64 * c.th.scalar c.i.a) 64 = true → s.mayReadAS c.who t.node t.blk (x.statusOff + 2 * c.th.scalar c.i.a) 2 = true →
    ∃ (s2 : State) (th : Thread), exec (.vgrd t) s = .next (s2.setThread t th) ∧ (s.mem.latent = [] → s2 = s) ∧ SameBytes s s2 ∧ SameThread c.th th ∧
      th.pc = (c.th.pc + 1) % 4096 ∧ th.s = c.th.s ∧ th.p = c.th.p ∧
      (∀ i, i < 16 → bit c.mask i = true → (th.vec c.i.d).getD i 0 =
        bits (leNat (s.mem.read (blkKeyAt t.node t.blk (x.recOff + 64 * c.th.scalar c.i.a)) 64)) (32 * i) 32) ∧
      (bit c.mask 0 = true → (th.vec (c.i.d + 1)).getD 0 0 = leNat (s.mem.read (blkKeyAt t.node t.blk (x.statusOff + 2 * c.th.scalar c.i.a)) 2)))) ∧
  ((∀ (s : State) (t : ThreadRef) (c : VCtx), Issues s t 0x3B c → exec (.yield t) s = .next (s.setThread t { c.th.advance with park := .yield })) ∧
  (∀ (s : State) (t : ThreadRef) (th : Thread), t.cell < 14 → t.entry < 256 → Sparse.find? (s.block t.node t.blk).threads t.key = some th →
    th.park = .yield → s.vecRuns t.node t.blk = true → exec (.yieldEnd t) s = .next (s.setThread t { th with park := .ready })) ∧
  (∀ (s : State) (t : ThreadRef) (c : VCtx), Issues s t 0x3C c → c.th.writes = 0 →
    let id := c.i.imm.toNat
    let g := c.gen false id
    hurdleOk false id = true → s.hurdleKnown t.node t.blk c.l.tag id = true → s.judgeArrival t.node t.blk c.l.tag id g = .admitted →
    exec (.harv t none) s = .next ((((s.setThread t { c.th.advance with arrivals := Sparse.upd 0 c.th.arrivals id (· + 1) }).hurdleEvent
      c.l.q 0x08 c.l.tag id g).arriveHurdle t.node t.blk c.l.tag id g false).wakeNode t.node)) ∧
  (∀ (s : State) (t : ThreadRef) (c : VCtx), Issues s t 0x3D c → c.th.writes = 0 → c.i.imm.toNat = 0 →
    exec (.hwait t none) s = .next ((s.setThread t { c.th.advance with park := .barrier }).modBlock t.node t.blk fun b =>
      b.barrier c.th.launch c.th.group)) ∧
  (∀ (s : State) (t : ThreadRef) (c : VCtx), Issues s t 0x3D c → c.th.writes = 0 →
    let id := c.i.imm.toNat
    id ≠ 0 → hurdleOk false id = true → s.hurdleKnown t.node t.blk c.l.tag id = true →
    exec (.hwait t none) s = .next (((s.setThread t { c.th.advance with
      waits := Sparse.upd 0 c.th.waits id (· + 1), park := .hurdle id (c.gen true id) }).hurdleEvent c.l.q 0x09 c.l.tag id (c.gen true id)).wakeThread
      t.node t.blk t.key)) ∧
  (∀ (s : State) (t : ThreadRef) (c : VCtx), Issues s t 0x3E c → c.th.writes = 0 →
    exec (.exit t none) s = .next ((s.modBlock t.node t.blk fun b => b.endThread t.key c.th).showVec t.node t.blk)) ∧
  (∀ (s : State) (t : ThreadRef) (c : VCtx) (same : Bool), c.l.checked = true → c.th.writes = 0 →
    (Issues s t 0x3E c → exec (.exit t (some same)) s = .next (s.checkMismatch c false)) ∧
    (Issues s t 0x3D c → c.i.imm.toNat = 0 → exec (.hwait t (some same)) s = .next (s.checkMismatch c false))) ∧
  (∀ (s : State) (t : ThreadRef) (c : VCtx), t.cell < 14 → t.entry < 256 → s.vecCtx t = some c → c.l.checked = true →
    c.i.op ∈ [0x29, 0x2B, 0x2D, 0x2F, 0x30, 0x31, 0x32, 0x33, 0x18, 0x3C, 0x3D, 0x3E] →
    ∃ u : State, exec (.checkSkewTimeout t) s = .next u ∧ SameBytes s u))

/-! ## Packets -/

/-- COMPLETES: WRITE, READ_REQ. A WRITE that lands on storage its requester may write is made and answered DONE, or POISONED where its data is; where the location is mirrored the
answer waits for the mirror's. One on a register page is checked there (R36-R41, R54, R190, R317).
A READ_REQ of 1 to 512 bytes that its destination serves is answered with the data; one of 0 or more than 512 with ACCESS_FAULT (R36, R54, R192; the
byte count stands in OPARG0 by the model's choice, log entry 12). -/
def Obligations.StorageRequestsComplete : Prop :=
  (∀ (s : State) (p : Packet) (d : Nat) (l : Loc), Lands s p → p.op = .write → mirrorSource p = none →
      s.locate p.dest p.epoch p.addr (max 1 p.extent) = .ok (d, l) → s.heldAt p.requester d l = false →
      s.barred p.requester d l = none →
      ((∀ node page off, l = .reg node page off →
          exec (.write p) s = .next (((s.take p).packetRegWrite p node page off).2.answer p.dest p ((s.take p).packetRegWrite p node page off).1)) ∧
        ((∀ node page off, l ≠ .reg node page off) → s.mayWrite p.requester l p.named.length = true →
          l.key.isSome →
          let x : Status := if p.poison then .poisoned else .done
          let u := ((s.take p).writeLoc p.requester d l p.named p.poison).2
          exec (.write p) s = .next (match l with
            | .stack st _ => if u.mirrored st d then u.sendMirror st p p else u.answer p.dest p x
            | _ => u.answer p.dest p x)))) ∧
  ((∀ (s : State) (p : Packet) (d : Nat) (l : Loc) (bs : List Byte) (u : State), Lands s p → p.op = .readReq → 0 < p.oparg0 → p.oparg0 ≤ 512 →
      s.locate p.dest p.epoch p.addr p.oparg0 = .ok (d, l) → s.heldAt p.requester d l = false → p.poison = false →
      (s.take p).readLoc p.requester d l p.oparg0 = (.done, bs, u) →
      exec (.readReq p) s = .next (u.send (readDataPacket u p.dest p .done bs))) ∧
    (∀ (s : State) (p : Packet), Lands s p → p.op = .readReq → (p.oparg0 = 0 ∨ 512 < p.oparg0) →
      exec (.readReq p) s = .next ((s.take p).answer p.dest p .accessFault)))

/-- COMPLETES: ATOMIC_ADD. Host memory takes it whole: the word holds the sum, the answer the value it found, no other byte changes (R109; the packet's fields are the
model's choice, log entry 12). A stack, its sectors sound, does the same through its check bits; a scratchpad under a pen that covers the word. -/
def Obligations.AtomicAddsComplete : Prop :=
  (∀ (s : State) (p : Packet) (d a : Nat), Lands s p → p.op = .atomicAdd → (isEdge p.dest && p.addr == tallyAddr p.dest) = false →
    s.locate p.dest p.epoch p.addr p.extent = .ok (d, .host a) → p.addr % p.extent = 0 → p.oparg1 ≤ 2 →
    let old := s.mem.num (0x300000000000 + a) p.extent
    let m := s.mem.write (0x300000000000 + a) (leBytes p.extent (atomicSum p.oparg1 old p.oparg0))
    exec (.atomicAdd p) s = .next (({ s.take p with mem := m } : State).atomicAnswer p (if p.poison then .poisoned else .done) old) ∧
      ∀ x, x < 0x300000000000 + a ∨ 0x300000000000 + a + p.extent ≤ x → m.byte x = s.mem.byte x) ∧
  (∀ (s : State) (p : Packet) (d st off : Nat), Lands s p → p.op = .atomicAdd → (isEdge p.dest && p.addr == tallyAddr p.dest) = false →
    s.locate p.dest p.epoch p.addr p.extent = .ok (d, .stack st off) → p.addr % p.extent = 0 → p.oparg1 ≤ 2 → s.heldAt p.requester d (.stack st off) = false →
    s.barred p.requester d (.stack st off) = none → s.mem.latent = [] →
    let k := (stackPlace st off d).1 * stackSize + (stackPlace st off d).2
    ∃ u : State, exec (.atomicAdd p) s = .next u ∧ SameBytesBut k p.extent s u ∧
      u.mem.num k p.extent = atomicSum p.oparg1 (s.mem.num k p.extent) p.oparg0 % 2 ^ (8 * p.extent)) ∧
  (∀ (s : State) (p : Packet) (d node blk off : Nat), Lands s p → p.op = .atomicAdd → (isEdge p.dest && p.addr == tallyAddr p.dest) = false →
    s.locate p.dest p.epoch p.addr p.extent = .ok (d, .scratch node blk off) → p.addr % p.extent = 0 → p.oparg1 ≤ 2 →
    s.heldAt p.requester d (.scratch node blk off) = false → s.atomicScratch p node blk off p.extent = .done → s.mem.latent = [] →
    ∃ u : State, exec (.atomicAdd p) s = .next u ∧ SameBytesBut (blkKeyAt node blk off) p.extent s u ∧
      u.mem.num (blkKeyAt node blk off) p.extent = atomicSum p.oparg1 (s.mem.num (blkKeyAt node blk off) p.extent) p.oparg0 % 2 ^ (8 * p.extent))

/-- COMPLETES: READ_DATA, COMPLETION, PEN_GRANT, MGMT_REPLY. A reply that lands goes to the request of its node, SRC_UNIT and transaction, which leaves the outstanding
table, whatever that request waits for (R53, R69-R70). A plain request ends there; the word read by VLDR goes into its thread's register and the thread may
issue again (R156); the completion of a thread's write takes it off the thread's count; the grant of a hub's pen marks the holder's entry (R204); the answer to
the DBG_ window stands in DBG_ACC (R542). One that answers none is counted as an orphan (R69), a grant among them besides released (R210). -/
def Obligations.RepliesComplete : Prop :=
  (∀ (s : State) (p : Packet) (r : Request), Lands s p → s.asked p = some r →
    (p.op = .readData → exec (.readData p) s = .next ((s.answered p).reply r p)) ∧
    (p.op = .completion → (s.ownRow p) = false → exec (.completion p) s = .next ((s.answered p).reply r p)) ∧
    (p.op = .penGrant → exec (.penGrant p) s = .next ((s.answered p).reply r p)) ∧
    (p.op = .mgmtReply → exec (.mgmtReply p) s = .next ((s.answered p).reply r p))) ∧
  (∀ (s : State) (p : Packet) (r : Request), Lands s p → s.asked p = some r →
    (p.op = .readData → r.purpose = .plain → exec (.readData p) s = .next (s.answered p)) ∧
    (∀ t id vd th l, p.op = .readData → r.purpose = .threadRead t id vd → (s.answered p).threadOf t id = some (th, l) → p.outcome = .done →
      ∃ u th', exec (.readData p) s = .next u ∧ u = (s.answered p).setThread t th' ∧ th'.park = .ready ∧ th'.pc = th.pc ∧ (∀ q, q ≠ vd → th'.vec q = th.vec q) ∧
        ∀ i, i < 32 → bit (VCtx.mask ⟨t, th, l, decodeIns (l.image.getD (wrapInt 12 ((th.pc : Int) - 1)) 0)⟩) i = true →
          (th'.vec vd).getD i 0 = bits (leNat p.data) (32 * i) 32) ∧
    (∀ t id pc th l, p.op = .completion → (s.ownRow p) = false → r.purpose = .threadWrite t id pc → (s.answered p).threadOf t id = some (th, l) → p.outcome = .done →
      exec (.completion p) s = .next (((s.answered p).setThread t { th with writes := th.writes - 1 }).settleLaunch t.node t.blk id)) ∧
    (∀ hub, p.op = .penGrant → r.purpose = .penHub hub → exec (.penGrant p) s = .next ((s.answered p).markGrant r p)) ∧
    (∀ unit, p.op = .mgmtReply → r.purpose = .mgmt unit → p.outcome = .done → p.len ≠ 0 → r.node < 182 →
      ∃ u, exec (.mgmtReply p) s = .next u ∧ u.fld F.dbgAcc_status r.node = 0 ∧ u.fld F.dbgAcc_busy r.node = 0 ∧
        u.word .dbgAccData r.node = BitVec.ofNat 64 (leNat (p.payload.take 8)) ∧ u.mem = s.mem)) ∧
  (∀ (s : State) (p : Packet), Lands s p → s.asked p = none →
    let u := (s.take p).modRouter p.dest fun r => { r with orphans := r.orphans + 1 }
    (p.op = .readData → exec (.readData p) s = .next { u with outstanding := s.outstanding.eraseP (Request.answeredBy p) }) ∧
    (p.op = .mgmtReply → exec (.mgmtReply p) s = .next { u with outstanding := s.outstanding.eraseP (Request.answeredBy p) }) ∧
    (p.op = .penGrant → exec (.penGrant p) s = .next ({ u with outstanding := s.outstanding.eraseP (Request.answeredBy p) }.sendRelease p.dest p.srcUnit p.jobTag p.oparg0
      .penOrphan)) ∧
    (p.op = .completion → (s.ownRow p) = false → (s.answered p).foldCmd? p = none →
      exec (.completion p) s = .next { u with outstanding := s.outstanding.eraseP (Request.answeredBy p) }))

/-- COMPLETES: REVOKE_NOTICE, MIRROR_WRITE, LINK_READ_FAIL. A revocation marks the holder's entry of the pen it names, with its cause (R208); where the holder has none
such it changes nothing. A mirror write is made in the partner's upper half, and no other byte of storage changes, and answered (R317). A link read that fails fails
its stream (R255).
COMPLETES: TALLY_ATOMIC_ADD, FOLD_PART. TALLY_ATOMIC_ADD opens a table, or adds to the one of its job and fold, whose counts grow modulo 2^32, and is answered DONE;
one without a free table, or for another hurdle, is refused and counted (R297-R298; the packet's fields are the model's choice, log entries 12 and 16). A folded
partial is buffered at its region and matched; where the block adds nothing it goes on poisoned (R79-R80, R265-R266). -/
def Obligations.NoticesTalliesAndFoldsComplete : Prop :=
  ((∀ (s : State) (p : Packet), Lands s p → p.op = .completion → (p.status = 4 ∨ p.status = 5) → p.oparg0 ≠ 0 → isEdge p.dest = false →
    ∃ u : State, exec (.revokeNotice p) s = .next u ∧ u.mem = s.mem ∧
      ((s.holderUnit p.dest p.srcUnit).holders.find? (fun e => e.granted && !e.revoked && e.base == p.oparg0) = none → u = s.take p) ∧
      ∀ e ∈ (s.holderUnit p.dest p.srcUnit).holders, e.granted = true → e.revoked = false → e.base = p.oparg0 →
        { e with revoked := true, cause := if p.status = 5 then .targetRetired else .targetResetting } ∈ (u.holderUnit p.dest p.srcUnit).holders) ∧
  (∀ (s : State) (p : Packet) (st : Nat), Lands s p → mirrorSource p = some st → (s.take p).stackAnswer (partner st) = .serves → s.mem.latent = [] →
    ∃ u : State, exec (.mirrorWrite p) s = .next (u.answer p.dest p (if p.poison then .poisoned else .done)) ∧
      u = (s.take p).writeStackCopy (partner st) (halfStack + p.addr % halfStack) p.named p.poison ∧
      SameBytesBut (partner st * stackSize + (halfStack + p.addr % halfStack)) p.named.length s u) ∧
  (∀ (s : State) (p : Packet) (r : Request) (seq tag off : Nat), Lands s p → p.op = .completion → isEdge p.dest = true → p.status ≠ 0 → p.status ≠ 1 →
    s.asked p = some r → r.purpose = .drove seq tag off →
    exec (.linkReadFail p) s = .next ((s.answered p).linkReadFailed p.dest seq tag ((Status.ofCode p.status).getD .timeout)))) ∧
  ((∀ (s : State) (p : Packet), Lands s p → p.op = .atomicAdd → isEdge p.dest = true → p.addr = tallyAddr p.dest →
    s.goesOn p.dest (pageOf .drv p.dest 0) = true →
    let mine := fun (t : TallyTable) => t.tag == p.jobTag && t.fold == bits p.oparg0 0 16
    let old := (s.drove p.dest).tables.find? mine
    let ok := match old with | some t => t.hurdle == bits p.oparg0 16 16 | none => decide ((s.drove p.dest).tables.length < 4)
    (ok = true → ∃ u : State, exec (.tallyAtomicAdd p) s = .next u ∧ u.mem = s.mem ∧
      ∃ t, (u.drove p.dest).tables.find? mine = some t ∧ t.hurdle = bits p.oparg0 16 16 ∧
        ∀ i, bits p.oparg1 0 10 + i < 1024 → i < p.payload.length / 4 →
          let x := match old with | some y => Sparse.get 0 y.counts (bits p.oparg1 0 10 + i) | none => 0
          let c := leNat ((p.payload.drop (4 * i)).take 4)
          Sparse.get 0 t.counts (bits p.oparg1 0 10 + i) = if c = 0 then x else (x + c) % 2 ^ 32) ∧
    (ok = false → exec (.tallyAtomicAdd p) s = .next (((s.take p).bump F.drvTally_refused p.dest 0 0).answer p.dest p .accessFault))) ∧
  (∀ (s : State) (p : Packet), Lands s p → p.op = .foldPart → isRegion p.dest = true → p.srcUnit < 4 →
    let ps := (s.router p.dest).foldBufs
    let same := fun (x : Packet) => x.jobTag == p.jobTag && x.srcUnit == p.srcUnit && bits x.oparg0 0 16 == bits p.oparg0 0 16
    (if ps.any same then (ps.filter same).length < 2 else foldsHeld ps < 16) →
    (s.addsNothing p.dest p.srcUnit = false → exec (.foldPart p) s = .next (((s.take p).setFolds p.dest (ps ++ [p])).matchFolds p.dest 64)) ∧
    (s.addsNothing p.dest p.srcUnit = true → exec (.foldPart p) s = .next ((s.take p).poisonFold p.dest p))))

/-- COMPLETES: PEN_REQ, PEN_PUT, PEN_RELEASE. The pen unit of a block that serves: a request within the table's and the pool's room is queued and the round decides
it, one beyond is answered PEN_FULL and counted (R202-R203); a put into a pen that covers it is written, poisoned where its data is (R205); a release frees its
pen and the round goes on, that of a revoked one is counted (R206, R208). -/
def Obligations.PenPacketsComplete : Prop :=
  (∀ (s : State) (p : Packet) (node blk : Nat), Lands s p → s.blockOf p = some (node, blk) → s.regionAnswer node blk = .serves →
    (p.op = .penReq → (s.penUnit node blk).pending.length < 128 → 0 < penUnits p → penUnits p ≤ s.fld F.blkPenCfg_poolUnits node blk →
      exec (.penReq p) s = .next (((s.take p).updPens node blk { s.penUnit node blk with
        pending := (s.penUnit node blk).pending ++ [⟨p, s.now⟩] }).penRound node blk (some (p.src, p.txn)))) ∧
    (p.op = .penReq → (128 ≤ (s.penUnit node blk).pending.length ∨ s.fld F.blkPenCfg_poolUnits node blk < penUnits p ∨ penUnits p = 0) →
      exec (.penReq p) s = .next (((s.take p).bump F.blkPenCount_tableFull node blk 0).penFull node blk p)) ∧
    (∀ q, p.op = .penRelease → (s.penUnit node blk).pens.find? (fun q => q.base == p.addr && q.node == p.src && q.unit == p.srcUnit) = some q →
      exec (.penRelease p) s = .next ((((s.take p).updPens node blk (freePen (s.penUnit node blk) q)).answer node p .done).penRound node blk)) ∧
    (p.op = .penRelease → (s.penUnit node blk).pens.find? (fun q => q.base == p.addr && q.node == p.src && q.unit == p.srcUnit) = none →
      (s.penUnit node blk).revoked.any (fun q => q.base == p.addr && q.node == p.src && q.unit == p.srcUnit) = true →
      ∃ u : State, exec (.penRelease p) s = .next (u.answer node p .done) ∧ u.mem = s.mem ∧
        (u.penUnit node blk).revoked = (s.penUnit node blk).revoked.filter (fun q => !(q.base == p.addr && q.node == p.src && q.unit == p.srcUnit)))) ∧
  (∀ (s : State) (p : Packet) (d node blk off : Nat) (q : Pen), Lands s p → p.op = .penPut →
    s.locate p.dest p.epoch p.addr (max 1 p.extent) = .ok (d, .scratch node blk off) → s.regionAnswer node blk = .serves →
    penFor (s.penUnit node blk).pens p off p.extent = some q →
    ∃ u : State, exec (.penPut p) s = .next (u.answer node p (if p.poison then .poisoned else .done)) ∧
      u = ((s.take p).asChange p.requester node blk off p.named).writeBlk node blk off p.named p.poison ∧
      (s.mem.latent = [] → SameBytesBut (blkKeyAt node blk off) p.named.length s u))

/-- COMPLETES: DROVE_TILE, COMMIT_NOTICE, CANCEL_NOTICE, BUF_FREE, DECISION_ACK, CONTROL. Lines and notices of a drove (R249-R250, R260-R263): a DROVE_TILE reaches every
block that works, its header or its line; COMMIT_NOTICE and CANCEL_NOTICE decide the stream they name in each block, and where the block holds no line of it yet the
decision is kept; BUF_FREE frees a line buffer of the drove that sent to it; DECISION_ACK takes the node off those still to answer. A report of a suspect
destination is noted at the master hub; any other control packet ends at the router (R46, R70). -/
def Obligations.DrovePacketsComplete : Prop :=
  (∀ (s : State) (p : Packet), Lands s p → p.op = .droveTile → isRegion p.dest = true → isEdge p.src = true → s.coreGated p.dest = false →
    ((∃ b ∈ [0, 1, 2, 3], s.works p.dest b = true) → exec (.droveTile p) s = .next ([0, 1, 2, 3].foldl (fun u b =>
      if !u.works p.dest b then u else if bit p.oparg0 18 then u.feedHeader p b else u.feedLine p b) (s.take p))) ∧
    ((∀ b ∈ [0, 1, 2, 3], s.works p.dest b = false) → exec (.droveTile p) s = .next ((s.take p).modRouter p.dest fun r => { r with mcastDiscards := r.mcastDiscards + 1 }))) ∧
  (∀ (s : State) (p : Packet), Lands s p → p.op = .control → isRegion p.dest = true →
    let seq := bits p.oparg0 0 16
    let side := bits p.oparg0 16 1
    (∀ b, b < 4 → ((s.block p.dest b).half side).feed? seq = none) →
    (p.oparg1 = Notice.commit.code → ∃ u : State, exec (.commitNotice p) s = .next (([0, 1, 2, 3].foldl (fun (s : State) b => s.matrixTick p.dest b) u).closeFeed
        p.dest side seq) ∧ u.acks = s.acks ++ [⟨p.dest, p.src, side, seq, p.jobTag⟩] ∧ u.mem = s.mem ∧
      ∀ b, b < 4 → (u.block p.dest b).half side = ((s.block p.dest b).half side).record seq p.jobTag (if bit p.oparg0 17 then .empty else .commit)) ∧
    (p.oparg1 = Notice.cancel.code → bit p.oparg0 17 = false →
      ∃ u : State, exec (.cancelNotice p) s = .next (u.notice p.dest p.src p.jobTag .ack seq side 1) ∧ u.mem = s.mem ∧
        ∀ b, b < 4 → (u.block p.dest b).half side = ((s.block p.dest b).half side).record seq p.jobTag .cancel)) ∧
  (∀ (s : State) (p : Packet), Lands s p → p.op = .control → isRegion p.dest = true →
    (p.oparg1 = Notice.commit.code → ∃ u : State, exec (.commitNotice p) s = .next u) ∧
    (p.oparg1 = Notice.cancel.code → ∃ u : State, exec (.cancelNotice p) s = .next (u.notice p.dest p.src p.jobTag .ack (bits p.oparg0 0 16) (bits p.oparg0 16 1) 1))) ∧
  (∀ (s : State) (p : Packet), Lands s p → p.op = .control → isEdge p.dest = true →
    (p.oparg1 = Notice.bufFree.code → ∃ u : State, exec (.bufFree p) s = .next (u.droveRun p.dest) ∧ u.mem = s.mem ∧
      (u.drove p.dest).busy = Sparse.del (s.drove p.dest).busy (busyKey p.src (bits p.oparg0 16 1) (bits p.oparg0 17 1)) ∧
      (u.drove p.dest).streams = (s.drove p.dest).streams) ∧
    (p.oparg1 = Notice.ack.code → ∃ u : State, exec (.decisionAck p) s = .next (((u.settleDecisions p.dest).droveRun p.dest).droveRun (farEnd p.dest)) ∧ u.mem = s.mem ∧
      ∀ x ∈ (u.drove p.dest).deciding, x.seq = bits p.oparg0 0 16 → x.tag = p.jobTag → x.cancel = bit p.oparg0 17 → p.src ∉ x.left)) ∧
  (∀ (s : State) (p : Packet), Lands s p → p.op = .control → ([Notice.bufFree, .commit, .cancel, .ack].map Notice.code).contains p.oparg1 = false →
    exec (.control p) s = .next (if p.oparg1 = Notice.suspect.code ∧ p.dest = s.master ∧ p.oparg0 < 182 ∧ s.suspects.contains p.oparg0 = false ∧
      s.probes.any (fun x => x.node == p.oparg0) = false then { s.take p with suspects := s.suspects ++ [p.oparg0] } else s.take p))

/-- COMPLETES: HURDLE_ARRIVE, HURDLE_RELEASE, MGMT, PACKET_INJECT. An arrival is counted at the hurdle's home for its generation; a release tells the node the generation
that has been released (R231, R233). MGMT reads and writes the register it names under the rules of register access, and is answered with MGMT_REPLY (R410-R414; the
packet's fields are the model's choice, log entry 11). A requester of a live node injects a packet (R55); a hub's pen request goes through its holder table (R202). -/
def Obligations.HurdleAndMgmtPacketsComplete : Prop :=
  ((∀ (s : State) (p : Packet), Lands s p → p.op = .hurdleArrive →
      ∃ u : State, exec (.hurdleArrive p) s = .next ((u.countArrival p.jobTag (bits p.oparg0 0 16) (bits p.oparg0 16 8, bits p.oparg0 24 2) (bits p.oparg1 0 32)
        (bit p.oparg1 32)).wakeNode p.dest) ∧ u.mem = s.mem ∧ u.regs = s.regs ∧ u.queues = s.queues) ∧
    (∀ (s : State) (p : Packet), Lands s p → p.op = .hurdleRelease →
      ∃ u : State, exec (.hurdleRelease p) s = .next (u.wakeNode p.dest) ∧ u.mem = s.mem ∧ u.queues = s.queues ∧
        ∀ j h, (s.job? p.jobTag) = some j → j.hurdle? (bits p.oparg0 0 16) (bits p.oparg0 16 8, bits p.oparg0 24 2) = some h →
          ∃ j' h', u.job? p.jobTag = some j' ∧ j'.hurdle? (bits p.oparg0 0 16) (bits p.oparg0 16 8, bits p.oparg0 24 2) = some h' ∧
            bits p.oparg1 0 32 ≤ Sparse.get 0 h'.told p.dest)) ∧
  (∀ (s : State) (p : Packet) (d node page off : Nat), Lands s p → p.op = .mgmt → 0 < p.oparg0 → p.oparg0 ≤ 512 →
      s.locate p.dest p.epoch p.addr p.oparg0 = .ok (d, .reg node page off) → s.pageAnswer p.requester.origin node page = .serves →
      exec (.mgmt p) s = .next (if bit p.oparg1 0 then
          let r := (s.take p).writePage p.requester.origin node page off p.oparg0 (leNat (p.payload.take p.oparg0))
          r.2.mgmtReply p (r.1.marked p.poison) []
        else
          let r := (s.take p).readPage p.requester.origin node page off p.oparg0
          r.2.2.mgmtReply p (r.1.marked p.poison) (if r.1 = .done then r.2.1 else []))) ∧
  (∀ (s : State) (node : Nat) (p : Packet) (line : Nat), node < 182 → s.live node = true →
      exec (.packetInject node p line) s = .next (if isHub node && p.op == .penReq then s.penAsk node p (.penHub node)
        else s.inject node p (if isHub node && p.op == .penRelease then .penReleaseHub node else .plain) line))

/-! ## Commands -/

/-- COMPLETES: MXE_BIND_HEFT, MXE_GEMM, MXE_GEMM_T, MXE_LOCAL, MXE_CODEBOOK, MXE_DRAIN, VXE_LAUNCH, VXE_LAUNCH_CHECKED, MVE_COPY, MVE_PEN_REQ, MVE_PEN_PUT,
MVE_PEN_RELEASE, MVE_BCAST, MVE_FOLD, MVE_DIGEST, GTE_SELECT, GTE_DISPATCH, GTE_COMBINE, GTE_TALLY, CTL_WAIT, CTL_JUMP, CTL_CALL, CTL_RET, CTL_PREDICATE, CTL_PHASE,
CTL_TALLY_FLUSH, CTL_NOP, DVE_STREAM, DVE_STREAM_LINK, DVE_COMMIT, DVE_CANCEL (the rows of `headRows`). A command at the head of its queue that starts is recorded as
begun and does its work (R217-R228). -/
def Obligations.CommandsStartAndDoTheirWork : Prop :=
  ∀ ups, ∀ r ∈ headRows ups, ∀ (s : State) (q : QueueRef) (a tag d : Nat) (u : State), Starts s q [r.op] (r.own q) a tag d u →
    exec (r.row q) s = .next (r.work (u.began q tag a d) q d)

/-- A command that its unit refuses by R227 completes ACCESS_FAULT, stops its list and is recorded with KIND 6, with none of its effect
(R222, R227).
COMPLETES: CTL_HURDLE, CTL_BREAK, DVE_EXPERTS. CTL_HURDLE waits for its arrival's place; CTL_BREAK halts its block where CTLBRK_EN is 1, and else, after RESUME and on an
edge die, ends DONE; DVE_EXPERTS does its work (R226, R233, R299, R540). -/
def Obligations.MalformedHurdleBreakAndExpertCommands : Prop :=
  (∀ ups, ∀ r ∈ headRows ups, ∀ (s : State) (q : QueueRef) (a tag d : Nat) (u : State),
    (Starts s q [r.op] (fun _ _ => true) a tag d u → r.own q u d = false → exec (r.row q) s = .next (u.malformed q)) ∧
    (∀ c, (u.queue q).cur = some c → c.status = none → c.found = .done → ∃ c', ((u.malformed q).queue q).cur = some c' ∧ c'.status = some .accessFault ∧
      c'.stops = true ∧ c'.desc = c.desc)) ∧
  ((∀ (s : State) (q : QueueRef) (a tag d : Nat) (u : State), Starts s q [0x50] (fun s d => s.hurdleArg q (bits d 128 16)) a tag d u →
    exec (.ctlHurdle q) s = .next ((u.began q tag a d).runHurdle q d)) ∧
  (∀ (s : State) (q : QueueRef) (a tag d : Nat) (u : State), Starts s q [0x58] (fun _ _ => true) a tag d u →
    (isEdge q.node = true ∨ s.flag F.dbgBrk_ctlbrkEn q.node 0 q.blk = false ∨ (s.queue q).passBreak = true ∨ (s.block q.node q.blk).stepping = some q) →
    ∃ t, exec (.ctlBreak q) s = .next t ∧ t = (u.began q tag a d).endCmd q .done ∧ t.ended q .done (if dLast d then none else some (a + 64))) ∧
  (∀ (s : State) (q : QueueRef) (a tag d : Nat) (u : State), Starts s q [0x58] (fun _ _ => true) a tag d u →
    isEdge q.node = false → s.flag F.dbgBrk_ctlbrkEn q.node 0 q.blk = true → (s.queue q).passBreak = false →
    (s.block q.node q.blk).stepping ≠ some q → exec (.ctlBreak q) s = .next (s.holdHead q 0 true (bits d 128 8))) ∧
  (∀ (s : State) (q : QueueRef) (a tag d : Nat) (u : State),
    Starts s q [0x62] (fun s d => s.membersOk (bits d 208 12) && bits d 240 48 % 8 == 0) a tag d u →
    exec (.dveExperts q) s = .next ((u.began q tag a d).runExperts q d)))

/-- COMPLETES: CTL_JUMP, CTL_CALL, CTL_RET, CTL_PREDICATE, CTL_NOP, MXE_CODEBOOK, MXE_BIND_HEFT, CTL_PHASE. The control commands move their queue's walk as R235 says:
CTL_JUMP to its target, CTL_CALL to its target with the address after it pushed, CTL_RET to the address it pops; a command with LAST ends its list. CTL_PREDICATE counts
a loop down or sets it, and its predicate with it. MXE_CODEBOOK holds its 16 bytes under its number and leaves the other codebooks; MXE_BIND_HEFT binds each named slot
to a token tile; CTL_PHASE sets its row of the phase table (R97, R199, R226, R235-R236). Each ends DONE. -/
def Obligations.ControlAndTableCommandsComplete : Prop :=
  ∀ (s : State) (q : QueueRef) (a tag d : Nat) (u : State),
    let next := if dLast d then none else some (a + 64)
    (Starts s q [0x52] (fun _ d => bits d 128 48 % 64 == 0) a tag d u →
      ∃ t, exec (.ctlJump q) s = .next t ∧ t.ended q .done (if dLast d then none else some (bits d 128 48)) ∧ t.blocks = u.blocks) ∧
    (Starts s q [0x53] (fun s d => bits d 128 48 % 64 == 0 && decide ((s.queue q).calls.length < 8)) a tag d u →
      ∃ t, exec (.ctlCall q) s = .next t ∧ t.ended q .done (if dLast d then none else some (bits d 128 48)) ∧ (t.queue q).calls = (a + 64) :: (u.queue q).calls) ∧
    (∀ x rest, Starts s q [0x54] (fun s _ => !(s.queue q).calls.isEmpty) a tag d u → (u.queue q).calls = x :: rest →
      ∃ t, exec (.ctlRet q) s = .next t ∧ t.ended q .done (if dLast d then none else some x) ∧ (t.queue q).calls = rest) ∧
    (Starts s q [0x55] (fun _ d => decide (6 ≤ bits d 132 3) || bits d 144 48 % 8 == 0) a tag d u → 6 ≤ bits d 132 3 →
      let n := if bits d 132 3 = 6 then bits d 192 64 else (u.queue q).loop - 1
      ∃ t, exec (.ctlPredicate q) s = .next t ∧ t.ended q .done next ∧ (t.queue q).loop = n ∧
        bit (t.block q.node q.blk).preds (bits d 128 4) = decide (n ≠ 0)) ∧
    (Starts s q [0x59] (fun _ _ => true) a tag d u → ∃ t, exec (.ctlNop q) s = .next t ∧ t.ended q .done next ∧ t.blocks = u.blocks ∧ SameBytes u t) ∧
    (Starts s q [0x14] (fun _ _ => true) a tag d u → ∃ t, exec (.mxeCodebook q) s = .next t ∧ t.ended q .done next ∧
      Sparse.find? (t.block q.node q.blk).books (bits d 128 3) = some (bits d 256 128) ∧ SameBytes u t ∧
      ∀ k, k ≠ bits d 128 3 → Sparse.find? (t.block q.node q.blk).books k = Sparse.find? (u.block q.node q.blk).books k) ∧
    (Starts s q [0x10] (fun s d => s.bindOk q d) a tag d u → ∃ t, exec (.mxeBindHeft q) s = .next t ∧ t.ended q .done next ∧ SameBytes u t ∧
      ∀ k, if bit (bits d 144 32) k then ∃ x, Sparse.find? (t.block q.node q.blk).binds k = some x ∧ x.tag = dTag d
        else Sparse.find? (t.block q.node q.blk).binds k = Sparse.find? (u.block q.node q.blk).binds k) ∧
    (Starts s q [0x56] (fun _ _ => true) a tag d u → ∃ t, exec (.ctlPhase q) s = .next t ∧ t.ended q .done next ∧ SameBytes u t ∧
      Sparse.find? (t.block q.node q.blk).phases (bits d 128 8) = some ⟨bits d 136 4, bit d 140, bits d 144 4, bits d 148 28⟩ ∧
      ∀ k, k ≠ bits d 128 8 → Sparse.find? (t.block q.node q.blk).phases k = Sparse.find? (u.block q.node q.blk).phases k)

/-- COMPLETES: CTL_WAIT_POLL, CTL_WAIT_LIMIT, CTL_WAIT_TIME_PASSED, COMMAND_COMPLETE. CTL_WAIT reads its word again once its time has come, and ends where the compare holds;
it completes DONE at its panel time, and TIMEOUT at its limit (R226). A command whose work has ended, with no hurdle to signal, completes with its status (R237). -/
def Obligations.CommandsWaitAndComplete : Prop :=
  ((∀ (s : State) (q : QueueRef) (c : InFlight) (t : Nat), (s.queue q).cur = some c → c.status = none → c.wait = .word t → t ≤ s.now →
      exec (.ctlWaitPoll q) s = .next (s.pollWord q c.desc)) ∧
    (∀ (s : State) (q : QueueRef) (c : InFlight), (s.queue q).cur = some c → c.status = none → c.found = .done → c.wait ≠ .none → dOpcode c.desc = 0x51 →
      bits c.desc 384 32 ≠ 0 → c.start + bits c.desc 384 32 * us ≤ s.now → ∃ t, exec (.ctlWaitLimit q) s = .next t ∧ t.ended q .timeout c.after ∧ t.mem = s.mem) ∧
    (∀ (s : State) (q : QueueRef) (c : InFlight), (s.queue q).cur = some c → c.status = none → c.found = .done → c.wait = .time →
      bits c.desc 256 64 ≤ s.timeAt q.node → ∃ t, exec (.ctlWaitTimePassed q) s = .next t ∧ t.ended q .done c.after ∧ t.mem = s.mem)) ∧
  (∀ (s : State) (q : QueueRef) (c : InFlight) (st : Status), q.ok = true → (s.queue q).cur = some c → c.status = some st → dSignal c.desc = 0 →
      exec (.commandComplete q) s = .next (s.finishCmd q c st false))

/-! ## Bridges and routing -/

/-- The arbitration of an output port (R59). Of the heads that compete the one that goes is on channel B before A, then the oldest, then of the lowest input; the class
that weighted round-robin picks has a head packet that its deficit covers, and where some class has a head packet, of at most nine flits, some class is picked, its weight 0
acting as 1: no class starves. -/
def Obligations.FabricArbitration : Prop :=
  (∀ (hs : List (Nat × Head)) (e : Nat × Head), firstHead hs = some e → e ∈ hs ∧ ∀ x ∈ hs, e.2.before x.2 = true) ∧
  (∀ (o : OutPort) (w : List Nat) (len : List (Option Nat)) (c : Nat), (o.wrr w len).1 = some c →
    (o.wrr w len).2.served = c ∧ ∃ k, len.getD c none = some k ∧ k ≤ (o.wrr w len).2.deficit.getD c 0) ∧
  (∀ (s : State) (n : Nat) (o : OutPort) (len : List (Option Nat)), o.deficit.length = 5 → len.length = 5 →
    (∃ c k, len.getD c none = some k) → (∀ c k, len.getD c none = some k → k ≤ 9) → (o.wrr (s.weights n) len).1 ≠ none)

/-- COMPLETES: FLIT_CRC_ERROR, NAK_RESEND, RESENT_FLIT_GOOD, BRIDGE_RETRAIN_DONE. A flit with a bad CRC is held back and asked for again, and the flits after it wait;
four resends, then the bridge retrains; a good resend takes its place in order; retraining ends with the bridge up, and what waited sent again, or down (R64-R65). -/
def Obligations.BridgeLanesComplete : Prop :=
  (∀ (s : State) (node port lane sent received : Nat), hasLane node port lane = true → (s.bridge node port).retraining = false →
    s.width node port ≠ .down → (s.lane node port lane).nak = none → (s.lane node port lane).retry.length < 64 →
    ∃ u : State, exec (.flitCrcError node port lane sent received) s = .next u ∧ (u.lane node port lane).nak = some (s.lane node port lane).expected ∧
      (u.lane node port lane).bad = some received ∧ ((u.lane node port lane).retry.any fun e => e.1 == (s.lane node port lane).expected) = true ∧
      u.mem = s.mem ∧ u.regs = s.regs ∧ u.routers = s.routers) ∧
  (∀ (s : State) (node port lane : Nat), hasLane node port lane = true → (s.lane node port lane).nak.isSome → (s.bridge node port).retraining = false →
    ∃ u : State, exec (.nakResend node port lane) s = .next u ∧ (u.lane node port lane).nak = none ∧ u.mem = s.mem ∧ u.regs = s.regs ∧
      (u.lane node port lane).resends = (if 4 ≤ (s.lane node port lane).resends then 0 else (s.lane node port lane).resends + 1) ∧
      (u.bridge node port).retraining = decide (4 ≤ (s.lane node port lane).resends)) ∧
  (∀ (s : State) (node port lane bad : Nat) (e : Nat × Nat × Nat), hasLane node port lane = true → (s.lane node port lane).bad = some bad →
    (s.lane node port lane).retry.find? (fun e => e.1 == (s.lane node port lane).expected) = some e → (s.lane node port lane).nak = none →
    0 < (s.lane node port lane).resends → (s.bridge node port).retraining = false → (bad = e.2.1 ∨ (s.bridge node port).wires (bridgeGroups node port) = []) →
    ∃ u : State, exec (.resentFlitGood node port lane) s = .next u ∧ u.mem = s.mem ∧ u.regs = s.regs ∧ (u.lane node port lane).bad = none ∧
      (u.lane node port lane).expected = ((s.lane node port lane).expected + 1) % 256 ∧ (u.lane node port lane).resends = 0) ∧
  (∀ (s : State) (node port lane bad : Nat) (e : Nat × Nat × Nat), hasLane node port lane = true → (s.lane node port lane).bad = some bad →
    (s.lane node port lane).retry.find? (fun e => e.1 == (s.lane node port lane).expected) = some e → (s.lane node port lane).nak = none →
    0 < (s.lane node port lane).resends → (s.bridge node port).retraining = false →
    ∃ u : State, exec (.resentFlitGood node port lane) s = .next u ∧ u.mem = s.mem) ∧
  (∀ (s : State) (node port : Nat), (neighbour node port).isSome → (s.bridge node port).retraining = true →
    (∃ u : State, exec (.bridgeRetrainDone node port true) s = .next u ∧ (u.bridge node port).retraining = false ∧ u.mem = s.mem ∧ u.regs = s.regs ∧
      ∀ i, i < laneCount node port → (s.lane node port i).bad.isSome → (u.lane node port i).resends = (s.lane node port i).resends + 1) ∧
    exec (.bridgeRetrainDone node port false) s = .next (s.bridgeDown node port))

/-- COMPLETES: REQUEST_TIMEOUT, SUSPECT_MARK, EPOCH_FLIP, EPOCH_DRAIN_END, MAP_SWITCH. A C2 request unanswered for its timeout completes TIMEOUT at its requester (R70); a
destination reported suspect is probed (R70, R491). A bank flips when its time has come, the drained bank frees 10 us after the flip, and a map change switches every
node at a time of at least 2 us on (R71, R73-R74). -/
def Obligations.TimeoutsAndSwitchesComplete : Prop :=
  ((∀ (s u : State) (node unit txn : Nat) (r : Request), s.takeRequest node unit txn = (some r, u) → r.op.cls = 2 → r.time + s.timeoutOf r ≤ s.now →
      exec (.requestTimeout node unit txn) s = .next ((if inPeer r.addr then u else u.countTimeout r.node r.dest).reply r {
        op := .completion, cls := 1, dest := r.node, src := r.dest, srcUnit := r.unit, txn := r.txn, jobTag := r.tag, addr := r.addr, status := Status.timeout.code,
        injTime := s.timeAt r.node })) ∧
    (∀ (s : State) (node : Nat), node < 182 → s.suspects.contains node = true → s.probes.any (fun p => p.node == node) = false →
      ∃ u : State, exec (.suspectMark node) s = .next u ∧ (∃ p ∈ u.probes, p.node = node ∧ p.since = s.now) ∧ node ∉ u.suspects ∧ u.mem = s.mem)) ∧
  ((∀ (s : State) (node : Nat), node < 182 → (s.router node).flipPending = true → (s.bankState node 0 = 1 ∨ s.bankState node 1 = 1) →
      s.fld F.rtrFlipAt_flipAt node ≤ s.timeAt node → exec (.epochFlip node) s = .next (s.flip node) ∧
        (node ≠ s.master → let new := if s.bankState node 0 = 1 then 0 else 1
          (s.flip node).bankState node new = 2 ∧ (s.flip node).bankState node (1 - new) = 3 ∧ (s.flip node).fld F.rtrEpoch_injEpoch node = new ∧
            ((s.flip node).router node).flipPending = false ∧ (s.flip node).mem = s.mem)) ∧
    (∀ (s : State) (node : Nat), node < 182 → (s.bankState node 0 = 3 ∨ s.bankState node 1 = 3) → s.fld F.rtrFlipAt_flipAt node + 10 * us ≤ s.timeAt node →
      exec (.epochDrainEnd node) s = .next (s.drainEnd node)) ∧
    (∀ (s : State) (t : Nat), s.changes ≠ {} → s.switchBusy = false → (s.hostDuty s.master 0 2 = false ∨ s.changes.tables.isSome) → s.now + 2 * us ≤ t →
      exec (.mapSwitch t) s = .next (s.merge.switchTo t)))

/-! ## Matrix cells -/

/-- COMPLETES: ROUNDS_ROTATION, ROUNDS_TEST_DONE, ROUNDS_WINDOW_END, SLICE_WINDOW_OPEN, RECOMPUTE_DONE. Rounds of the matrix cells (R129-R138), while the core clock runs and
rounds are enabled: a rotation opens a window on the next cell; a test that passes is noted, and what the cell has served before is past (R135); one that fails is
repeated, a second failure in a row classifies the cell; a window ends after 48 us; time-slicing opens one window per slice. A recompute whose results agree is
counted as masked, and the block goes on (R127, R143). -/
def Obligations.MatrixRoundsComplete : Prop :=
  (∀ (s : State) (node blk : Nat), isRegion node = true → blk < 4 → s.roundsRun node blk = true → s.flag F.mxcRoundsStat_sliced node blk = false →
    (s.block node blk).roundStart + ((s.block node blk).rotations + 1) * (64 * us) ≤ s.now → (s.block node blk).passed = true →
    (s.block node blk).recomputes = [] →
    ∃ u : State, exec (.roundsRotation node blk) s = .next u ∧ (u.block node blk).rotations = (s.block node blk).rotations + 1 ∧
      (u.block node blk).window = some s.now ∧ (u.block node blk).passed = false ∧ u.mem = s.mem ∧
      u.outCell node blk = (((s.nextMatCell node blk (s.outCell node blk)).map (·.1)).getD (s.outCell node blk)) % 2 ^ F.mxcRoundsStat_outCell.width ∧
      (u.outCell node blk < 33 → u.outState node blk = 1)) ∧
  (∀ (s : State) (node blk sig : Nat), isRegion node = true → blk < 4 → s.roundsRun node blk = true → s.outState node blk = 1 →
    (s.block node blk).passed = false →
    (∃ u : State, exec (.roundsTestDone node blk true sig) s = .next u ∧ (u.block node blk).passed = true ∧ (u.block node blk).failedOnce = false ∧ u.mem = s.mem ∧
      (s.outCell node blk < 33 → (∀ x ∈ (s.block node blk).recomputes, x.helper ≠ s.outCell node blk) → u.outState node blk = 2) ∧
      ∀ r ∈ (u.block node blk).runs, s.outCell node blk ∉ r.cells) ∧
    ((s.block node blk).failedOnce = false → ∃ u : State, exec (.roundsTestDone node blk false sig) s = .next u ∧ (u.block node blk).failedOnce = true ∧ u.mem = s.mem ∧
      u.fld F.mxcRoundsStat_testFails node blk = min (s.fld F.mxcRoundsStat_testFails node blk + 1) (2 ^ F.mxcRoundsStat_testFails.width - 1)) ∧
    ((s.block node blk).failedOnce = true → exec (.roundsTestDone node blk false sig) s = .next (((s.bump F.mxcRoundsStat_testFails node blk 0).error
      (cellSite node blk (s.outCell node blk)) 6 .ce 0 sig).cellFaulty node blk (s.outCell node blk) .ce 2 true))) ∧
  (∀ (s : State) (node blk t : Nat), isRegion node = true → blk < 4 → (s.block node blk).window = some t → s.roundsRun node blk = true →
    (s.block node blk).passed = true → s.outState node blk ≠ 3 → t + 48 * us ≤ s.now →
    exec (.roundsWindowEnd node blk) s = .next (s.closeWindow node blk) ∧ ((s.closeWindow node blk).block node blk).window = none) ∧
  (∀ (s : State) (node blk : Nat) (x : Nat × Bool), isRegion node = true → blk < 4 → s.roundsRun node blk = true → s.flag F.mxcRoundsStat_sliced node blk = true →
    (s.block node blk).window = none → ((s.block node blk).slices + 1) * (2112 * us) ≤ (s.now - (s.block node blk).sliceStart) * (s.cellOrder node blk).length →
    (s.block node blk).recomputes = [] → s.nextMatCell node blk (s.block node blk).sliceNext = some x →
    ∃ u : State, exec (.sliceWindowOpen node blk) s = .next u ∧ (u.block node blk).slices = (s.block node blk).slices + 1 ∧
      (u.block node blk).window = some s.now ∧ (u.block node blk).sliceNext = x.1 ∧ u.outCell node blk = x.1 % 2 ^ F.mxcRoundsStat_outCell.width ∧ u.mem = s.mem) ∧
  (∀ (s : State) (node blk : Nat) (x : Recompute) (rest : List Recompute), isRegion node = true → blk < 4 → (s.block node blk).recomputes = x :: rest →
    (∀ again, ∃ u : State, exec (.recomputeDone node blk again) s = .next (u.matrixTick node blk)) ∧
    ∃ u : State, exec (.recomputeDone node blk []) s = .next ((u.chargeCell node blk x.cell .ce).matrixTick node blk) ∧ u.fld F.mxcResidue_lastMasked node blk = 1)

/-- The residue unit's check (R126): it passes on every segment that nothing has disturbed, and on one that an upset has moved exactly where S and R moved alike
modulo 15. -/
def Obligations.ResidueCheck : Prop :=
  ∀ ps : List (Elem × Elem × Bool), residueOk ps 0 0 = true ∧ residue ps = exactSum ps % 15 ∧
    ∀ (err : Int) (res : Nat), residueOk ps err res = true ↔ (err - res) % 15 = 0

/-! ## Launches, the scalar cell and control cores -/

/-- COMPLETES: GROUP_PLACE, LAUNCH_END. Groups of a launch are placed while there is room, a waiting launch starts when it may, and a launch whose groups have all ended
completes DONE or POISONED (R148-R151, R167). -/
def Obligations.LaunchesComplete : Prop :=
  (∀ (s : State) (q : QueueRef) (l : Launch) (c : InFlight), q.ok = true → s.launchOf q = some l → (s.queue q).cur = some c → s.vecRuns q.node q.blk = true →
    (∀ p t, l.started = true → s.placeable q.node q.blk l = some (p, t) →
      exec (.groupPlace q) s = .next (s.placeGroup q.node q.blk l p t) ∧ (s.placeGroup q.node q.blk l p t).mem = s.mem ∧
        ((s.placeGroup q.node q.blk l p t).block q.node q.blk).groups = (s.block q.node q.blk).groups ++ [⟨l.id, l.placed, p, t, l.granules, l.lmem⟩]) ∧
    (l.started = false → (s.block q.node q.blk).mayStart l (lSx c.desc) = true →
      exec (.groupPlace q) s = .next ((s.startLaunch q.node q.blk l (lSx c.desc)).placeAll q.node q.blk l.id 1))) ∧
  (∀ (s : State) (q : QueueRef) (l : Launch) (c : InFlight), q.ok = true → s.launchOf q = some l → (s.queue q).cur = some c → l.started = true →
    lSx c.desc = false → l.fault = none → l.ended = l.groups → l.q = q → c.status = none → c.found = .done →
    ∃ u : State, exec (.launchEnd q) s = .next u ∧ u.mem = s.mem ∧ u.ended q (if l.poisoned then .poisoned else .done) c.after ∧
      (u.block q.node q.blk).launches.all (fun x => x.id != l.id) = true)

/-- COMPLETES: VECTOR_ROUNDS_TEST, VECTOR_TEST_DONE, SX_ROUNDS_TEST. Rounds of the vector cells (R170-R171), while the core clock runs and rounds are enabled: a cell that a
mismatch named, else the next cell at its time, is tested; the test ends with the cell back in service, tested again, or classified after two failures in a row. The
scalar cell is tested while no program runs on it (R178; a failed test of it counts in no field of the vector cells, the model's choice, log entry 122).
COMPLETES: SX_INSTRUCTION, SX_TRAP, SX_ECALL, SX_HARRIVE, SX_HWAITC. The scalar cell's next instruction runs as the row of its kind: it goes on, traps, ends the program
once its stores are complete, arrives at a hurdle or waits for one (R176-R178, R233; the instruction set's own semantics are PRESUMED, log entry 13). -/
def Obligations.VectorRoundsAndScalarCellComplete : Prop :=
  ((∀ (s : State) (node blk : Nat), isRegion node = true → blk < 4 → s.clocked node blk = true → s.flag F.vxcCtrl_roundsEnable node blk = true →
    s.fld F.vxcStat_testCell node blk = 15 →
    (∀ c rest, (s.block node blk).vecQueue = c :: rest → c < 16 → ∃ u : State, exec (.vectorRoundsTest node blk) s = .next u ∧ u.mem = s.mem ∧
      u.fld F.vxcStat_testCell node blk = c ∧ (u.block node blk).vecQueue = rest) ∧
    (∀ c w, (s.block node blk).vecQueue = [] → s.nextVecCell node blk = some (c, w) → c < 16 →
      (s.block node blk).vecStart + (s.block node blk).vecTests * (640 * us) ≤ s.now →
      ∃ u : State, exec (.vectorRoundsTest node blk) s = .next u ∧ u.mem = s.mem ∧ u.fld F.vxcStat_testCell node blk = c ∧ (u.block node blk).vecLast = some c ∧
        (u.block node blk).vecTests = (s.block node blk).vecTests + 1)) ∧
  (∀ (s : State) (node blk : Nat), isRegion node = true → blk < 4 → s.clocked node blk = true → s.fld F.vxcStat_testCell node blk ≠ 15 →
    (∃ u : State, exec (.vectorTestDone node blk true) s = .next u ∧ u.fld F.vxcStat_testCell node blk = 15 ∧ (u.block node blk).vecFailedOnce = false ∧ u.mem = s.mem) ∧
    ((s.block node blk).vecFailedOnce = false → ∃ u : State, exec (.vectorTestDone node blk false) s = .next u ∧
      (u.block node blk).vecFailedOnce = true ∧ u.fld F.vxcStat_testCell node blk = s.fld F.vxcStat_testCell node blk ∧ u.mem = s.mem) ∧
    ((s.block node blk).vecFailedOnce = true → ∃ u : State, exec (.vectorTestDone node blk false) s = .next (u.classified node (pageOf .vxc node blk) 10
        (.vectorCell node blk (s.fld F.vxcStat_testCell node blk) 2) fun u => u.retireVecCell node blk (s.fld F.vxcStat_testCell node blk) 2) ∧
      u.fld F.vxcStat_testCell node blk = 15 ∧ u.mem = s.mem)) ∧
  (∀ (s : State) (node blk : Nat), isRegion node = true → blk < 4 → s.clocked node blk = true → (s.block node blk).sx = none →
    exec (.sxRoundsTest node blk true) s = .next (s.modBlock node blk fun b => { b with sxTested := s.now, sxFailedOnce := false }) ∧
    ((s.block node blk).sxFailedOnce = false → ∃ u : State, exec (.sxRoundsTest node blk false) s = .next u ∧ (u.block node blk).sxFailedOnce = true ∧ u.mem = s.mem ∧
      u.fld F.vxcStat_testFails node blk = s.fld F.vxcStat_testFails node blk) ∧
    ((s.block node blk).sxFailedOnce = true → ∃ u : State, exec (.sxRoundsTest node blk false) s = .next (u.classified node (pageOf .vxc node blk) 11
        (.block node blk (pageOf .vxc node blk) 11 2) fun u => u.toRetire (.block node blk (pageOf .vxc node blk) 11 2)) ∧
      (u.block node blk).sxTested = s.now ∧ u.mem = s.mem))) ∧
  (∀ (s : State) (node blk : Nat) (x : Scalar) (l : Launch), isRegion node = true → blk < 4 → s.sxReady node blk = some (x, l) →
    (∀ (u : State) (y : Scalar), s.sxStep node blk l x = .goes u y → exec (.sxInstruction node blk) s = .next (u.setSx node blk y)) ∧
    (∀ (u : State) (bad : Bool), s.sxStep node blk l x = .traps u bad → exec (.sxTrap node blk) s = .next (u.sxTrap node blk l x.pc bad)) ∧
    (s.sxStep node blk l x = .ecall → x.writes = 0 → exec (.sxEcall node blk) s = .next (s.endLaunch node blk l .done 0)) ∧
    (∀ (id : Nat) (y : Scalar), s.sxStep node blk l x = .harrive id y → x.writes = 0 → hurdleOk false id = true → s.hurdleKnown node blk l.tag id = true →
      s.judgeArrival node blk l.tag id (x.gen l false id) = .admitted →
      let z := s.setSx node blk { y with arrivals := Sparse.upd 0 y.arrivals id (· + 1) }
      exec (.sxHarrive node blk) s = .next (((({ z with freeCount := s.freeCount + 1 } : State).hurdleEvent l.q 0x08 l.tag id
        (x.gen l false id)).arriveHurdle node blk l.tag id
        (x.gen l false id) false).wakeNode node)) ∧
    (∀ (id : Nat) (y : Scalar), s.sxStep node blk l x = .hwaitc id y → hurdleOk false id = true → s.hurdleKnown node blk l.tag id = true →
      let z := s.setSx node blk { y with waits := Sparse.upd 0 y.waits id (· + 1), park := .hurdle id (x.gen l true id) }
      exec (.sxHwaitc node blk) s = .next ((({ z with freeCount := s.freeCount + 1 } : State).hurdleEvent l.q 0x09 l.tag id (x.gen l true id)).wakeScalar node blk)))

/-- COMPLETES: LOCKSTEP_MISMATCH, TASK_POST, TASK_DONE. A control core whose two lanes disagree stops: nothing of its block is in flight any more (R181). A hub accepts a task
into its ring where its poster has credit, and refuses and counts it where not; a fall-back core that runs completes a task: it leaves the ring, its completion word
is written and its hurdle takes the arrival (R184, R419). -/
def Obligations.ControlCoresAndTasksComplete : Prop :=
  (∀ (s : State) (node blk : Nat), isRegion node = true → blk < 4 → s.goesOn node (pageOf .blk node blk) = true → (s.block node blk).stopped = false →
    ∃ u : State, exec (.lockstepMismatch node blk) s = .next u ∧ u = s.lockstepFault node blk ∧ u.mem = s.mem ∧ (u.block node blk).stopped = true ∧
      (u.block node blk).runs = [] ∧ (u.block node blk).launches = [] ∧ (u.block node blk).threads = [] ∧ (u.block node blk).sx = none ∧
      ∀ q ∈ unitQueues node blk, (u.queue q).cur = none) ∧
  (∀ (s : State) (hub tag b : Nat) (poster : Option QueueRef), isHub hub = true →
    (∀ q, poster = some q → q.ok = true ∧ isRegion q.node = true ∧ s.unitRuns q = true ∧ (s.queue q).tag = some tag) → bits b 208 6 = tag →
    (s.tasksOf hub poster < (if poster.isSome then 2 else 512) →
      ∃ (u : State) (g : Nat), exec (.taskPost hub poster tag b) s = .next u ∧ u.tasks = s.tasks ++ [⟨hub, taskRecord b, poster, g, false⟩] ∧ u.mem = s.mem) ∧
    ((if poster.isSome then 2 else 512) ≤ s.tasksOf hub poster → exec (.taskPost hub poster tag b) s =
      .next { s with taskRefusals := Sparse.upd 0 s.taskRefusals hub (· + 1) })) ∧
  (∀ (s : State) (hub core place st : Nat) (t : Task), isHub hub = true → core < 8 → (s.tasks.filter (·.hub == hub))[place]? = some t →
    s.flag F.hubFbctrl_run hub 0 core = true → t.hurdle = 0 →
    (t.dispatch = false → exec (.taskDone hub core place st) s = .next (s.endTask t core (st % 16)) ∧ (s.endTask t core (st % 16)).tasks = s.tasks.erase t) ∧
    (∀ q, t.dispatch = true → t.poster = some q → ∃ u : State, exec (.taskDone hub core place st) s = .next (u.resumeDispatch q (st % 16 == 0)) ∧
      u.tasks = s.tasks.erase t))

/-! ## Block memory and pens -/

/-- COMPLETES: SCRUB_SLOT, PEN_WAIT_EXPIRY, HOLDER_WAIT_EXPIRY, PEN_REVOKE. The scrubber reads its slot's row at its time and goes on to the next; after the last one a pass
is counted (R194). A pen request that has waited its time is refused PEN_FULL unless the round can serve it; a holder's that waits to be sent is refused after its own
time and counted; pens that outlast a drain by 100 us are revoked (R202, R204, R208).
COMPLETES: PEN_UNIT_ZEROED. Free pool units that still hold data are zeroed, and no other byte changes (R207). -/
def Obligations.ScrubbingAndPenExpiriesComplete : Prop :=
  ((∀ (s : State) (node blk : Nat), isRegion node = true → blk < 4 → s.works node blk = true →
      (s.block node blk).scrubStart + 30 * us * (s.block node blk).scrubSlot ≤ s.now →
      ∃ u : State, exec (.scrubSlot node blk) s = .next u ∧ (s.mem.latent = [] → u.mem = s.mem) ∧
        (u.block node blk).scrubSlot = (if (s.block node blk).scrubSlot = 2047 then 0 else (s.block node blk).scrubSlot + 1)) ∧
  ((∀ (s : State) (node blk src txn : Nat) (w : PenWait), isRegion node = true → blk < 4 →
      (s.penUnit node blk).pending.find? (fun w => w.pkt.src == src && w.pkt.txn == txn) = some w →
      w.arrived + max 1 (s.fld F.blkPenCfg_waitNs node blk) * ns ≤ s.now →
      ∃ u : State, exec (.penWaitExpiry node blk src txn) s = .next u ∧ w ∉ (u.penUnit node blk).pending) ∧
    (∀ (s : State) (node unit : Nat) (w : HolderWait) (rest : List HolderWait), isRegion node = true → unit < 4 →
      (s.holderUnit node unit).waiting = w :: rest → w.since + max 1 (s.fld F.blkPenCfg_waitNs node unit) * ns ≤ s.now →
      ∃ u : State, exec (.holderWaitExpiry node unit) s = .next u ∧ u.mem = s.mem ∧ (u.holderUnit node unit).waiting = rest) ∧
    (∀ (s : State) (node unit : Nat) (w : HolderWait) (rest : List HolderWait), isHub node = true →
      (s.holderUnit node unit).waiting = w :: rest → w.since + 2000 * ns ≤ s.now →
      ∃ u : State, exec (.holderWaitExpiry node unit) s = .next u ∧ u.mem = s.mem ∧ (u.holderUnit node unit).waiting = rest) ∧
    (∀ (s : State) (node blk t : Nat), isRegion node = true → blk < 4 → (s.penUnit node blk).drainStart = some t → (s.penUnit node blk).pens ≠ [] →
      t + 100 * us ≤ s.now → ∃ u : State, exec (.penRevoke node blk) s = .next u ∧ u = s.penRevoke node blk .targetResetting ∧ u.mem = s.mem ∧
        (u.penUnit node blk).revoked = (s.penUnit node blk).revoked ++ (s.penUnit node blk).pens ∧ (u.penUnit node blk).pens = []))) ∧
  (∀ (s : State) (node blk : Nat), isRegion node = true → blk < 4 → s.unit node (pageOf .blk node blk) = .running →
    let free := fun (i : Nat) => decide (s.poolBase node blk / 4096 ≤ i) && decide (i < 1536) && unitFree (s.penUnit node blk).pens i &&
      (Sparse.find? (s.penUnit node blk).lastTag i).isNone
    (∃ i, free i = true) →
    ∃ u : State, exec (.penUnitZeroed node blk) s = .next u ∧
      (∀ i k, free i = true → k < 4096 → u.mem.byte (blkKeyAt node blk (i * 4096) + k) = 0) ∧
      (∀ a, (∀ i, free i = true → a < blkKeyAt node blk (i * 4096) ∨ blkKeyAt node blk (i * 4096) + 4096 ≤ a) → u.mem.byte a = s.mem.byte a))

/-! ## Droves, the job engine and its queues -/

/-- COMPLETES: STREAM_STALL_TIMEOUT, TALLY_TABLE_FINAL, TALLY_RECORD. A stream whose line buffers are not freed for STALL_LIMIT fails TIMEOUT and names the slowest node
(R251); the tally table's hurdle releases, and the experts' streams are decided, by the host's list where it has that duty (R298-R301). A tally record goes to its job's
ring and the next one takes the next place (R531). -/
def Obligations.DroveEventsComplete : Prop :=
  (∀ (s : State) (node seq : Nat) (x : Stream), isEdge node = true →
      (s.drove node).streams.find? (fun x => x.seq == seq && x.waiting && !x.gone) = some x →
      x.lastLine + max 1 (s.fld F.drvCfg_stallLimit node) * 10 * us ≤ s.now →
      exec (.streamStallTimeout node seq) s = .next ((((s.put F.drvPace_slowNode node 0 0 (((s.drove node).holders x).headD 0xFF)).failStream
        node x .timeout).showDrove node).droveRun node)) ∧
  (∀ (s : State) (node id g : Nat) (e : Experts), isEdge node = true → (s.drove node).experts = some e → e.decided = false →
      s.asks.any (fun a => a.what == .droves node) = false → s.assists.any (fun a => a.what == .droves node) = false → e.waitGen = some (id, g) →
      s.released e.q.node 0 e.tag id g = some .done →
      (s.hostDuty node (pageOf .drv node 0) 4 = false → exec (.tallyTableFinal node) s = .next (s.decideExperts node none)) ∧
      (s.hostDuty node (pageOf .drv node 0) 4 = true → exec (.tallyTableFinal node) s =
        .next (s.ask 4 node (pageOf .drv node 0) e.table 0 (.droves node)))) ∧
  (∀ (s : State) (r : TallyRec) (rest : List TallyRec), s.intake = r :: rest →
      ∃ u : State, exec .tallyRecord s = .next ((u.wakeTally r.node r.blk).jobSettle r.tag) ∧ u.intake = rest ∧
        ∀ j, s.job? r.tag = some j → 0 < j.tallyEntries → ∃ j', u.job? r.tag = some j' ∧ j'.tallySeq = j.tallySeq + 1)

/-- COMPLETES: JBE_SUBMIT, JBE_ABORT, JBE_QUERY. The job engine takes the oldest accepted descriptor: it submits a job, or answers why not; aborts one; or answers a query
with its record (R239, R241-R243). A malformed one is answered ACCESS_FAULT. -/
def Obligations.JobEngineComplete : Prop :=
  ∀ (s : State) (f : Fetched) (rest : List Fetched), s.jbe = f :: rest →
    let s' : State := { s with jbe := rest }
    let t := bits f.desc 128 6
    let out := bits f.desc 176 48
    (dOpcode f.desc = 0x70 → exec .jbeSubmit s = .next (s'.submit f)) ∧
    (∀ st, dOpcode f.desc = 0x70 → s'.submitRefused f.desc = some st → ∃ u : State, exec .jbeSubmit s = .next u ∧ u = s'.cqAnswer f 0 (dTag f.desc) st ∧
      u.jobs = s.jobs ∧ u.hefts = s.hefts ∧ u.queues = s.queues) ∧
    (dOpcode f.desc = 0x71 → jbeOk f.desc = true → exec .jbeAbort s = .next ((s'.cqAnswer f 2 t .done).abortJob t .targetResetting)) ∧
    (dOpcode f.desc = 0x71 → jbeOk f.desc = false → exec .jbeAbort s = .next (s'.cqAnswer f 2 t .accessFault)) ∧
    (dOpcode f.desc = 0x72 → jbeOk f.desc = true → out % 64 = 0 →
      exec .jbeQuery s = .next ((s'.putBytes (s'.jobEngine t) out (leBytes 64 (s'.jobRecord t))).2.cqAnswer f 3 t
        (s'.putBytes (s'.jobEngine t) out (leBytes 64 (s'.jobRecord t))).1))

/-- COMPLETES: SQ_DOORBELL, CQ_DOORBELL, SQ_FETCH, SQ_DESCRIPTOR, CQ_ENTRY_WRITE. Submission and completion queues (R379-R383): an aligned write of a doorbell gives its queue
a new tail or head, and a misaligned one is refused; the hub fetches from the next queue that is ready, up to 8 descriptors; a descriptor of an admitted tag joins the
job engine's queue; an entry is written where its ring has room, else held. -/
def Obligations.HostQueuesComplete : Prop :=
  (∀ (s : State) (hub tag off n : Nat) (data : Option (List Byte)), isHub hub = true → bar4Fits off n data = true →
    (off < 0x10000 → exec (.sqDoorbell hub tag off n data) s = .next (s.bar4 hub tag off n data)) ∧
    (0x10000 ≤ off → exec (.cqDoorbell hub tag off n data) s = .next (s.bar4 hub tag off n data)) ∧
    (∀ bs, data = some bs → s.barsUp hub = true → off % 0x1000 = 0 → off < 0x20000 → 4 ≤ n → off % n = 0 →
      (off < 0x10000 → exec (.sqDoorbell hub tag off n data) s = .next ((s.wakeEvent 2 (off / 0x1000 + 2048 * (hub - 180))).newTail hub (off / 0x1000) (leNat bs))) ∧
      (0x10000 ≤ off → exec (.cqDoorbell hub tag off n data) s =
        .next ((s.wakeEvent 2 (off / 0x1000 + 2048 * (hub - 180))).newHead hub (off / 0x1000 - 16) (leNat bs)))) ∧
    (data.isSome → s.barsUp hub = true → off % n ≠ 0 → off < 0x10000 → exec (.sqDoorbell hub tag off n data) s = .next (s.hostRefused hub off .misaligned))) ∧
  (∀ (s : State) (hub q : Nat), isHub hub = true →
    ((List.range 16).map fun i => (Sparse.get 15 s.sqLast hub + 1 + i) % 16).find? (s.sqReady hub) = some q →
    ∃ u : State, exec (.sqFetch hub) s = .next u ∧ Sparse.get 15 u.sqLast hub = q ∧ u.fetched.length = s.fetched.length + min 8 (s.sqPending hub q)) ∧
  (∀ (s : State) (f : Fetched) (rest : List Fetched), s.fetched = f :: rest → f.read = .done →
    (dOpcode f.desc = 0x70 ∨ dOpcode f.desc = 0x71 ∨ dOpcode f.desc = 0x72) → bit (s.fld F.hubSqtag_tagMask f.hub 0 f.sq) (dTag f.desc) = true →
    ∃ u : State, exec .sqDescriptor s = .next u ∧ u.fetched = rest ∧ u.jbe = s.jbe ++ [{ f with head := (f.index + 1) % s.sqSize f.hub f.sq }] ∧
      u.mem = s.mem) ∧
  (∀ (s : State) (hub q : Nat) (e : CqEntry), isHub hub = true → q < 16 → s.cqNext hub q = some e → s.flag F.hubCqcfg_enable hub 0 q = true →
    s.ringServed hub (s.fld F.hubCqcfg_base hub 0 q) = true →
    (s.cqFull hub q = false → exec (.cqEntryWrite hub q) s = .next (if ((s.cqPut hub q e).cqNext hub q).isNone then
      (s.cqPut hub q e).put F.hubCqstat_full hub 0 q 0 else s.cqPut hub q e)) ∧
    (s.cqFull hub q = true → s.flag F.hubCqstat_full hub 0 q = false → exec (.cqEntryWrite hub q) s = .next (s.cqHold hub q)))

/-! ## Stacks -/

/-- COMPLETES: STACK_TEMP_READ, STACK_SCRUB_PASS, SCRUB_AT_RISK, STACK_FAIL, STACK_TRAIN_FALLBACK. A stack's temperature is read at most once a millisecond and shown; its scrub passes follow one another, a pass at risk is forced; a stack fails once; its
training ends at the lower rate or in failure (R311, R320-R322, R325). -/
def Obligations.StackEventsComplete : Prop :=
  (∀ (s : State) (st temp : Nat), st < 24 → s.fld F.hbmStat_state (156 + st) ≠ 0 → temp < 256 →
    (∀ t, (s.stack st).read = some t → t + ms ≤ s.now) →
    ∃ u : State, exec (.stackTempRead st temp) s = .next u ∧ u.fld F.hbmStat_temp (156 + st) = temp ∧ (u.stack st).read = some s.now ∧
      (stackLimit 3 < temp → u.fld F.hbmStat_therm (156 + st) = 3) ∧ u.fld F.hbmScrub_odeccCount (156 + st) =
        min 65535 (s.fld F.hbmScrub_odeccCount (156 + st) + (Config.freeWord s.freeCount).toNat) ∧ u.mem = s.mem) ∧
  (∀ (s : State) (st : Nat), st < 24 → s.fld F.hbmStat_state (156 + st) = 2 →
    (∀ t, (s.stack st).pass = some t → t + s.passTime + s.passExtra st ≤ s.now) →
    ∃ u : State, exec (.stackScrubPass st) s = .next u ∧ (u.stack st).pass = some s.now ∧ u.fld F.hbmScrub_progress (156 + st) = 0) ∧
  (∀ (s : State) (st done t : Nat), st < 24 → done ≤ stackSize / 32 → (s.stack st).pass = some t → s.fld F.hbmStat_state (156 + st) = 2 →
    s.flag F.hbmScrub_forced (156 + st) = false → s.fld F.hbmScrub_progress (156 + st) ≤ done →
    (t + s.passTime + s.passExtra st - s.now) * 512 ≤ (stackSize - 32 * done) * 100 + 10 * sec * 512 →
    exec (.scrubAtRisk st done) s = .next ((s.put F.hbmScrub_progress (156 + st) 0 0 done).put F.hbmScrub_forced (156 + st) 0 0 1)) ∧
  (∀ (s : State) (st : Nat), st < 24 → s.stackFailed st = false →
    (s.fld F.hbmStat_state (156 + st) = 1 → exec (.stackFail st .training) s = .next (s.failStack st .training 0)) ∧
    (s.fld F.hbmStat_state (156 + st) ≠ 0 → ∃ u : State, exec (.stackFail st .stopped) s = .next (u.failStack st .stopped 0) ∧ u.mem = s.mem) ∧
    (∀ c, s.retiring.find? (fun r => match r with | .stack k _ => k == st | _ => false) = some (.stack st c) →
      exec (.stackFail st .classified) s = .next ({ s with retiring := s.retiring.erase (.stack st c) }.failStack st .classified c))) ∧
  (∀ (s : State) (st : Nat), st < 24 → s.fld F.hbmStat_state (156 + st) = 1 →
    (∃ u : State, exec (.stackTrainFallback st true) s = .next u ∧ u.fld F.hbmStat_state (156 + st) = 2 ∧ u.flag F.hbmStat_rate6g4 (156 + st) = true ∧
      u.mem = s.mem) ∧
    exec (.stackTrainFallback st false) s = .next (s.failStack st .training 0))

/-! ## Links -/

/-- COMPLETES: LINK_WAKE_EVENT, TRAINING_DONE, ALIGN_DONE, EXCHANGE, LINK_DOWN, LANE_RETIRE, LINGER_EXPIRY, WAKE_LIMIT_EXPIRY, KNOCK_SEND. A bundle's way to UP and out of it
(R338-R343): a wake trains it, training and alignment lead to EXCHANGE or back, an EXCHANGE that fits the
peer's brings it up, a loss or a lane fault takes it down, LINGER and WAKE_LIMIT expire, and a knock is sent at most every 32 us. -/
def Obligations.LinkStatesComplete : Prop :=
  ∀ (s : State) (node b : Nat), isBundle node b = true →
    (s.linkState node b = .listen ∨ s.linkState node b = .linger →
      exec (.linkWakeEvent node b .signal) s = .next ((s.wakeEvent 1 (8 * (node - 156) + b)).startTraining node b)) ∧
    (s.linkState node b = .listen → s.ethernet node b = false →
      exec (.linkWakeEvent node b .knock) s = .next ((s.wakeEvent 1 (8 * (node - 156) + b)).startTraining node b)) ∧
    (s.linkState node b = .listen → (s.link node b).queue ≠ [] → exec (.linkWakeEvent node b .queued) s = .next (s.startTraining node b)) ∧
    (s.linkState node b = .train → (s.link node b).asking = false →
      exec (.trainingDone node b true) s = .next (s.setLinkState node b .align) ∧
      exec (.trainingDone node b false) s = .next (if (s.link node b).full then (s.modLink node b fun x => { x with saved := false }).restLink node b
        else s.fullTraining node b)) ∧
    (s.linkState node b = .align →
      exec (.alignDone node b true) s = .next ((s.put F.lnkStat_half node 0 b (b2n (s.lanesOk node b != 255))).setLinkState node b .exchange) ∧
      exec (.alignDone node b false) s = .next (s.fullTraining node b)) ∧
    (∀ peer inc session last lanes mode, s.linkState node b = .exchange → peer < 0xFFF → s.panelId ≠ 0xFFF → peer ≠ s.panelId →
      mode % 2 = s.fld F.lnkCtrl_mode node 0 b → s.widthOk node b (Nat.land (s.lanesOk node b) lanes) = true →
      exec (.exchange node b peer inc session last lanes mode) s = .next ((s.put F.lnkStat_half node 0 b
        (b2n (Nat.land (s.lanesOk node b) lanes != 255))).exchangeOutcome node b peer inc (session % 2 ^ 16) (last % 2 ^ 24))) ∧
    (s.linkState node b = .up → exec (.linkDown node b .signal) s = .next (s.flap node b 0) ∧ exec (.linkDown node b .codewords) s = .next (s.flap node b 1) ∧
      (8 ≤ (s.link node b).resent → exec (.linkDown node b .resends) s = .next (s.flap node b 2))) ∧
    (∀ peer inc session last lanes mode, s.linkState node b = .exchange → peer < 4096 →
      (peer = 0xFFF ∨ s.panelId = 0xFFF ∨ peer = s.panelId ∨ mode % 2 ≠ s.fld F.lnkCtrl_mode node 0 b ∨ s.widthOk node b (Nat.land (s.lanesOk node b) lanes) = false) →
      exec (.exchange node b peer inc session last lanes mode) s = .next ((s.error (linkSite node b) 22 .ce 0 peer).setLinkState node b .listen)) ∧
    (∀ lane, lane < 8 → s.linkState node b = .up → s.ethernet node b = false → bit (s.lanesOk node b) lane = true →
      exec (.laneRetire node b lane) s = .next (s.laneFault node b lane)) ∧
    (∀ t, (s.link node b).linger = some t → t + s.fld F.lnkCtrl_lingerMs node 0 b * ms ≤ s.now →
      exec (.lingerExpiry node b) s = .next ((if s.linkState node b = .linger then s.setLinkState node b .listen else s).lingerOut node b)) ∧
    (∀ t, (s.link node b).wakeSince = some t → s.linkState node b ≠ .up → t + max 1 (s.fld F.lnkCtrl_wakeLimit node 0 b) * (10 * ms) ≤ s.now →
      exec (.wakeLimitExpiry node b) s = .next (s.lingerOut node b)) ∧
    ((s.link node b).down = true → (s.link node b).queue ≠ [] → s.linkState node b ≠ .up → s.ethernet node b = false →
      (∀ t, (s.link node b).knock = some t → t + 32 * us ≤ s.now) →
      exec (.knockSend node b) s = .next ((s.setLink node b { s.link node b with knock := some s.now }).say (.knock node b)))

/-- COMPLETES: DATA_FRAME, IDLE_FRAME, HURDLE_FRAME, PACE_FRAME, TIME_FRAME, DOWN_FRAME, FRAME_NAK, ACK_TIMEOUT, ETH_DATAGRAM. Frames at a bundle that is UP (R333-R337): each good one of its kind is taken; sequenced ones are delivered in order; a bad one is asked for again;
unacknowledged frames are sent again.
An Ethernet datagram of the peer's incarnation has its frames taken one by one; any other is dropped whole (R345). -/
def Obligations.FramesAndDatagramsComplete : Prop :=
  (∀ (s : State) (node b : Nat) (f : Frame), isBundle node b = true → s.linkState node b = .up →
      (f.crcOk = true → f.nak = false →
        (∀ c ps, f.body = .data c ps → 1 ≤ c → c ≤ 5 → ps.all (fun p => p.pkt.cls == c) = true →
          exec (.dataFrame node b f) s = .next (s.takeSequenced node b f fun s => s.deliverAll node b c ps)) ∧
        (f.body = .idle → exec (.idleFrame node b f) s = .next (s.takeFields node b f)) ∧
        (∀ dest src tag m, f.body = .hurdle dest src tag m → exec (.hurdleFrame node b f) s = .next (s.takeSequenced node b f fun s =>
          if dest = s.panelId then s.cascadeMsg src tag m else s.tellPanel dest f.body)) ∧
        (∀ dest src tag m, f.body = .pace dest src tag m → exec (.paceFrame node b f) s = .next (s.takeSequenced node b f fun s =>
          if dest = s.panelId then s.paceMsg src tag m else s.tellPanel dest f.body)) ∧
        (∀ d src t1 t2 t3 t4, f.body = .time d src t1 t2 t3 t4 → s.flag F.lnkCtrl_mode node 0 b = false →
          exec (.timeFrame node b f) s = .next ((s.takeFields node b f).modLink node b fun x => { x with time := some (d, src) })) ∧
        (f.body = .down → exec (.downFrame node b f) s = .next (s.takeSequenced node b f fun s => s.takeDown node b))) ∧
      ((f.crcOk = false ∨ f.body = .reserved) → exec (.frameNak node b f) s = .next (s.ackNow node b true)) ∧
      (f.crcOk = true → f.body ≠ .reserved → f.nak = true → (s.link node b).resent < 8 →
        exec (.frameNak node b f) s = .next ((s.takeFields node b f).resend node b)) ∧
      ((s.link node b).retry ≠ [] → (s.link node b).resent < 8 →
        (s.link node b).ackAt + max 1 (s.fld F.lnkCtrl_ackTimeout node 0 b) * us ≤ s.now → exec (.ackTimeout node b) s = .next (s.resend node b))) ∧
  (∀ (s : State) (node b : Nat) (d : Datagram) (good : Bool), isBundle node b = true → s.ethernet node b = true → s.linkState node b = .up →
      (good = true → s.vlanOk node b d = true → d.magic = 0xD41E → d.reserved = 0 → d.dest = s.panelId → d.frames ≠ [] → d.frames.length ≤ 32 →
        d.incarnation = s.fld F.lnkPeer_incarnation node 0 b → d.src = s.fld F.lnkStat_peerId node 0 b →
        exec (.ethDatagram node b d good) s = .next (d.frames.foldl (fun s f => s.takeFrame node b f) s)) ∧
      ((good = false ∨ s.vlanOk node b d = false ∨ d.magic ≠ 0xD41E ∨ d.reserved ≠ 0 ∨ d.dest ≠ s.panelId) → exec (.ethDatagram node b d good) s = .next s))

/-- COMPLETES: PEER_REQUEST, PEER_PEN_REQ, TRANSIT_PACKET. Packets from a peer (R349-R351): a request in a slice in force takes a free proxy and enters the fabric under it;
one outside every slice is refused; a pen request takes a pen proxy, or is answered PEN_FULL; a packet in transit goes on, at most four times. -/
def Obligations.PeerPacketsComplete : Prop :=
  ∀ (s : State) (node b cls : Nat) (e : LinkPacket × Nat), isBundle node b = true → s.inboxHead node b cls = some e →
    (e.1.dest = s.panelId → e.1.pkt.op ≠ .penReq →
      (s.slice? e.1.pkt = none → exec (.peerRequest node b cls) s = .next ((s.leaveInbox node b e).peerRefused node b e.1)) ∧
      (∀ addr i, s.slice? e.1.pkt = some addr → s.freeProxy node = some i → ∃ (u : State) (x : Proxy) (unit : Nat), exec (.peerRequest node b cls) s =
          .next (u.inject node { e.1.pkt with addr := addr, srcUnit := unit, txn := i, link := none } (.peer node i)) ∧ u.proxies = s.proxies ++ [x] ∧
        x.edge = node ∧ x.txn = e.1.pkt.txn ∧ x.panel = e.1.src ∧ u.mem = s.mem)) ∧
    (cls = 2 → e.1.dest = s.panelId → e.1.pkt.op = .penReq → let s' := s.leaveInbox node b e
      (s'.slice? e.1.pkt = none → exec (.peerPenReq node b) s = .next (s'.peerRefused node b e.1)) ∧
      (∀ addr, s'.slice? e.1.pkt = some addr → (∀ i, i < 128 → s'.penProxies.any (fun x => x.edge == node && x.index == i) = true) →
        exec (.peerPenReq node b) s = .next (s'.linkAnswer node b e.1 .penFull)) ∧
      (∀ addr i, s'.slice? e.1.pkt = some addr → firstBelow 128 (fun i => !s'.penProxies.any fun x => x.edge == node && x.index == i) = some i →
        ∃ (u : State) (x : PenProxy), exec (.peerPenReq node b) s = .next (u.inject node { e.1.pkt with addr := addr, srcUnit := i, txn := 4096 + i, link := none }
          (.peerPen node i)) ∧ u.penProxies = s'.penProxies ++ [x] ∧ x.edge = node ∧ x.index = i ∧ x.txn = e.1.pkt.txn)) ∧
    (e.1.dest ≠ s.panelId →
      exec (.transitPacket node b cls) s = .next (if 4 ≤ e.1.transit then (s.leaveInbox node b e).linkAnswer node b e.1 .routeNone
        else (s.leaveInbox node b e).linkSend node { e.1 with transit := e.1.transit + 1 } false))

/-- COMPLETES: CASCADE_JOIN, JOIN_EXPIRY, PACE_REPORT, PACE_APPLY, MEMBER_LOST. A cascade (R353-R357): a JOIN of a job not yet here is kept; one with the panel's own digest
joins its member; one with another digest aborts the job; an incomplete membership expires; a member not heard for 100 ms aborts its job; the pace is reported each
millisecond and applied at its time. -/
def Obligations.CascadesComplete : Prop :=
  (∀ (s : State) (tag panel digest : Nat), s.joins.find? (fun e => e.1 == tag && e.2.1 == panel) = some (tag, panel, digest) →
    (s.job? tag = none → exec (.cascadeJoin tag panel) s =
      .next { s with joins := s.joins.erase (tag, panel, digest), earlyJoins := s.earlyJoins ++ [(tag, panel, digest)] }) ∧
    (∀ j, s.job? tag = some j → j.cascade = true → j.bell = s.panelId → j.state = .running → j.members.any (·.panel == panel) = true →
      let own := match j.members.find? (·.panel == s.panelId) with | some m => m.digest.toNat | none => 0
      ∃ u : State, (∃ j', u.job? tag = some j' ∧ ∀ m ∈ j'.members, m.panel = panel → m.joined = true) ∧ u.mem = s.mem ∧
        (digest ≠ own → exec (.cascadeJoin tag panel) s = .next (u.abortJob tag .accessFault)) ∧
        (digest = own → exec (.cascadeJoin tag panel) s = .next ((((j.hurdles.filter fun h => hurdleScope h.id == 6).map Hurdle.id).foldl
          (fun s id => s.releaseRound tag id (0, 0) 6) u).wakeNode u.master)))) ∧
  (∀ (s : State) (tag t : Nat) (j : Job), s.job? tag = some j → j.joinEnd = some t → j.state = .running → j.members.any (fun m => !m.joined) = true →
    t ≤ s.now → exec (.joinExpiry tag) s = .next (s.abortJob tag .timeout)) ∧
  (∀ (s : State) (tag : Nat) (j : Job), s.job? tag = some j → j.lockstep = true → j.state = .running → j.paced / ms < s.now / ms →
    ∃ u : State, exec (.paceReport tag) s = .next u ∧ u.mem = s.mem ∧ ∃ j', u.job? tag = some j' ∧ j'.paced = s.now) ∧
  (∀ (s : State) (tag p t : Nat) (j : Job), s.job? tag = some j → j.nextPace = some (p, t) → t ≤ s.now →
    exec (.paceApply tag) s = .next (s.modJob tag fun j => { j with pace := p, nextPace := none })) ∧
  (∀ (s : State) (tag panel : Nat) (j : Job), s.job? tag = some j → j.cascade = true → j.state = .running → j.bell = panel → j.bell ≠ s.panelId →
    j.heard + 100 * ms ≤ s.now → exec (.memberLost tag panel) s = .next (s.abortJob tag .timeout)) ∧
  (∀ (s : State) (tag panel : Nat) (j : Job) (m : Member), s.job? tag = some j → j.cascade = true → j.state = .running → j.bell = s.panelId →
    j.members.find? (fun m => m.panel == panel && m.joined && m.panel != s.panelId) = some m → m.heard + 100 * ms ≤ s.now →
    exec (.memberLost tag panel) s = .next (s.abortJob tag .timeout))

/-! ## Registers and units -/

/-- COMPLETES: REGISTER_WRITE, BANK_SEAL, FLIP_AT_WRITE, ROUNDS_CTRL_WRITE, FB_RUN_WRITE, POOL_UNITS_WRITE, PEN_COUNT_CLEAR, COUNTER_CLEAR, MEMCFG_WRITE, LINK_ENABLE,
LINK_MODE_WRITE, REENABLE, FULL_TRAIN, BAR2_WIN_WRITE, SQ_CFG_WRITE, HOSTCFG_WRITE, BUDGET_WRITE. A granted write stores its word and leaves storage, the queues, the
blocks and every other register as they are, and then has the effect of its register (R411, R421): a seal, a flip set or cancelled (R71, R74), rounds stopped or
resumed (R138), a core released or held (R425), a pool resized, counters zeroed (R201, R215, R535), the placement taken up (R316), the link's settings (R338, R360),
a queue reset (R384); a window, the routing and the budget hold the value written and nothing else follows (R374, R424, R453). -/
def Obligations.SettingWrites : Prop :=
  ∀ (s : State) (a : RegAccess) (w : RegWr),
    let u := s.storeWrite w
    let old := BitVec.ofNat 64 w.old
    (Grants s a w → w.r ≠ .rtrFlipAt → exec (.registerWrite a) s = .next (u.afterWrite w)) ∧
    (Grants s a w → u.word w.r w.node w.b w.i = BitVec.ofNat 64 w.stored ∧ SameRegsBut (w.r.key w.node w.b w.i) s u ∧ u.mem = s.mem ∧ u.queues = s.queues ∧
      u.blocks = s.blocks ∧ u.jobs = s.jobs) ∧
    (Takes s a w [F.rtrEpoch_seal] → exec (.bankSeal a) s = .next (u.seal w.node w.o)) ∧
    (Takes s a w [F.rtrFlipAt_flipAt] →
      (w.new ≠ w.old → exec (.flipAtWrite a) s = .next (s.flipAt w.node w.o w.new)) ∧
      (w.new = w.old → exec (.flipAtWrite a) s = .next (s.change w.node w.page w.r.place.off w.o 0 w.old w.old))) ∧
    (Takes s a w [F.mxcRoundsCtrl_enable] →
      (w.changes F.mxcRoundsCtrl_enable → exec (.roundsCtrlWrite a) s = .next (u.roundsEnable w.node w.b (bit w.new 0))) ∧
      (¬ w.changes F.mxcRoundsCtrl_enable → exec (.roundsCtrlWrite a) s = .next u)) ∧
    (Takes s a w [F.hubFbctrl_run] →
      (w.changes F.hubFbctrl_run → exec (.fbRunWrite a) s = .next (if bit w.new 0 then u.put F.hubFbctrl_state w.node 0 w.i 1 else u.holdCore w.node w.i)) ∧
      (¬ w.changes F.hubFbctrl_run → exec (.fbRunWrite a) s = .next u)) ∧
    (Takes s a w [F.blkPenCfg_poolUnits] →
      (w.changes F.blkPenCfg_poolUnits → exec (.poolUnitsWrite a) s = .next (u.poolChanged w.node w.b (bits w.old 0 9))) ∧
      (¬ w.changes F.blkPenCfg_poolUnits → exec (.poolUnitsWrite a) s = .next u)) ∧
    (Takes s a w [F.blkPenCount_clear] → exec (.penCountClear a) s = .next (u.setWord .blkPenCount w.node w.b 0 0)) ∧
    (Takes s a w [F.blkClear_clear, F.drvClear_clear] →
      (w.r = .blkClear → exec (.counterClear a) s = .next (u.resetCopies .blkCounter w.node w.b 17)) ∧
      (w.r = .drvClear → exec (.counterClear a) s = .next (u.resetCopies .drvCounter w.node w.b 6))) ∧
    (Takes s a w [F.hubMemcfg_placement, F.hubMemcfg_scrubHours] → exec (.memcfgWrite a) s = .next (u.onMemcfg old)) ∧
    (∀ f row, (f, row) ∈ ([(F.lnkCtrl_enable, .linkEnable), (F.lnkCtrl_mode, .linkModeWrite), (F.lnkCtrl_reenable, .reenable),
        (F.lnkCtrl_fullTrain, .fullTrain)] : List (Field × (RegAccess → Instr))) → Takes s a w [f] →
      exec (row a) s = .next (u.onLnkCtrl w.node w.i old (BitVec.ofNat 64 (Nat.lor w.new (Nat.land w.raw 0x3000000))))) ∧
    (Takes s a w [F.hubSqcfg_base, F.hubSqcfg_log2, F.hubSqcfg_cq, F.hubSqcfg_enable, F.hubCqcfg_base, F.hubCqcfg_log2, F.hubCqcfg_vector, F.hubCqcfg_enable] →
      (w.r = .hubSqcfg → exec (.sqCfgWrite a) s = .next (u.onSqcfg w.node w.i)) ∧ (w.r = .hubCqcfg → exec (.sqCfgWrite a) s = .next u)) ∧
    (Takes s a w [F.hubBar2Win_base, F.hubBar2Win_tagEn, F.hubBar2Win_jobTag] → exec (.bar2WinWrite a) s = .next u) ∧
    (Takes s a w [F.hubHostcfg_dual] → exec (.hostcfgWrite a) s = .next u) ∧
    (Takes s a w [F.hubBudget_budget] → exec (.budgetWrite a) s = .next u)

/-- COMPLETES: UNIT_ENABLE, RESET_REQ, QUIESCE, ERR_INJECT, LOCK, ASSIST_REPLY, TIM_RATE_WRITE, SHARE_WRITE, FC_HOST_WRITE, LOG_HRING_HEAD, COMPUTE_RESET, PANEL_RESET,
UPDATE, FORCE_FULL_WRITE, RESUME, STEP, FREEZE, THAW, DEBUG_MODE_WRITE, DBG_ACC_GO, STANDBY_REQ, REBASE. A granted write of a register that asks for something is
answered by what it asks: a unit starts, drains, is quiesced or reset (R400, R523), an error is injected (R404), a page is locked (R408), an assist is answered
(R420), a rate, a share, a fan request or a log position is taken up (R440, R470, R476, R510), the panel or its cores are reset or its firmware is updated (R522,
R524, R526-R527), a halted block goes on (R541), every ring is frozen or thawed (R539), stepping ends with debug mode, an access is issued as origin D (R542), the
panel goes to Standby, the wake at the step given (R466-R467), the baseline is the resistance measured (R473). -/
def Obligations.RequestWrites : Prop :=
  ∀ (s : State) (a : RegAccess) (w : RegWr),
    let u := s.storeWrite w
    let raw := BitVec.ofNat 64 w.raw
    (∀ f row, (f, row) ∈ ([(F.unitCtrl_enable, .unitEnable), (F.unitCtrl_resetReq, .resetReq), (F.unitCtrl_quiesce, .quiesce)] : List (Field × (RegAccess → Instr))) →
      Takes s a w [f] → exec (row a) s = .next (u.onUnitCtrl w.node w.page (BitVec.ofNat 64 w.old) (BitVec.ofNat 64 (putBits w.new 1 1 (bits w.raw 1 1))))) ∧
    (Takes s a w [F.errInject_go] → exec (.errInject a) s = .next (u.injectError w.node w.page (w.field F.errInject_bit))) ∧
    (Takes s a w [F.lock_locked] → exec (.lock a) s = .next (u.onLock w)) ∧
    (Takes s a w [F.hubAssistReply_id, F.hubAssistReply_verdict, F.hubAssistReply_data] → s.writesNumber w = true →
      exec (.assistReply a) s = .next (u.replyAssist (bits w.raw 0 16) (bits w.raw 16 2) (bits w.raw 18 46 * 4))) ∧
    (Takes s a w [F.timRate_rate] → s.writesNumber w = true → exec (.timRateWrite a) s = .next (u.onTimRate raw)) ∧
    (Takes s a w [F.pwrLimit_share] → s.writesNumber w = true → exec (.shareWrite a) s = .next (u.onShare w.node w.o raw)) ∧
    (Takes s a w [F.hubFcHost_fan, F.hubFcHost_tableEn, F.hubFcHost_table] → s.writesNumber w = true → exec (.fcHostWrite a) s = .next (u.onFcHost raw)) ∧
    (Takes s a w [F.logHringHead_head] → s.writesNumber w = true →
      exec (.logHringHead a) s = .next ((u.putLg F.logHringHead_head (bits w.raw 0 16)).onHead)) ∧
    (∀ f row, (f, row) ∈ ([(F.hubBootctl_computeReset, .computeReset), (F.hubBootctl_panelReset, .panelReset), (F.hubBootctl_update, .update),
        (F.hubBootctl_forceFull, .forceFullWrite)] : List (Field × (RegAccess → Instr))) → Takes s a w [f] →
      (w.asks F.hubBootctl_panelReset → exec (row a) s = .next (u.onForceFull.flushAndReset false)) ∧
      (¬ w.asks F.hubBootctl_panelReset →
        let v := if bit w.raw 1 then u.onForceFull.computeReset else u.onForceFull
        exec (row a) s = .next (if bit w.raw 3 then v.onUpdate else v))) ∧
    (Takes s a w [F.dbgBrk_resume] → exec (.resume a) s = .next (u.resumeBlock w.node w.i)) ∧
    (Takes s a w [F.dbgBrk_step] → ¬ w.asks F.dbgBrk_resume → exec (.step a) s = .next (u.stepBlock w.node w.i (bits w.raw 20 5))) ∧
    (Takes s a w [F.dbgFreeze_freeze] → exec (.freeze a) s = .next (u.setFrozen true)) ∧
    (Takes s a w [F.dbgFreeze_thaw] → ¬ w.asks F.dbgFreeze_freeze → exec (.thaw a) s = .next (u.setFrozen false)) ∧
    (Takes s a w [F.dbgMode_debug] →
      (bit w.new 0 = true → exec (.debugModeWrite a) s = .next u) ∧
      (bit w.new 0 = false → exec (.debugModeWrite a) s = .next (if bit w.old 0 then u.endStepping else u))) ∧
    (Takes s a w [F.dbgAcc_go] → exec (.dbgAccGo a) s = .next (u.issueAccess w.node)) ∧
    (∀ abort, Takes s a w [F.hubPstate_standbyReq] → s.pstate = 0 → exec (.standbyReq a abort) s = .next (s.onStandby abort)) ∧
    (∀ r, Takes s a w [F.pwrContact_rebase] →
      ∃ t, exec (.rebase a r) s = .next t ∧ t.fld F.pwrContact_baseline w.node = min r 65535 ∧ t.mem = s.mem ∧ t.blocks = s.blocks ∧ t.queues = s.queues)

/-- A write that a field's check refuses changes no register but those that record the refusal, whichever row brings it: it completes ACCESS_FAULT and
ACCESS_ERR takes its KIND (R409, R411).
Accesses of a page, of an origin the page does not serve, of a width or an alignment it does not take (R410-R412): each refused with its KIND.
What accepted writes leave (R215, R408, R424, R537, R541): a plain register holds the word as written; CLEAR zeroes the pen counters; LOCKED
stays set; FREEZE freezes every ring and THAW thaws every one; RESUME lets the block go on. -/
def Obligations.RefusedAccessesAndRegisterEffects : Prop :=
  ((∀ (s : State) (o : Origin) (node page off n v : Nat) (r : Reg) (b i : Nat) (k : AccessKind), (pageKind node page).isSome → o ≠ .P →
      (o = .G → (pageKind node page).map (·.1) = some .mailbox) → (o = .H → 4 < s.fld F.hubBoot_step 180) → (n = 4 ∨ n = 8) → off % n = 0 →
      namedAt node page (off / 8 * 8) = .reg r b i →
      s.writeRefusal (s.settle ⟨node, page, o, r, b, i, (s.word r node b i).toNat, v % 2 ^ (8 * n) * 2 ^ (8 * (off % 8)), (2 ^ (8 * n) - 1) * 2 ^ (8 * (off % 8))⟩)
        = some k →
      s.writeReg (some o) node page off n v = (.accessFault, s.accessErr node page (regAddr node page off) o k)) ∧
  (∀ (s : State) (o : Origin) (node page off n v : Nat) (k : PageKind) (c : Nat), pageKind node page = some (k, c) →
      let refused := fun (x : AccessKind) => (Status.accessFault, s.accessErr node page (regAddr node page off) o x)
      (o = .P → s.writeReg (some o) node page off n v = refused .hole) ∧
      (o = .G → k ≠ .mailbox → s.writeReg (some o) node page off n v = refused .hole) ∧
      (o ≠ .P → (o = .G → k = .mailbox) → (o = .H → 4 < s.fld F.hubBoot_step 180) →
        (n ∉ [1, 2, 4, 8] ∨ off % n ≠ 0 → s.writeReg (some o) node page off n v = refused .misaligned) ∧
        (n ∈ [1, 2] → off % n = 0 → s.writeReg (some o) node page off n v = refused .narrow) ∧
        (n ∈ [4, 8] → off % n = 0 → namedAt node page (off / 8 * 8) = .hole → s.writeReg (some o) node page off n v = refused .hole)))) ∧
  (∀ (s : State) (w : RegWr),
    (w.r ∈ [Reg.hubBar2Win, .hubHostcfg, .hubBudget] → (s.applyWrite w).word w.r w.node w.b w.i = BitVec.ofNat 64 w.stored ∧ (s.applyWrite w).mem = s.mem) ∧
    (w.r = .blkPenCount → bit w.raw F.blkPenCount_clear.lo = true → (s.applyWrite w).word .blkPenCount w.node w.b = 0) ∧
    (w.r = .lock → w.i = 0 → bit w.raw 0 = true → bit w.mask 0 = true → (s.applyWrite w).flag F.lock_locked w.node w.b = true) ∧
    (w.r = .dbgFreeze → ∀ n p k i, n < 182 → p < 41 → pageKind n p = some (k, i) → keepsRing k = true →
      (bit w.raw F.dbgFreeze_freeze.lo = true → (Sparse.get {} (s.applyWrite w).rings (n * 64 + p)).frozen = true) ∧
      (bit w.raw F.dbgFreeze_freeze.lo = false → bit w.raw F.dbgFreeze_thaw.lo = true → (Sparse.get {} (s.applyWrite w).rings (n * 64 + p)).frozen = false)) ∧
    (w.r = .dbgBrk → w.i < 4 → bit w.raw F.dbgBrk_resume.lo = true → ((s.applyWrite w).block w.node w.i).held = none ∧
      (s.applyWrite w).fld F.dbgBrk_state w.node 0 w.i = 0))

/-- COMPLETES: DRAIN_COMPLETE, SELF_TEST_DONE, ASSIST_POST, ASSIST_DEADLINE. A unit that has drained does what it drained for, and a unit that was starting runs or fails
its self-test (R399-R400, R523, R526). The oldest assist that waits is posted, one of the block's own is posted when it is due, one unanswered at its deadline is
decided in hardware and its duty reverts; a duty whose periodic writes stop reverts (R418-R420). -/
def Obligations.UnitStatesAndAssists : Prop :=
  (∀ (s : State) (node page : Nat) (why : DrainFor), s.drain? node page = some why → s.unit node page = .draining → s.drained node page why = true →
    let u : State := { s with drains := Sparse.del s.drains (drainKey node page) }
    (why = .quiesce → exec (.drainComplete node page) s = .next (u.movePages node [page] (if s.flag F.unitCtrl_quiesce node page then .quiesced else .running))) ∧
    (why = .off → exec (.drainComplete node page) s = .next (u.offUnit node page)) ∧
    (why = .reset → exec (.drainComplete node page) s = .next (u.resetUnit node page)) ∧
    (why = .update → exec (.drainComplete node page) s = .next ((u.resetUnit node page).put F.rgnFw_version node 0 0 (u.resetUnit node page).updateVersion))) ∧
  (∀ (s : State) (node page : Nat) (ok : Bool), (pageKind node page).isSome → s.unit node page = .starting →
    (isRegion node = true → s.role node = 0 ∧ (page = 0 ∨ s.unit node 0 = .running) ∧ (s.pow node).upAt ≤ s.now) →
    let v := if ok then s.passTest node page else s.failTest node page
    ((isRegion node = false ∨ page ≠ 0 ∨ v.flag F.rgnFw_updating node = false) → exec (.selfTestDone node page ok) s = .next v) ∧
    (isRegion node = true → page = 0 → v.flag F.rgnFw_updating node = true →
      exec (.selfTestDone node page ok) s = .next ((v.put F.rgnFw_updating node 0 0 0).updateNext))) ∧
  (∀ (s : State) (a : Assist) (rest : List Assist), s.asks = a :: rest → exec (.assistPost none) s = .next (({ s with asks := rest } : State).postAssist a)) ∧
  (∀ (s : State) (k : Ask) (a : Assist), s.ownAssist k = some a → exec (.assistPost (some k)) s = .next (s.postAssist a)) ∧
  (∀ (s : State) (id : Nat) (a : Assist), s.assists.find? (·.id == id) = some a → a.deadline ≤ s.now →
    exec (.assistDeadline (.assist id)) s = .next (((s.endAssist id).revert a.fn a.node a.page).resolve a .hardware)) ∧
  (∀ (s : State) (fn node page t : Nat), s.gapEnd fn node page = some t → s.hostDuty node page fn = true → t ≤ s.now →
    exec (.assistDeadline (.gap fn node page)) s = .next (s.revert fn node page))

/-! ## The host port -/

/-- COMPLETES: FLR, PERST, PERST_RELEASE, BAR2_ACCESS, HOST_COMPLETION_TIMEOUT. FLR and PERST# reset the endpoint (R372); a BAR2 access goes out as one packet for each
512-byte part, with the window's job tag or none, a read waiting for all of them, a write posted (R374-R376); one that lands in the register or host range is refused
and recorded, and before bring-up step 4 has ended a read is answered with an error and a write has no effect; a read unanswered for 900 us is answered so (R375). -/
def Obligations.HostPort : Prop :=
  (∀ (s : State) (hub : Nat), isHub hub = true → exec (.flr hub) s = .next (s.resetEndpoint hub) ∧
    exec (.perst hub) s = .next ((s.resetEndpoint hub).modEndpoint hub fun e => { e with perst := true }) ∧
    ((s.endpoint hub).perst = true → exec (.perstRelease hub) s = .next (s.modEndpoint hub fun e => { e with perst := false }))) ∧
  (∀ (s : State) (hub tag off n : Nat), isHub hub = true → off + n ≤ 2 ^ 36 → 0 < n → n ≤ 4096 →
    let a := s.fld F.hubBar2Win_base hub * 2 ^ 36 + off
    let jt := if s.flag F.hubBar2Win_tagEn hub then s.fld F.hubBar2Win_jobTag hub else 64
    ((s.endpoint hub).reqs.any (·.tag == tag) = false →
      (s.barsUp hub = false → exec (.bar2Access hub tag off n none) s = .next (s.say (.hostError hub tag true))) ∧
      (s.barsUp hub = true → off % min n 8 = 0 →
        (0x200000000000 ≤ a → a < 0x400000000000 → exec (.bar2Access hub tag off n none) s = .next ((s.say (.hostError hub tag true)).hostRefused hub a .hole)) ∧
        (a < 0x200000000000 ∨ 0x400000000000 ≤ a → exec (.bar2Access hub tag off n none) s = .next ((accessParts 10 a n).foldl (fun s p =>
          s.request hub { op := .readReq, cls := 2, srcUnit := 0x10, jobTag := jt, addr := p.1, oparg0 := p.2 } (.host hub tag))
          (s.modEndpoint hub fun e => { e with reqs := e.reqs ++ [{ tag := tag, addr := a, n := n, time := s.now, left := (accessParts 10 a n).length }] }))))) ∧
    (∀ d, d.length = n →
      (s.barsUp hub = false → exec (.bar2Access hub tag off n (some d)) s = .next s) ∧
      (s.barsUp hub = true → off % min n 8 = 0 → 4 ≤ n →
        (0x200000000000 ≤ a → a < 0x400000000000 → exec (.bar2Access hub tag off n (some d)) s = .next (s.hostRefused hub a .hole)) ∧
        (a < 0x200000000000 ∨ 0x400000000000 ≤ a → exec (.bar2Access hub tag off n (some d)) s = .next ((accessParts 10 a n).foldl (fun s p =>
          s.sendBytes hub 0x10 jt p.1 ((d.drop (p.1 - a)).take p.2) false false .plain) s))))) ∧
  (∀ (s : State) (hub tag : Nat) (r : HostReq), isHub hub = true → (s.endpoint hub).reqs.find? (·.tag == tag) = some r → r.time + 900 * us ≤ s.now →
    exec (.hostCompletionTimeout hub tag) s = .next (({ s with outstanding := s.outstanding.filter fun x => x.purpose != Purpose.host hub tag } : State).answerHost
      hub { r with status := .timeout }))

/-- COMPLETES: GUEST_PACKET, GUEST_LINK_DOWN, GUEST_DOORBELL, GUEST_INTERRUPT. A guest's packet that a check denies is recorded with the check and answered FENCE_DENIED,
its effect nothing; one that passes and finds its tokens goes out under the guest's unit numbers and its window's tag, a pen request beyond PEN_MAX answered PEN_FULL
(R387-R388). Where no guest is present every packet is denied (R20). The link's loss leaves the hub with no request, no pen and no wait of the guest's (R389). The
doorbells raise their interrupts (R391). -/
def Obligations.GuestPort : Prop :=
  (∀ (s : State) (hub : Nat) (p : Packet) (since : Nat), isHub hub = true → s.unit hub 0 ≠ .retired → since ≤ s.now → p.op.cls ≠ 1 →
    (∀ k, s.guestShut hub = false → s.guestCheck hub p = some k →
      ∃ u : State, exec (.guestPacket hub p since) s = .next (if p.op.isRequest then u.guestAnswer hub p .fenceDenied else u) ∧ u.mem = s.mem ∧ u.fabric = s.fabric ∧
        u.outstanding = s.outstanding ∧ u.fld F.hubFstat_lastCheck hub = k % 2 ^ F.hubFstat_lastCheck.width) ∧
    (s.guestShut hub = true →
      ∃ u : State, exec (.guestPacket hub p since) s = .next (if p.op.isRequest then u.guestAnswer hub p .fenceDenied else u) ∧ u.mem = s.mem ∧ u.fabric = s.fabric ∧
        u.outstanding = s.outstanding) ∧
    (s.guestShut hub = false → s.guestCheck hub p = none → p.payload.length * 16 ≤ s.guestTokens hub →
      ∃ u : State, u = (s.modEndpoint hub fun e => { e with tokens := some (s.guestTokens hub - p.payload.length * 16), counted := s.now }).bump
          F.hubFstat_rateStalls hub 0 0 ((s.now - since) / us) ∧
        let tag := match s.guestWindow hub p.addr (max 1 p.extent) with | some i => s.fld F.hubFwin_jobTag hub 0 i | none => 0
        let q : Packet := { p with srcUnit := 0xF0 + p.srcUnit % 16, link := none, jobTag := tag }
        (p.op ≠ .penReq → exec (.guestPacket hub p since) s = .next (u.request hub q (.guest hub p.srcUnit p.txn))) ∧
        (p.op = .penReq → s.fld F.hubFcfg_penMax hub ≤ s.guestPens hub → exec (.guestPacket hub p since) s = .next (u.guestAnswer hub p .penFull)) ∧
        (p.op = .penReq → s.guestPens hub < s.fld F.hubFcfg_penMax hub → exec (.guestPacket hub p since) s = .next (u.penAsk hub q (.guest hub p.srcUnit p.txn))))) ∧
  (∀ (s : State) (hub : Nat), isHub hub = true →
    (∃ u : State, exec (.guestLinkDown hub) s = .next u ∧ u.mem = s.mem ∧
      ((∀ w ∈ (s.holderUnit hub 0xF0).waiting, w.pkt.srcUnit < 0xF0 → ∀ unit txn, w.purpose ≠ .guest hub unit txn) →
        ∀ r ∈ u.outstanding, ∀ unit txn, r.purpose ≠ .guest hub unit txn)) ∧
    exec (.guestDoorbell hub) s = .next (if s.guestShut hub then s.bump F.hubFstat_denied hub 0 0 else s.say (.vector hub 55)) ∧
    exec (.guestInterrupt hub .H) s = .next (s.say (.guestInterrupt hub)) ∧ exec (.guestInterrupt hub .F) s = .next (s.say (.guestInterrupt hub)))

/-! ## The management port -/

/-- COMPLETES: MCTP_REG_READ, MCTP_REG_WRITE, GET_STATE, SET_BUDGET, GET_ENERGY, LOG_READ, MCTP_ASSIST_REPLY. The vendor commands of R416, the panel's management alive: the
endpoint answers code 5 with four waiting, 4 before bring-up step 4 has ended, 3 to a payload of another length; else it wakes the panel where the
command does so (R468) and answers what it asked: a register's bytes or the status of the access, made as origin M, the panel's state, the budget as it stands, a job's
energy, log entries in order, the fate of an assist's reply. -/
def Obligations.VendorCommands : Prop :=
  ∀ (s : State) (payload : List Byte) (waiting : Nat), s.plant.bothLost = false →
    (∀ row, row ∈ ([(.mctpRegRead, 1, 9), (.mctpRegWrite, 2, 17), (.getState, 3, 0), (.setBudget, 4, 2), (.getEnergy, 5, 1), (.logRead, 6, 5),
        (.mctpAssistReply, 7, 8)] : List ((List Byte → Nat → Instr) × Nat × Nat)) →
      (4 ≤ waiting → exec (row.1 payload waiting) s = .next (s.vendorSay row.2.1 [5])) ∧
      (waiting < 4 → s.fld F.hubBoot_step 180 ≤ 4 → exec (row.1 payload waiting) s = .next (s.vendorSay row.2.1 [4])) ∧
      (waiting < 4 → 4 < s.fld F.hubBoot_step 180 → payload.length ≠ row.2.2 → exec (row.1 payload waiting) s = .next (s.vendorSay row.2.1 [3]))) ∧
    (waiting < 4 → 4 < s.fld F.hubBoot_step 180 →
      (∀ a, payload.length = 9 → leNat (payload.drop 8) = 4 ∨ leNat (payload.drop 8) = 8 → mgmtAccess (leNat (payload.take 8)) (leNat (payload.drop 8)) 0 = some a →
        let r := s.accessRead a
        (r.1 = some .done → exec (.mctpRegRead payload waiting) s = .next (r.2.2.vendorSay 1 ([0] ++ leNats 8 (leNat r.2.1)))) ∧
        (r.1 ≠ some .done → exec (.mctpRegRead payload waiting) s = .next (r.2.2.vendorSay 1 (r.2.2.accessBody a (r.1.getD .timeout))))) ∧
      (∀ a, payload.length = 17 → leNat ((payload.drop 8).take 1) = 4 ∨ leNat ((payload.drop 8).take 1) = 8 →
        mgmtAccess (leNat (payload.take 8)) (leNat ((payload.drop 8).take 1)) (leNat (payload.drop 9)) = some a →
        exec (.mctpRegWrite payload waiting) s = .next (s.mgmtWrite 2 a)) ∧
      (payload.length = 0 → let v := s.wakeEvent 3 3
        exec (.getState payload waiting) s = .next (v.vendorSay 3 (0 :: leNats 8 (v.regWord .hubGeometry v.master 0 0) ++ [v.master - 180, v.pstate, v.hottestRegion] ++
          leNats 2 (v.fld F.hubBudget_measured 180)))) ∧
      (payload.length = 2 → let v := s.wakeEvent 3 4
        let a : RegAccess := ⟨.M, v.master, 0, 0x120, 4, leNat payload⟩
        let r := v.accessWrite a
        (r.1 = some .done → exec (.setBudget payload waiting) s = .next (r.2.vendorSay 4 ([0] ++ leNats 2 (r.2.fld F.hubBudget_budget 180)))) ∧
        (r.1 ≠ some .done → exec (.setBudget payload waiting) s = .next (r.2.vendorSay 4 (r.2.accessBody a (r.1.getD .timeout))))) ∧
      (payload.length = 1 → leNat payload < 64 → let v := s.wakeEvent 3 5
        exec (.getEnergy payload waiting) s = .next (v.vendorSay 5 (0 :: leNats 8 (v.fld F.pwrEnergy_energy v.master 0 (leNat payload))))) ∧
      (payload.length = 5 → 1 ≤ leNat (payload.drop 4) → leNat (payload.drop 4) ≤ 30 → let v := s.wakeEvent 3 6
        ∃ es : List LogEntry, exec (.logRead payload waiting) s = .next (v.vendorSay 6 (0 :: es.length :: (es.flatMap (·.bytes)).map (·.toNat))) ∧
          es.length ≤ leNat (payload.drop 4) ∧ ∀ e ∈ es, leNat (payload.take 4) ≤ e.seq ∧ (e ∈ v.log.ring ∨ e ∈ v.log.flash)) ∧
      (payload.length = 8 → let v := s.wakeEvent 3 7
        let a : RegAccess := ⟨.M, v.master, 0, 0x310, 8, leNat payload⟩
        exec (.mctpAssistReply payload waiting) s = .next ((v.accessWrite a).2.vendorSay 7 ((v.accessWrite a).2.accessBody a ((v.accessWrite a).1.getD .timeout)))))

/-- COMPLETES: MCTP_CONTROL, PLDM_REQUEST, PLATFORM_EVENT, DYNAMIC_ADDRESS. The endpoint answers every MCTP control and PLDM message, SET and GET ENDPOINT ID among them; a
sensor whose state has changed is noted, and reported to the event receiver where there is one; its address is assigned (R415, R417; message bodies and codes are the
DMTF's, log entry 104). -/
def Obligations.ManagementMessages : Prop :=
  (∀ (s : State), s.plant.bothLost = false →
    (∀ inst eid, eid < 255 → 8 ≤ eid → exec (.mctpControl inst 1 [0, BitVec.ofNat 8 eid]) s = .next ((s.put F.hubMgmt_eid 180 0 0 eid).controlSay inst 1 [0, 0, eid, 0])) ∧
    (∀ inst, exec (.mctpControl inst 2 []) s = .next (s.controlSay inst 2 [0, s.fld F.hubMgmt_eid 180, 0, 0])) ∧
    (∀ inst cmd payload, ∃ (u : State) (body : List Nat), exec (.mctpControl inst cmd payload) s = .next (u.controlSay inst cmd body) ∧ u.mem = s.mem ∧
      u.queues = s.queues ∧ u.blocks = s.blocks) ∧
    (∀ inst typ cmd payload, ∃ (u : State) (body : List Nat), exec (.pldmRequest inst typ cmd payload) s = .next (u.pldmSay inst typ cmd body) ∧ u.mem = s.mem ∧
      u.queues = s.queues ∧ u.blocks = s.blocks) ∧
    (∀ sensor, 1 ≤ sensor → sensor ≤ 30 → s.sensorState sensor ≠ s.lastState sensor →
      ∃ u : State, exec (.platformEvent sensor) s = .next u ∧ u.plant = { s.plant with sensed := Sparse.set s.plant.sensed sensor (s.sensorState sensor) } ∧
        u.mem = s.mem ∧ u.regs = s.regs ∧ (s.plant.receiver = none → u.outbox = s.outbox))) ∧
  (∀ (s : State) (addr : Nat), addr < 128 → ∃ u : State, exec (.dynamicAddress addr) s = .next u ∧ u.fld F.hubMgmt_dynAddr 180 = addr ∧
    u.flag F.hubMgmt_dynValid 180 = true ∧ u.mem = s.mem ∧ SameRegsBut (F.hubMgmt_dynAddr.reg.key 180 0 0) s u)

/-! ## Clocks and time -/

/-- COMPLETES: FREQ_CHANGE_START, PLL_LOCK, PLL_LOCK_FAIL, TARGET_RECOMPUTE, DROOP_CROSSING, DROOP_RECOVERY, REFCLK_LOSS, BEACON_SEND, BEACON_RECEIVE, TIME_STEP, PPS_EDGE,
TIME_EXCHANGE. Core clocks (R427, R430-R433, R450): a frequency change starts, 20 us after the last or at once when a safety loop lowers it, and locks at the latest
target; the target is recomputed and shown; a droop stretches the clock until it recovers; a PLL that loses its lock stops its region's core, its router or its die; a
lost reference moves the panel to the other one, or stops it. Panel time (R358, R434-R437): the beacon goes out every 16 us and corrects each node it reaches by the
difference it finds; a step sets the count before the first job and is refused after it; the 1 PPS edge is captured; a neighbour's exchange is stamped and sent, and
corrects nothing unless it is the parent's. -/
def Obligations.ClocksAndTime : Prop :=
  (∀ (s : State) (node : Nat), isRegion node = true → s.coreOn node = true → (s.pow node).changing = none →
    s.fld F.clkStat_target node ≠ (s.pow node).freq → s.fld F.clkStat_target node ≠ 0 →
    (∀ e, (s.pow node).changed = some e → e + 20 * us ≤ s.now) ∨ (s.fld F.clkStat_target node < (s.pow node).freq ∧ (s.pow node).urgent = true) →
    ∃ u : State, exec (.freqChangeStart node) s = .next u ∧ u.flag F.clkStat_changing node = true ∧ u.fld F.clkStat_freq node = 0 ∧
      u.pow node = { s.pow node with changing := some s.now } ∧ u.mem = s.mem ∧ u.blocks = s.blocks) ∧
  (∀ (s : State) (node t : Nat), isRegion node = true → (s.pow node).changing = some t →
    ∃ u : State, exec (.pllLock node) s = .next u ∧ (u.pow node).changing = none ∧ (u.pow node).freq = s.fld F.clkStat_target node ∧
      (u.pow node).changed = some s.now ∧ u.flag F.clkStat_changing node = false ∧ u.mem = s.mem) ∧
  (∀ (s : State) (node power current : Nat), isRegion node = true → s.coreOn node = true →
    ∃ u : State, exec (.targetRecompute node power current) s = .next u ∧ (u.pow node).power = power ∧ (u.pow node).current = current ∧ u.mem = s.mem ∧
      u.blocks = s.blocks ∧ u.fld F.pwrStat_iIn node = min current 4095) ∧
  (∀ (s : State) (node : Nat), isRegion node = true →
    (s.coreOn node = true → s.idles node = false → (s.pow node).changing = none → s.flag F.clkStat_stretched node = false →
      ∃ u : State, exec (.droopCrossing node) s = .next u ∧ u.flag F.clkStat_stretched node = true ∧ u.fld F.pwrDeficit_reason node = 5 ∧ u.mem = s.mem) ∧
    (s.flag F.clkStat_stretched node = true → ∃ u : State, exec (.droopRecovery node) s = .next u ∧ u.flag F.clkStat_stretched node = false ∧ u.mem = s.mem)) ∧
  (∀ (s : State), s.plant.vaon = true → s.plant.refLost = false →
    (s.flag F.clkStat_refSel 0 = false → ∃ u : State, exec (.refclkLoss false) s = .next u ∧ (∀ n, n < 156 → u.fld F.clkStat_refSel n = 1) ∧ u.mem = s.mem) ∧
    exec (.refclkLoss true) s = .next ((s.modPlant fun p => { p with refLost := true }).panelStop .clocks s.master 2)) ∧
  (∀ (s : State) (node : Nat),
    (isRegion node = true → (s.pow node).freq ≠ 0 → exec (.pllLockFail node false) s = .next (s.pllFail node)) ∧
    (isRegion node = true → s.role node < 4 → exec (.pllLockFail node true) s =
      .next ((s.error ⟨node, pageOf .clk node 0, 0x3F, none⟩ 27 .ueUnit 0 1).routerStops node)) ∧
    (isEdge node = true → s.unit node 0 ≠ .retired → exec (.pllLockFail node true) s = .next (s.pllFail node)) ∧
    (isHub node = true → exec (.pllLockFail node true) s = .next (s.pllFail node))) ∧
  (∀ (s : State), s.plant.bothLost = false → s.plant.beaconAt + 16 * us ≤ s.now →
    exec .beaconSend s = .next (s.modPlant fun p => { p with beaconAt := s.now, beaconGot := [s.master] })) ∧
  (∀ (s : State) (node : Nat) (err : Int), node < 182 → node ≠ s.master → -1 ≤ err → err ≤ 1 → s.live node = true →
    s.plant.beaconGot.contains (beaconParent s.master node) = true → s.plant.beaconGot.contains node = false →
    ∃ u : State, exec (.beaconReceive node err) s = .next u ∧ u.mem = s.mem ∧
      (u.router node).correction = (s.router (beaconParent s.master node)).timeOff - (s.router node).timeOff + err ∧
      u.plant.beaconGot = s.plant.beaconGot ++ [node]) ∧
  (∀ (s : State) (count : Nat), (s.plant.jobSeen = false → exec (.timeStep count) s = .next (s.stepTime count)) ∧
    (s.plant.jobSeen = true → exec (.timeStep count) s = .next (s.accessErr s.master (pageOf .tim s.master 0)
      (0x200000000000 + s.master * 0x40000 + pageOf .tim s.master 0 * 0x1000 + 0x100) .F .value))) ∧
  (∀ (s : State) (t : Nat), s.flag F.hubPanel_timeSource 180 = true → s.flag F.timPps_inEn s.master = true → t ≤ s.now →
    let u := s.setWord .timPpsCapt s.master 0 0 (BitVec.ofNat 64 t)
    (u.steersItself = false → exec (.ppsEdge t) s = .next u) ∧
    (u.steersItself = true → s.plant.jobSeen = false → s.plant.aligned = false →
      exec (.ppsEdge t) s = .next ((u.stepTime (((s.now : Int) + toSecond t).toNat)).modPlant fun p => { p with aligned := true })) ∧
    (u.steersItself = true → s.plant.jobSeen = true ∨ s.plant.aligned = true → exec (.ppsEdge t) s = .next (u.steerTo (toSecond t)))) ∧
  (∀ (s : State) (node b t1 t2 t3 t4 : Nat), isEdge node = true → b < 5 → s.linkState node b = .up → s.flag F.lnkCtrl_mode node 0 b = false →
    (∀ t, (s.link node b).timeAt = some t → t + ms ≤ s.now) →
    let fx := ({ s.link node b with timeAt := some s.now } : Bundle).stamp { body := .time s.timeDepth.1 s.timeDepth.2 t1 t2 t3 t4 }
    let u := (s.setLink node b fx.2).emit node b fx.1
    ((∀ d e i src, u.timeParent = some (d, e, i, src) → e ≠ node ∨ i ≠ b) → exec (.timeExchange node b t1 t2 t3 t4) s = .next u) ∧
    ∃ v : State, exec (.timeExchange node b t1 t2 t3 t4) s = .next v ∧ v.mem = s.mem ∧ v.blocks = s.blocks)

/-! ## Power and temperature -/

/-- COMPLETES: RAIL_FAULT, VIN_CORE_LOSS, CONTACT_MEASURE, EFFICIENCY_LOOP, BUDGET_LOOP, BUDGET_GUARD, THROTTLE_ASSERT, THROTTLE_RELEASE, ENERGY_INTERVAL, THERMAL_SAMPLE,
REGION_THERMAL_RESTART, PANEL_STOP, AIRFLOW_LOSS, PANEL_RESUME, FORECAST. Rails, budget and throttle (R443, R447, R452, R454-R456, R461): a rail that fails stops its
region, its node or the panel; the contact is measured every 10 ms; the loops run at their periods; the budget guard lowers every region that draws; THROTTLE_N acts
while asserted and for 1 ms more; energy is added up. Temperature (R457-R460): every 20 us a region's sensors are read and shown, and below 110 degrees nothing else
stops; a region that stopped for heat restarts a second after it has fallen to 95 degrees; the panel stops and, cooled for ten seconds, resumes; the forecast sets
ceilings and the fan. -/
def Obligations.PowerAndTemperature : Prop :=
  (∀ (s : State), s.plant.vinCore = true →
    (∀ node, node < 182 → s.pstate ≠ 4 → exec (.railFault node true) s = .next (s.panelStop .rail s.master 0)) ∧
    (∀ n, s.plant.vaon = true → (s.lg F.logStat_holdupReady = 0 ∨ min 512 s.unspilled.length ≤ n) → exec (.panelStop (.vaon n)) s = .next (s.loseVaon n)) ∧
    (∀ node, isRegion node = true → s.role node < 3 → exec (.railFault node false) s = .next (s.railFault node)) ∧
    (∀ node, isEdge node = true → s.unit node 0 ≠ .retired → exec (.railFault node false) s = .next (s.railFault node)) ∧
    (∀ node, isHub node = true → exec (.railFault node false) s = .next (s.railFault node)) ∧
    (∀ n lost, (s.lg F.logStat_holdupReady = 0 ∨ min 512 s.unspilled.length ≤ n) →
      exec (.vinCoreLoss n lost) s = .next (((s.flushLog n).panelReset true).modPlant fun p => { p with vinCore := false, vaon := p.vaon && !lost }))) ∧
  (∀ (s : State) (node r : Nat), isRegion node = true → s.coreOn node = true → (s.pow node).measured + 10 * ms ≤ s.now →
    ∃ u : State, exec (.contactMeasure node r) s = .next u ∧ (u.pow node).measured = s.now ∧ u.fld F.pwrContact_measured node = min r 65535 ∧ u.mem = s.mem) ∧
  (∀ (s : State) (node stalls cycles : Nat), isRegion node = true → s.coreOn node = true → s.adaptive node = true → s.lockstepped node = false →
    (s.pow node).looped + 100 * us ≤ s.now → ∃ u : State, exec (.efficiencyLoop node stalls cycles) s = .next u ∧ (u.pow node).looped = s.now ∧
      u.mem = s.mem ∧ u.regs = s.regs ∧ (2 * stalls ≤ cycles → cycles ≤ 4 * stalls → (u.pow node).efficiencyF = (s.pow node).efficiencyF)) ∧
  (∀ (s : State) (panel fixed : Nat), s.pstate ≠ 4 → s.plant.bothLost = false → s.plant.budgetAt + ms ≤ s.now →
    ∃ u : State, exec (.budgetLoop panel fixed) s = .next u ∧ u.mem = s.mem ∧ u.fld F.hubBudget_measured 180 = min 8191 (panel / 10)) ∧
  (∀ (s : State) (panel : Nat), 11 * s.fld F.hubBudget_budget 180 < panel → s.pstate ≠ 4 → s.plant.guardAt + 100 * us ≤ s.now →
    exec (.budgetGuard panel) s = .next (s.drawing.foldl (fun s n => s.modPow n fun p => { p with guard := min 15 (p.guard + 1) })
      (s.modPlant fun p => { p with guardAt := s.now }))) ∧
  (∀ (s : State), (s.plant.throttle = false → exec .throttleAssert s = .next (s.modPlant fun p => { p with throttle := true, throttleEnd := none })) ∧
    (s.plant.throttle = true → exec .throttleRelease s = .next (s.modPlant fun p => { p with throttle := false, throttleEnd := some (s.now + ms) }))) ∧
  (∀ (s : State) (node uj : Nat) (parts : List (Nat × Nat)), isRegion node = true ∨ isEdge node = true → parts.all (fun p => decide (p.1 < 64)) = true →
    (s.pow node).counted + 10 * us ≤ s.now →
    (parts.foldl (fun a p => a + p.2) 0 = 0 →
      exec (.energyInterval node uj parts) s = .next ((s.modPow node fun p => { p with counted := s.now }).addEnergy 64 uj)) ∧
    ∃ u : State, exec (.energyInterval node uj parts) s = .next u ∧ (u.pow node).counted = s.now ∧ u.mem = s.mem) ∧
  (∀ (s : State) (node s0 s1 s2 s3 : Nat), isRegion node = true → max (max s0 s1) (max s2 s3) < 256 → (s.pow node).sampled + 20 * us ≤ s.now →
    ∃ u : State, exec (.thermalSample node s0 s1 s2 s3) s = .next u ∧ (max (max s0 s1) (max s2 s3) < 110 → u.fld F.pwrTemp_max node = max (max s0 s1) (max s2 s3) ∧
      (u.pow node).sampled = s.now ∧ u.mem = s.mem ∧ u.blocks = s.blocks)) ∧
  (∀ (s : State) (node t : Nat), isRegion node = true → (s.pow node).hotStop = true → s.unit node 0 = .off → s.pstate ≠ 4 →
    (s.pow node).cool95 = some t → t + sec ≤ s.now →
    exec (.regionThermalRestart node) s = .next (((s.setPwr node 0).modPow node fun p => { p with hotStop := false }).restartRegion node)) ∧
  (∀ (s : State), s.pstate ≠ 4 → (∀ cause, cause ∈ [.thermal, .airflow, .rail, .clocks] → exec (.panelStop cause) s = .next (s.panelStop cause s.master 0)) ∧
    (s.plant.airflow = true → exec .airflowLoss s = .next ((s.modPlant fun p => { p with airflow := false }).panelStop .airflow s.master 1))) ∧
  (∀ (s : State), s.pstate = 4 → s.plant.vaon = true → s.plant.refLost = false → s.plant.bothLost = false →
    s.power.all (fun e => match e.2.cool90 with | some t => decide (t + 10 * sec ≤ s.now) | none => false) = true →
    ∃ u : State, exec .panelResume s = .next u ∧ u.plant.airflow = true ∧ u.plant.faultN = false ∧ u.plant.thermtripN = false) ∧
  (∀ (s : State) (hot : List (Nat × Nat)) (p : Nat), hot.all (fun e => isRegion e.1 && decide (e.2 < 16)) = true → s.pstate ≠ 4 → s.plant.bothLost = false →
    s.hostDuty s.master 0 6 = false → s.plant.forecastAt + ms ≤ s.now →
    ∃ u : State, exec (.forecast hot p) s = .next u ∧ u.mem = s.mem ∧ u.plant.forecastAt = s.now ∧
      ∀ n, n < 156 → (u.pow n).forecastF = (hot.find? (·.1 == n)).map fun e => opFreq e.2)

/-- COMPLETES: REGION_IDLE_ENTRY, REGION_IDLE_EXIT, NAP_ENTRY, NAP_EXIT, PANEL_WAKE, WAKE_N, WAKE_TIMER. Idle, Nap and Standby (R462-R469): a region without work goes
idle after IDLE_DELAY and leaves it at once; it naps after NAP_DELAY, unless a wake aborts the entry; at most twelve regions leave Nap in one of the wave's windows; the
panel wakes for each of its wake events. -/
def Obligations.IdleAndNap : Prop :=
  (∀ (s : State) (node : Nat), isRegion node = true →
    (s.unit node 0 = .running → s.fld F.pwrStat_state node = 0 → (s.pow node).changing = none → s.working node = false →
      (s.pow node).busy + max 1 (s.fld F.pwrCtrl_idleDelay node) * us ≤ s.now →
      exec (.regionIdleEntry node) s = .next (((s.setPwr node 1).put F.clkStat_freq node 0 0 0).modPow node fun p => { p with idle := some s.now })) ∧
    (s.fld F.pwrStat_state node = 1 → exec (.regionIdleExit node) s = .next (s.leaveIdle node)) ∧
    (∀ t, (s.pow node).idle = some t → s.fld F.pwrStat_state node = 1 → s.unit node 0 = .running → s.flag F.pwrCtrl_napEn node = true →
      s.napFree node = true → t + max 1 (s.fld F.pwrCtrl_napDelay node) * (100 * us) ≤ s.now →
      exec (.napEntry node none) s = .next (s.enterNap node) ∧
      ∀ k, k < 4 → exec (.napEntry node (some k)) s = .next (((s.put F.pwrStat_aborted node 0 0 1).put F.pwrStat_abortAt node 0 0 k).leaveIdle node)) ∧
    (s.fld F.pwrStat_state node = 2 → s.pstate ≠ 4 → s.pstate ≠ 2 → s.recentExits.length < 12 →
      exec (.napExit node) s = .next ((s.exitNap node).modPlant fun p => { p with exits := s.recentExits ++ [s.now] }))) ∧
  (∀ (s : State), (s.pstate = 3 → exec .panelWake s = .next ((s.wakeStacks.wakeLinks).put F.hubPstate_state 180 0 0 0)) ∧
    exec .wakeN s = .next (s.wakeEvent 5 0) ∧
    ((s.word .hubWakeTimer 180).toNat ≠ 0 → (s.word .hubWakeTimer 180).toNat ≤ s.now →
      exec .wakeTimer s = .next ((s.setWord .hubWakeTimer 180 0 0 0).wakeEvent 4 0)))

/-! ## Faults and the log -/

/-- COMPLETES: PROBE_ATTEMPT, PROBE_FINDING, LOOPBACK_TEST, REGION_RETIRE, SPARE_POWERED, SPARE_KAT_DONE, UNIT_RESET. A suspect node is probed on both paths, three times
each; the finding clears it, sends it to the loopback test or condemns it (R491-R493). A region or an edge die decided to be retired is retired once; a spare that has its
power starts, and joins the map when its tests pass, or is retired; a drove engine or a stack controller is reset on its own (R483-R490, R494). -/
def Obligations.ProbesAndRetirement : Prop :=
  (∀ (s : State) (node : Nat) (p : Probe), s.probe? node = some p →
    (∀ ok, let found := fun (tries : Nat) => if ok then some true else if 2 ≤ tries then some false else none
      (p.sidebandAnswers = none → exec (.probeAttempt node true ok) s = .next (s.modProbe node fun p =>
        { p with sidebandTries := p.sidebandTries + 1, sidebandAnswers := found p.sidebandTries })) ∧
      (p.fabricAnswers = none → exec (.probeAttempt node false ok) s = .next (s.modProbe node fun p =>
        { p with fabricTries := p.fabricTries + 1, fabricAnswers := found p.fabricTries }))) ∧
    (∀ fab side, p.fabricAnswers = some fab → p.sidebandAnswers = some side → p.loopback = false →
      ∃ (c : Nat) (v u : State), (c, v) = (if fab && side then s.countEvent (eventKey 14 node) sec else (0, s)) ∧
        u = (v.showFinding node fab side c).stateEntry ⟨s.master, pageOf .log s.master 0, 0x3F, none⟩ .ce .probeFinding 0 (node + 256 * b2n fab + 512 * b2n side) ∧
        (fab = true → side = true → c < 3 → exec (.probeFinding node) s = .next (u.clearSuspect node)) ∧
        (fab = true → side = false → exec (.probeFinding node) s = .next ((u.clearSuspect node).alert)) ∧
        (fab = false → side = false → exec (.probeFinding node) s = .next (u.condemn node 4)) ∧
        ((fab = false ∧ side = true) ∨ (fab = true ∧ side = true ∧ 3 ≤ c) →
          exec (.probeFinding node) s = .next (u.modProbe node fun p => { p with loopback := true }))) ∧
    (p.loopback = true → ∀ transit, exec (.loopbackTest node transit) s = .next (s.condemn node (if transit then 3 else 4)))) ∧
  (∀ (s : State) (node page bit' count : Nat), s.retiring.findSome? (Retire.of node) = some (page, bit', count) → s.pstate ≠ 4 → s.unit node 0 ≠ .retired →
    (isRegion node = true → exec (.regionRetire node) s = .next (s.retireRegion node page bit' count)) ∧
    (isEdge node = true → exec (.regionRetire node) s = .next (s.retireEdge node page bit' count))) ∧
  (∀ (s : State) (node : Nat), isRegion node = true → s.unit node 0 = .starting → s.role node = 1 →
    ((s.pow node).freq = 0 → (s.pow node).upAt ≤ s.now → ∃ u : State, exec (.sparePowered node) s = .next u ∧ (u.pow node).freq = opFreq 10 ∧
      u.unit node 0 = .starting ∧ u.role node = 1) ∧
    ((s.pow node).freq ≠ 0 →
      exec (.spareKatDone node true) s = .next (((s.put F.rgnSite_role node 0 0 0).startRegion node).stateEntry ⟨node, 0, 0x3F, none⟩ .ce .substitution 0 node) ∧
      exec (.spareKatDone node false) s = .next (s.retireRegion node 0 31 1))) ∧
  (∀ (s : State) (node : Nat) (stack : Bool), isEdge node = true →
    let page := if stack then pageOf .hbm node 0 else pageOf .drv node 0
    let u : State := { s with drains := s.drains.filter fun e => e.1 != node * 64 + page }
    (Sparse.find? s.drains (node * 64 + page) = some .reset → exec (.unitReset node stack) s = .next (if stack then u.resetController node else u.resetDrove node)) ∧
    (Sparse.find? s.drains (node * 64 + page) ≠ some .reset → s.unit node page = .running →
      let v := u.countEdge node 2 (if stack then 3 else 4)
      exec (.unitReset node stack) s = .next (if stack then v.resetController node else v.resetDrove node)))

/-- COMPLETES: HEARTBEAT, HEARTBEAT_LOSS, HANDOVER_MASTER, BEACON_ABSENT. Hubs (R495-R498): a heartbeat is noted at both; the standby that loses its master's takes over
with every live router fenced against it; the master that loses the standby goes on alone; the master hands over in order; with both lost, regions stop when the beacon
has been absent for a millisecond. -/
def Obligations.Hubs : Prop :=
  (∀ (s : State) (hub : Nat) (fabric sideband : Bool), isHub hub = true → fabric = true ∨ sideband = true → s.plant.hubLost = false → s.plant.bothLost = false →
    (∀ t, Sparse.find? s.plant.sent hub = some t → t + 100 * us ≤ s.now) →
    ∃ u : State, exec (.heartbeat hub fabric sideband) s = .next u ∧ Sparse.get 0 u.plant.beats hub = s.now ∧ u.mem = s.mem ∧ u.regs = s.regs ∧
      (fabric = true → sideband = true → u.probes = s.probes)) ∧
  (∀ (s : State), isHub s.master = true → s.plant.bothLost = false → s.plant.hubLost = false →
    (s.unit s.master 0 ≠ .retired → (Sparse.get 0 s.plant.beats s.master + 3 * ms ≤ s.now ∨ s.plant.hubFault = true) →
      ∃ u : State, exec (.heartbeatLoss s.master) s = .next u ∧ u.master = otherHub s.master) ∧
    (s.unit (otherHub s.master) 0 ≠ .retired → Sparse.get 0 s.plant.beats (otherHub s.master) + 3 * ms ≤ s.now →
      exec (.heartbeatLoss (otherHub s.master)) s =
        .next ((((s.loseHub (otherHub s.master)).error ⟨s.master, 0, 0x3F, none⟩ 30 .ueUnit 0 (otherHub s.master)).vector 51).alert)) ∧
    (s.switchBusy = false →
      exec .handoverMaster s = .next ((s.moveMaster).stateEntry ⟨otherHub s.master, 0, 0x3F, none⟩ .ce .failover 0 (otherHub s.master)))) ∧
  (∀ (s : State), s.plant.bothLost = true → s.plant.beaconAt + ms ≤ s.now →
    exec .beaconAbsent s = .next ((s.active.foldl (fun s n => s.stopRegion n) s).fault))

/-- COMPLETES: LOG_REPORT, LOG_SPILL, LOG_SCRUB, HOLDUP_CHARGED. The log (R499-R507): the master hub commits the oldest report under the next sequence number, or drops it
where there is no room, or takes no note of it while the log is stopped; eight entries go to a page of the flash, which may fail; the store is scrubbed every 100 ms; the
hold-up store is charged 400 ms after power. -/
def Obligations.LogCommitsSpillsAndScrubs : Prop :=
  (∀ (s : State) (e : LogEntry) (rest : List LogEntry), s.reports = e :: rest → s.plant.bothLost = false →
    let u : State := { s with reports := rest }
    (s.log.stopped = true → exec .logReport s = .next u) ∧
    (s.log.stopped = false → s.lg F.logStat_hostRingOnly = 0 →
      (s.logFree = 0 ∨ (e.isFault = true ∧ e.severity = 0 ∧ s.logFree < 256) → exec .logReport s = .next ((u.dropEntry e).pins e)) ∧
      (0 < s.logFree → (e.isFault = true → e.severity = 0 → 256 ≤ s.logFree) → s.log.droppedLow = 0 → s.log.droppedHigh = 0 →
        exec .logReport s = .next ((u.commit e).signals e)))) ∧
  (∀ (s : State), s.flashWorks = true → s.log.stopped = false → 8 ≤ s.unspilled.length → s.hostSpills = false →
    exec (.logSpill true) s = .next (s.writeFlash (s.unspilled.take 8)) ∧
    exec (.logSpill false) s = .next (((s.putLg F.logSpill_flashFail 1).error ⟨s.master, pageOf .log s.master 0, 0x3F, none⟩ 12 .de 0 0).alert)) ∧
  (∀ (s : State) (bad : List (Nat × Nat × Nat)) (n : Nat), bad.all (fun w => isHub w.1 && decide (w.2.1 < 4) && decide (w.2.2 < 8192)) = true →
    s.plant.scrubAt + 100 * ms ≤ s.now → ∃ u : State, exec (.logScrub bad n) s = .next u ∧ u.mem = s.mem ∧ u.plant.scrubAt = s.now ∧
      (bad = [] → n = 0 → u = s.modPlant fun p => { p with scrubAt := s.now })) ∧
  (∀ (s : State), s.plant.vinCore = true → s.lg F.logStat_holdupReady = 0 → s.plant.vinAt + 400 * ms ≤ s.now →
    ∃ u : State, exec .holdupCharged s = .next u ∧ u.fld F.logStat_holdupReady 180 = 1 ∧ u.fld F.logStat_holdupReady 181 = 1 ∧ u.mem = s.mem)

/-! ## Reset -/

/-- COMPLETES: PANEL_RESET_RELEASE, PANEL_RESET_ASSERT, PWR_EN_DEASSERT, VAON_PRESENT, RAIL_FRAME. The panel's pins (R512-R514, R524, R547, R553): reset released after
readiness of the supply runs the bring-up, which fails at step 2 when neither hub's ROM is good and at step 3 when the fuses are silent; reset or PWR_EN released resets
the panel; the rail frame goes out every 10 us; the supply comes back. -/
def Obligations.Pins : Prop :=
  (∀ (s : State) (b : Bringup), s.fld F.hubBoot_step 180 = 2 → s.fld F.hubBoot_failStep 180 = 0 → s.plant.vaon = true →
    ∃ u : State, exec (.panelResetRelease b) s = .next u ∧ u.plant.resetN = false ∧ u.plant.pwrEn = true ∧ u.plant.vinCore = true ∧
      ((∀ h, h = 180 ∨ h = 181 → b.romBad.contains h = true) → u.fld F.hubBoot_failStep 180 = 2) ∧
      ((∃ h, (h = 180 ∨ h = 181) ∧ b.romBad.contains h = false) → b.fuseSilent = true → u.fld F.hubBoot_failStep 180 = 3)) ∧
  (∀ (s : State), (s.plant.vaon = true → exec .panelResetAssert s = .next (s.flushAndReset true)) ∧
    (s.plant.pwrEn = true → exec .pwrEnDeassert s = .next ((s.flushAndReset true).modPlant fun p => { p with pwrEn := false })) ∧
    (s.plant.vaon = true → exec .vaonPresent s = .next (s.modPlant fun p => { p with refLost := false, vaon := true })) ∧
    (s.plant.vaon = false → ∃ u : State, exec .vaonPresent s = .next u ∧ u.plant.vaon = true ∧ u.plant.refLost = false ∧ u.mem = s.mem ∧ u.regs = s.regs ∧
      u.log.stopped = true ∧ u.log.flash = s.log.flash ∧ u.log.ring = [])) ∧
  (∀ (s : State) (step next : Nat), step < 4 → next < 4096 → s.ready = true → s.plant.railAt + 10 * us ≤ s.now →
    ∃ (u : State) (frame : Nat), exec (.railFrame step next) s = .next u ∧ u.outbox = s.outbox ++ [.railFrame s.master frame] ∧ frame % 4096 = next ∧
      frame / 4096 % 4 = step ∧ u.plant.railAt = s.now ∧ u.plant.railSeq = (s.plant.railSeq + 1) % 256 ∧ u.mem = s.mem ∧ u.regs = s.regs)

/-- The panel right after reset (R19, R399, R512, R527): memory lists nothing and is in its canonical form, nothing is in flight or waits, the master hub's node is
HN, HUB_BOOT.STEP reads 2, UNIT_STAT.STATE of every unit reads 0 (off). -/
def Obligations.ResetState : Prop :=
  State.reset.mem = {} ∧ State.reset.master = 180 ∧ State.reset.mem.wf = true ∧ State.reset.pending = [] ∧ State.reset.fabric = [] ∧ State.reset.outstanding = [] ∧
    State.reset.queues = [] ∧ State.reset.jobs = [] ∧ State.reset.fld F.hubBoot_step 180 = 2 ∧
    (∀ node page, node < 182 → page < 41 → State.reset.unit node page = .off) ∧
    (∀ r node b i, State.reset.word r node b i = resetWord r node b i)

/-! ## Invariants -/

/-- Whatever a command does, storage keeps its canonical form, the queue of commands is not touched, and no free value is drawn twice. -/
def Obligations.CommandsKeepTheInvariant : Prop := ∀ (c : Instr) (s t : State), exec c s = .next t → Intact s t

/-- Every step keeps storage in its canonical form.
A step takes at most one command from the queue, the oldest one, and adds none. -/
def Obligations.StepsKeepMemoryAndTakeOneCommand : Prop :=
  (∀ (s t : State), s.mem.wf = true → step s = .next t → t.mem.wf = true) ∧
  (∀ (s t : State), step s = .next t → t.pending = s.pending.tail)

/-! ## Encodings and addresses -/

/-- No bit of a vector instruction's word is dropped, and every field comes back: the word of a decoded word is the word; the decoded word of an instruction
whose fields fit their bits is the instruction, field by field as its format has them (R158). -/
def Obligations.VectorWordsRoundTrip : Prop :=
  (∀ w, w < 2 ^ 32 → encodeIns (decodeIns w) = w) ∧
  (∀ i : Ins, i.fmt < 4 → i.op < 64 → i.pg < 8 → i.fn < 8 → i.b < 64 → (i.fmt ≠ 3 → i.d < 64) → (i.fmt = 3 → i.d < 16 ∧ i.a < 16 ∧ 0 ≤ i.imm ∧ i.imm < 2 ^ 16) →
    (i.fmt = 0 ∨ i.fmt = 1 → i.a < 64) → (i.fmt = 2 → i.a < 16 ∧ -128 ≤ i.imm ∧ i.imm < 128) → (i.fmt = 1 → -2048 ≤ i.imm ∧ i.imm < 2048) →
    let j := decodeIns (encodeIns i)
    encodeIns i < 2 ^ 32 ∧ j.fmt = i.fmt ∧ j.op = i.op ∧ j.d = i.d ∧ j.a = i.a ∧ (i.fmt ≠ 0 → j.imm = i.imm) ∧ (i.fmt = 0 → j.b = i.b) ∧
      (i.fmt = 0 ∨ i.fmt = 2 → j.pg = i.pg ∧ j.fn = i.fn))

/-- In single placement an address of the stack range lies in the stack and at the offset of R312.
In paired placement the stack range ends at 0x0047_FFFF_FFFF, and the rest of it refuses accesses (R37).
The host range is the master hub's host bus (R41). -/
def Obligations.AddressRanges : Prop :=
  (∀ (s : State) (node epoch a : Nat), s.paired = false → a < 0x9000000000 →
      s.locate node epoch a 1 = .ok (s.stackEntry node epoch (a / 0x600000000), .stack (a / 0x600000000) (a % 0x600000000))) ∧
  (∀ (s : State) (node epoch a : Nat), s.paired = true →
      (a < 0x4800000000 → ∃ d st off, s.locate node epoch a 1 = .ok (d, .stack st off)) ∧
      (0x4800000000 ≤ a → a < 0x9000000000 → s.locate node epoch a 1 = .error .accessFault)) ∧
  (∀ (s : State) (node epoch a : Nat), a < 2 ^ 44 → s.locate node epoch (0x300000000000 + a) 1 = .ok (s.master, .host a))

/-- E2M1 decodes by the table of R90, in halves; code 0x8 is -0. -/
def Obligations.E2M1Table : Prop :=
  ∀ c, c < 8 → ∃ n, [0, 1, 2, 3, 4, 6, 8, 12][c]? = some n ∧ elemValue 4 0 c = .fin false n (-1) ∧ elemValue 4 0 (8 + c) = .fin true n (-1)

/-! ## What stores nothing -/

/-- Register-only vector instructions, bridge and link events, rounds, clocks, beacons and the power loops change no byte of storage, whatever they meet. -/
def Obligations.CommandsThatStoreNothing : Prop :=
  ∀ (s u : State),
    (∀ t, (∀ r ∈ laneRows, exec (r.row t) s = .next u → u.mem = s.mem) ∧ (∀ r ∈ scalarRows, exec (r.row t) s = .next u → u.mem = s.mem) ∧
      (∀ r ∈ maskRows, exec (r.row t) s = .next u → u.mem = s.mem) ∧ (∀ r ∈ branchRows, exec (r.row t) s = .next u → u.mem = s.mem) ∧
      ∀ c ∈ [Instr.vred t, .sop t, .srd t, .vqnt t, .vdqnt t, .yield t, .yieldEnd t], exec c s = .next u → u.mem = s.mem) ∧
    (∀ node port lane x y ok, ∀ c ∈ [Instr.flitCrcError node port lane x y, .nakResend node port lane, .resentFlitGood node port lane,
      .bridgeRetrainDone node port ok, .suspectMark node, .epochFlip node, .epochDrainEnd node, .linkWakeEvent node port .signal, .trainingDone node port ok,
      .alignDone node port ok, .knockSend node port, .ackTimeout node port, .stackTempRead node x], exec c s = .next u → u.mem = s.mem) ∧
    (∀ node blk x ok, ∀ c ∈ [Instr.roundsRotation node blk, .roundsTestDone node blk ok x, .roundsWindowEnd node blk, .sliceWindowOpen node blk,
      .vectorRoundsTest node blk, .vectorTestDone node blk ok, .sxRoundsTest node blk ok], exec c s = .next u → u.mem = s.mem) ∧
    (∀ node x y, ∀ c ∈ [Instr.freqChangeStart node, .pllLock node, .targetRecompute node x y, .droopCrossing node, .droopRecovery node, .beaconSend,
      .beaconReceive node 0, .contactMeasure node x, .efficiencyLoop node x y, .budgetLoop x y, .budgetGuard x, .throttleAssert, .throttleRelease,
      .energyInterval node x [], .forecast [] x, .holdupCharged, .dynamicAddress x, .platformEvent x, .guestDoorbell node, .heartbeat node true true,
      .railFrame x y, .knockSend node x], exec c s = .next u → u.mem = s.mem)
end

