-- ==== Sys2Proof/Laws/Memory.lean ====
section
/-!
SUPPORT. The laws of storage: every operation keeps the canonical form; a read after a write of the same place gives what was
written; a write leaves every other byte alone.
-/
namespace Sys2Proof.Machine

/-- The canonical form, said of the list as a whole. -/
theorem cellsWf_iff (u : List UndefRange) (lo : Nat) (cs : List Host.Cell) :
    cellsWf u lo cs = true ↔ cs.Pairwise (fun c d => c.1 < d.1) ∧ ∀ c ∈ cs, lo ≤ c.1 ∧ c.2 ≠ 0 ∧ undefDraw u c.1 = none := by
  induction cs generalizing lo with
  | nil => simp [cellsWf]
  | cons c rest ih =>
    obtain ⟨k, v⟩ := c
    simp only [cellsWf, Bool.and_eq_true, decide_eq_true_eq, ih, Option.isNone_iff_eq_none, List.pairwise_cons, List.mem_cons,
      forall_eq_or_imp]
    constructor
    · rintro ⟨⟨⟨a, b⟩, c⟩, d, e⟩
      exact ⟨⟨fun x hx => (e x hx).1, d⟩, ⟨a, b, c⟩, fun x hx => ⟨by have := (e x hx).1; omega, (e x hx).2⟩⟩
    · rintro ⟨⟨d, e⟩, ⟨a, b, c⟩, f⟩
      exact ⟨⟨⟨a, b⟩, c⟩, e, fun x hx => ⟨d x hx, (f x hx).2⟩⟩

theorem Mem.wf_iff (m : Mem) :
    m.wf = true ↔ m.cells.Pairwise (fun c d => c.1 < d.1) ∧ ∀ c ∈ m.cells, c.2 ≠ 0 ∧ undefDraw m.undef c.1 = none := by
  simp [Mem.wf, cellsWf_iff]

theorem undefDraw_append (u v : List UndefRange) (k : Nat) : undefDraw (u ++ v) k = (undefDraw u k).or (undefDraw v k) := by
  induction u with
  | nil => simp [undefDraw]
  | cons r rest ih => simp only [List.cons_append, undefDraw, ih]; split <;> simp

/-- A key is in no undefined range exactly when no range holds it. -/
theorem undefDraw_none (u : List UndefRange) (k : Nat) : undefDraw u k = none ↔ ∀ r ∈ u, ¬(r.lo ≤ k ∧ k < r.lo + r.len) := by
  induction u with
  | nil => simp [undefDraw]
  | cons r rest ih => simp only [undefDraw, List.mem_cons, forall_eq_or_imp]; split <;> simp_all

/-- Defining a range takes its keys out of the undefined ranges and no others. -/
theorem undefDraw_define (lo hi : Nat) (u : List UndefRange) (k : Nat) :
    undefDraw (define lo hi u) k = if lo ≤ k ∧ k < hi then none else undefDraw u k := by
  induction u with
  | nil => simp [define, undefDraw]
  | cons r rest ih =>
    have cut : undefDraw (r.cut lo hi) k = if lo ≤ k ∧ k < hi then none else if r.lo ≤ k ∧ k < r.lo + r.len then some r.draw else none := by
      simp only [UndefRange.cut]
      split <;> (try split) <;> (try split) <;> simp only [undefDraw, List.nil_append, List.append_nil, List.cons_append] <;>
        repeat' split
      all_goals first | rfl | omega
    simp only [define, undefDraw_append, cut, ih, undefDraw]
    split <;> (try split) <;> simp_all

theorem mem_putCell {cs : List Host.Cell} (h : cs.Pairwise fun c d => c.1 < d.1) (a : Nat) (v : Byte) (c : Host.Cell) :
    c ∈ putCell cs a v ↔ (c = (a, v) ∧ v ≠ 0) ∨ (c ∈ cs ∧ c.1 ≠ a) := by
  induction cs with
  | nil => simp only [putCell]; split <;> simp_all
  | cons d rest ih =>
    obtain ⟨k, w⟩ := d
    rw [List.pairwise_cons] at h
    have ih := ih h.2
    have low : ∀ x ∈ rest, k < x.1 := fun x hx => h.1 x hx
    have free : a ≤ k → (c ∈ rest → c.1 ≠ a) := fun hk hc => by have := low c hc; omega
    simp only [putCell]
    split
    · have hk : c = (k, w) → c.1 ≠ a := fun e => by subst e; simp; omega
      split <;> simp only [List.mem_cons] <;> have := free (by omega) <;> grind
    · split
      · rename_i hak
        rw [hak] at free ⊢
        have hk : c = (k, w) → c.1 = k := fun e => by subst e; rfl
        split <;> simp only [List.mem_cons] <;> have := free (by omega) <;> grind
      · have hk : c = (k, w) → c.1 ≠ a := fun e => by subst e; simp; omega
        simp only [List.mem_cons, ih]; grind

theorem pairwise_putCell {cs : List Host.Cell} (h : cs.Pairwise fun c d => c.1 < d.1) (a : Nat) (v : Byte) :
    (putCell cs a v).Pairwise fun c d => c.1 < d.1 := by
  induction cs with
  | nil => simp only [putCell]; split <;> simp
  | cons d rest ih =>
    obtain ⟨k, w⟩ := d
    have h' := List.pairwise_cons.1 h
    have ih := ih h'.2
    simp only [putCell]
    split
    · split
      · exact h
      · rw [List.pairwise_cons]
        refine ⟨fun x hx => ?_, h⟩
        rcases List.mem_cons.1 hx with rfl | hx
        · assumption
        · have := h'.1 x hx; simp only at this ⊢; omega
    · split
      · subst_vars
        split
        · exact h'.2
        · rw [List.pairwise_cons]; exact ⟨fun x hx => h'.1 x hx, h'.2⟩
      · rw [List.pairwise_cons]
        refine ⟨fun x hx => ?_, ih⟩
        rcases (mem_putCell h'.2 a v x).1 hx with ⟨rfl, _⟩ | hx
        · simp only; omega
        · exact h'.1 x hx.1

theorem cellAt_none {cs : List Host.Cell} {x : Nat} (h : ∀ c ∈ cs, c.1 ≠ x) : cellAt cs x = none := by
  induction cs with
  | nil => rfl
  | cons c rest ih =>
    obtain ⟨k, v⟩ := c
    simp only [cellAt]
    rw [if_neg (fun e => h (k, v) (by simp) e.symm)]
    exact ih fun c hc => h c (by simp [hc])

theorem cellAt_putCell {cs : List Host.Cell} (h : cs.Pairwise fun c d => c.1 < d.1) (a : Nat) (v : Byte) (x : Nat) :
    cellAt (putCell cs a v) x = if x = a then (if v = 0 then none else some v) else cellAt cs x := by
  induction cs with
  | nil => simp only [putCell]; split <;> simp [cellAt]
  | cons d rest ih =>
    obtain ⟨k, w⟩ := d
    rw [List.pairwise_cons] at h
    have ih := ih h.2
    have low : a ≤ k → cellAt rest a = none := fun hk => cellAt_none fun c hc => by
      have := h.1 c hc
      simp only at this
      omega
    simp only [putCell]
    split
    · by_cases hx : x = a
      · subst hx
        have := low (by omega)
        split <;> simp [cellAt, this]; omega
      · split <;> simp [cellAt, hx]
    · split
      · rename_i e
        subst e
        have := low (Nat.le_refl _)
        by_cases hx : x = a
        · subst hx; split <;> simp [cellAt, this]
        · split <;> simp [cellAt, hx]
      · simp only [cellAt, ih]; split <;> split <;> simp_all

/-! ## Every operation keeps the canonical form -/

theorem Mem.wf_putByte {m : Mem} (w : m.wf = true) (a : Nat) (v : Byte) : (m.putByte a v).wf = true := by
  rw [Mem.wf_iff] at *
  refine ⟨pairwise_putCell w.1 a v, fun c hc => ?_⟩
  simp only [Mem.putByte, undefDraw_define]
  rcases (mem_putCell w.1 a v c).1 hc with ⟨rfl, hv⟩ | ⟨hc, hne⟩
  · exact ⟨hv, by simp⟩
  · exact ⟨(w.2 c hc).1, by rw [if_neg (by omega)]; exact (w.2 c hc).2⟩

theorem Mem.wf_write {m : Mem} (w : m.wf = true) (a : Nat) (bs : List Byte) : (m.write a bs).wf = true := by
  induction bs generalizing m a with
  | nil => exact w
  | cons v rest ih => exact ih (Mem.wf_putByte w a v) _

theorem Mem.wf_writeMasked {m : Mem} (w : m.wf = true) (a : Nat) (bs : List (Byte × Bool)) : (m.writeMasked a bs).wf = true := by
  induction bs generalizing m a with
  | nil => exact w
  | cons v rest ih =>
    obtain ⟨v, e⟩ := v
    cases e
    · exact ih w _
    · exact ih (Mem.wf_putByte w a v) _

/-- Fewer cells and no more undefined keys keep the form. -/
theorem Mem.wf_filter {m n : Mem} (w : m.wf = true) (p : Host.Cell → Bool) (hc : n.cells = m.cells.filter p)
    (hu : ∀ c ∈ m.cells, p c = true → undefDraw m.undef c.1 = none → undefDraw n.undef c.1 = none) : n.wf = true := by
  rw [Mem.wf_iff] at *
  rw [hc]
  refine ⟨w.1.filter _, fun c hx => ?_⟩
  have hx := List.mem_filter.1 hx
  exact ⟨(w.2 c hx.1).1, hu c hx.1 hx.2 (w.2 c hx.1).2⟩

/-- The form says nothing of the marks. -/
theorem Mem.wf_marks {m n : Mem} (w : m.wf = true) (hc : n.cells = m.cells) (hu : n.undef = m.undef) : n.wf = true := by
  simpa [Mem.wf, hc, hu] using w

theorem Mem.wf_undefine {m : Mem} (w : m.wf = true) (lo len d : Nat) : (m.undefine lo len d).wf = true :=
  Mem.wf_filter w (fun c => c.1 < lo || lo + len ≤ c.1) rfl fun c _ hp hn => by
    simp only [Bool.or_eq_true, decide_eq_true_eq] at hp
    simp only [Mem.undefine, undefDraw]
    rw [if_neg (by omega)]
    exact hn

theorem Mem.wf_zero {m : Mem} (w : m.wf = true) (lo len : Nat) : (m.zero lo len).wf = true :=
  Mem.wf_filter w (fun c => c.1 < lo || lo + len ≤ c.1) rfl fun c _ _ hn => by simp [Mem.zero, undefDraw_define, hn]

theorem Mem.wf_mark {m : Mem} (w : m.wf = true) (a n : Nat) : (m.mark a n).wf = true := Mem.wf_marks w rfl rfl

theorem Mem.wf_unmark {m : Mem} (w : m.wf = true) (a n : Nat) : (m.unmark a n).wf = true := Mem.wf_marks w rfl rfl

theorem Mem.wf_store {m : Mem} (w : m.wf = true) (a : Nat) (ls : Lanes) (bad : Bool) : (m.store a ls bad).wf = true :=
  Mem.wf_marks (Mem.wf_writeMasked w a ls) rfl rfl

theorem Mem.wf_fetch {m : Mem} (w : m.wf = true) (a n : Nat) : (m.fetch a n).2.wf = true := Mem.wf_marks w rfl rfl

/-- Storage right after reset is in its canonical form. -/
theorem State.reset_mem_wf : State.reset.mem.wf = true := rfl

/-! ## Reading back -/

theorem Mem.byte_putByte {m : Mem} (w : m.wf = true) (a : Nat) (v : Byte) (x : Nat) :
    (m.putByte a v).byte x = if x = a then v else m.byte x := by
  have h := (Mem.wf_iff m).1 w
  simp only [Mem.byte, Mem.putByte, cellAt_putCell h.1, undefDraw_define]
  by_cases hx : x = a
  · subst hx; simp only [if_true]; by_cases hv : v = 0
    · simp [hv]
    · simp only [if_neg hv]
  · simp only [if_neg hx, if_neg (show ¬(a ≤ x ∧ x < a + 1) by omega)]

/-- A write leaves every byte outside it as it was. -/
theorem Mem.byte_write_outside {m : Mem} (w : m.wf = true) (a : Nat) (bs : List Byte) (x : Nat) (h : x < a ∨ a + bs.length ≤ x) :
    (m.write a bs).byte x = m.byte x := by
  induction bs generalizing m a with
  | nil => rfl
  | cons v rest ih =>
    simp only [List.length_cons] at h
    rw [Mem.write, ih (Mem.wf_putByte w a v) (a + 1) (by omega), Mem.byte_putByte w, if_neg (by omega)]

/-- A byte of a write reads as it was written. -/
theorem Mem.byte_write_inside {m : Mem} (w : m.wf = true) (a : Nat) (bs : List Byte) (i : Nat) (h : i < bs.length) :
    (m.write a bs).byte (a + i) = bs[i] := by
  induction bs generalizing m a i with
  | nil => simp at h
  | cons v rest ih =>
    rw [Mem.write]
    cases i with
    | zero =>
      rw [Mem.byte_write_outside (Mem.wf_putByte w a v) _ _ _ (by omega), Mem.byte_putByte w]; simp
    | succ i =>
      have := ih (Mem.wf_putByte w a v) (a + 1) i (by simpa using h)
      rw [show a + (i + 1) = a + 1 + i by omega, this]; rfl

theorem Mem.read_getElem (m : Mem) (a n i : Nat) (h : i < (m.read a n).length) : (m.read a n)[i] = m.byte (a + i) := by
  induction n generalizing a i with
  | zero => simp [Mem.read] at h
  | succ n ih =>
    cases i with
    | zero => rfl
    | succ i => simp only [Mem.read, List.getElem_cons_succ]; rw [ih]; congr 1; omega

@[simp] theorem Mem.length_read (m : Mem) (a n : Nat) : (m.read a n).length = n := by
  induction n generalizing a with
  | zero => rfl
  | succ n ih => simp [Mem.read, ih]

/-- A read of the place just written gives what was written. -/
theorem Mem.read_write {m : Mem} (w : m.wf = true) (a : Nat) (bs : List Byte) : (m.write a bs).read a bs.length = bs := by
  refine List.ext_getElem (by simp) fun i h1 h2 => ?_
  rw [Mem.read_getElem, Mem.byte_write_inside w a bs i h2]

/-- A read depends on its bytes alone. -/
theorem Mem.read_congr {m n : Mem} (a k : Nat) (h : ∀ x, a ≤ x → x < a + k → m.byte x = n.byte x) : m.read a k = n.read a k := by
  refine List.ext_getElem (by simp) fun i h1 h2 => ?_
  rw [Mem.read_getElem, Mem.read_getElem]
  exact h _ (by omega) (by simp at h1; omega)

/-- A masked write changes the enabled bytes alone. -/
theorem Mem.byte_writeMasked {m : Mem} (w : m.wf = true) (a : Nat) (ls : Lanes) (x : Nat) :
    (m.writeMasked a ls).byte x = match ls[x - a]? with
      | some (v, e) => if a ≤ x ∧ e = true then v else m.byte x
      | none => m.byte x := by
  induction ls generalizing m a with
  | nil => simp [Mem.writeMasked]
  | cons v rest ih =>
    obtain ⟨v, e⟩ := v
    have step : ∀ m' : Mem, m'.wf = true → (∀ y, y ≠ a → m'.byte y = m.byte y) → (m'.writeMasked (a + 1) rest).byte x =
        if x = a then m'.byte a else match ((v, e) :: rest)[x - a]? with
          | some (v, e) => if a ≤ x ∧ e = true then v else m.byte x
          | none => m.byte x := by
      intro m' w' hm'
      rw [ih w' (a + 1)]
      by_cases hx : x = a
      · subst hx
        rw [show x - (x + 1) = 0 by omega]
        cases rest with
        | nil => simp
        | cons y ys => obtain ⟨y1, y2⟩ := y; simp only [List.getElem?_cons_zero]; rw [if_neg (by omega), if_pos trivial]
      · by_cases hl : a < x
        · obtain ⟨d, rfl⟩ : ∃ d, x = a + 1 + d := ⟨x - a - 1, by omega⟩
          rw [show a + 1 + d - (a + 1) = d by omega, show a + 1 + d - a = d + 1 by omega, if_neg hx, List.getElem?_cons_succ]
          cases rest[d]? with
          | none => simp [hm' _ hx]
          | some y => obtain ⟨y1, y2⟩ := y; simp only [hm' _ hx]; cases y2 <;> simp; intro; omega
        · rw [show x - (a + 1) = 0 by omega, show x - a = 0 by omega, if_neg hx]
          have h1 : ¬a + 1 ≤ x := by omega
          have h2 : ¬a ≤ x := by omega
          cases rest with
          | nil => simp [hm' _ hx, h2]
          | cons y ys => obtain ⟨y1, y2⟩ := y; simp [h1, h2, hm' _ hx]
    cases e
    · rw [Mem.writeMasked, step m w fun _ _ => rfl]
      split
      · subst_vars; simp
      · rfl
    · rw [Mem.writeMasked, step _ (Mem.wf_putByte w a v) fun y hy => by rw [Mem.byte_putByte w, if_neg hy]]
      split
      · subst_vars; simp [Mem.byte_putByte w]
      · rfl

end Sys2Proof.Machine
end

