-- ==== Sys2Proof/Laws/State.lean ====
section
/-!
SUPPORT. What the updates of the state act on: each changes one field, and every other field reads after it as before, so that no
proof unfolds an update to pass it.
-/
namespace Sys2Proof.Machine

set_option Elab.async false

/-! `State.setWord` changes `regs` alone. -/

@[simp] theorem State.setWord_now (s : State) (r : Reg) (node b i : Nat) (w : Word) : (s.setWord r node b i w).now = s.now := rfl
@[simp] theorem State.setWord_mem (s : State) (r : Reg) (node b i : Nat) (w : Word) : (s.setWord r node b i w).mem = s.mem := rfl
@[simp] theorem State.setWord_freeCount (s : State) (r : Reg) (node b i : Nat) (w : Word) : (s.setWord r node b i w).freeCount = s.freeCount := rfl
@[simp] theorem State.setWord_master (s : State) (r : Reg) (node b i : Nat) (w : Word) : (s.setWord r node b i w).master = s.master := rfl
@[simp] theorem State.setWord_fabricTime (s : State) (r : Reg) (node b i : Nat) (w : Word) : (s.setWord r node b i w).fabricTime = s.fabricTime := rfl
@[simp] theorem State.setWord_fabric (s : State) (r : Reg) (node b i : Nat) (w : Word) : (s.setWord r node b i w).fabric = s.fabric := rfl
@[simp] theorem State.setWord_outstanding (s : State) (r : Reg) (node b i : Nat) (w : Word) : (s.setWord r node b i w).outstanding = s.outstanding := rfl
@[simp] theorem State.setWord_nextTxn (s : State) (r : Reg) (node b i : Nat) (w : Word) : (s.setWord r node b i w).nextTxn = s.nextTxn := rfl
@[simp] theorem State.setWord_routers (s : State) (r : Reg) (node b i : Nat) (w : Word) : (s.setWord r node b i w).routers = s.routers := rfl
@[simp] theorem State.setWord_bridges (s : State) (r : Reg) (node b i : Nat) (w : Word) : (s.setWord r node b i w).bridges = s.bridges := rfl
@[simp] theorem State.setWord_lanes (s : State) (r : Reg) (node b i : Nat) (w : Word) : (s.setWord r node b i w).lanes = s.lanes := rfl
@[simp] theorem State.setWord_changes (s : State) (r : Reg) (node b i : Nat) (w : Word) : (s.setWord r node b i w).changes = s.changes := rfl
@[simp] theorem State.setWord_switching (s : State) (r : Reg) (node b i : Nat) (w : Word) : (s.setWord r node b i w).switching = s.switching := rfl
@[simp] theorem State.setWord_pens (s : State) (r : Reg) (node b i : Nat) (w : Word) : (s.setWord r node b i w).pens = s.pens := rfl
@[simp] theorem State.setWord_hefts (s : State) (r : Reg) (node b i : Nat) (w : Word) : (s.setWord r node b i w).hefts = s.hefts := rfl
@[simp] theorem State.setWord_queues (s : State) (r : Reg) (node b i : Nat) (w : Word) : (s.setWord r node b i w).queues = s.queues := rfl
@[simp] theorem State.setWord_forecasts (s : State) (r : Reg) (node b i : Nat) (w : Word) : (s.setWord r node b i w).forecasts = s.forecasts := rfl
@[simp] theorem State.setWord_jobs (s : State) (r : Reg) (node b i : Nat) (w : Word) : (s.setWord r node b i w).jobs = s.jobs := rfl
@[simp] theorem State.setWord_blocks (s : State) (r : Reg) (node b i : Nat) (w : Word) : (s.setWord r node b i w).blocks = s.blocks := rfl
@[simp] theorem State.setWord_droves (s : State) (r : Reg) (node b i : Nat) (w : Word) : (s.setWord r node b i w).droves = s.droves := rfl
@[simp] theorem State.setWord_links (s : State) (r : Reg) (node b i : Nat) (w : Word) : (s.setWord r node b i w).links = s.links := rfl
@[simp] theorem State.setWord_proxies (s : State) (r : Reg) (node b i : Nat) (w : Word) : (s.setWord r node b i w).proxies = s.proxies := rfl
@[simp] theorem State.setWord_penProxies (s : State) (r : Reg) (node b i : Nat) (w : Word) : (s.setWord r node b i w).penProxies = s.penProxies := rfl
@[simp] theorem State.setWord_hbm (s : State) (r : Reg) (node b i : Nat) (w : Word) : (s.setWord r node b i w).hbm = s.hbm := rfl
@[simp] theorem State.setWord_intake (s : State) (r : Reg) (node b i : Nat) (w : Word) : (s.setWord r node b i w).intake = s.intake := rfl
@[simp] theorem State.setWord_cqStore (s : State) (r : Reg) (node b i : Nat) (w : Word) : (s.setWord r node b i w).cqStore = s.cqStore := rfl
@[simp] theorem State.setWord_fetched (s : State) (r : Reg) (node b i : Nat) (w : Word) : (s.setWord r node b i w).fetched = s.fetched := rfl
@[simp] theorem State.setWord_jbe (s : State) (r : Reg) (node b i : Nat) (w : Word) : (s.setWord r node b i w).jbe = s.jbe := rfl
@[simp] theorem State.setWord_sqLast (s : State) (r : Reg) (node b i : Nat) (w : Word) : (s.setWord r node b i w).sqLast = s.sqLast := rfl
@[simp] theorem State.setWord_cqRaised (s : State) (r : Reg) (node b i : Nat) (w : Word) : (s.setWord r node b i w).cqRaised = s.cqRaised := rfl
@[simp] theorem State.setWord_endpoints (s : State) (r : Reg) (node b i : Nat) (w : Word) : (s.setWord r node b i w).endpoints = s.endpoints := rfl
@[simp] theorem State.setWord_joins (s : State) (r : Reg) (node b i : Nat) (w : Word) : (s.setWord r node b i w).joins = s.joins := rfl
@[simp] theorem State.setWord_idLocked (s : State) (r : Reg) (node b i : Nat) (w : Word) : (s.setWord r node b i w).idLocked = s.idLocked := rfl
@[simp] theorem State.setWord_earlyJoins (s : State) (r : Reg) (node b i : Nat) (w : Word) : (s.setWord r node b i w).earlyJoins = s.earlyJoins := rfl
@[simp] theorem State.setWord_tasks (s : State) (r : Reg) (node b i : Nat) (w : Word) : (s.setWord r node b i w).tasks = s.tasks := rfl
@[simp] theorem State.setWord_taskRefusals (s : State) (r : Reg) (node b i : Nat) (w : Word) : (s.setWord r node b i w).taskRefusals = s.taskRefusals := rfl
@[simp] theorem State.setWord_reports (s : State) (r : Reg) (node b i : Nat) (w : Word) : (s.setWord r node b i w).reports = s.reports := rfl
@[simp] theorem State.setWord_log (s : State) (r : Reg) (node b i : Nat) (w : Word) : (s.setWord r node b i w).log = s.log := rfl
@[simp] theorem State.setWord_events (s : State) (r : Reg) (node b i : Nat) (w : Word) : (s.setWord r node b i w).events = s.events := rfl
@[simp] theorem State.setWord_rings (s : State) (r : Reg) (node b i : Nat) (w : Word) : (s.setWord r node b i w).rings = s.rings := rfl
@[simp] theorem State.setWord_probes (s : State) (r : Reg) (node b i : Nat) (w : Word) : (s.setWord r node b i w).probes = s.probes := rfl
@[simp] theorem State.setWord_retiring (s : State) (r : Reg) (node b i : Nat) (w : Word) : (s.setWord r node b i w).retiring = s.retiring := rfl
@[simp] theorem State.setWord_detected (s : State) (r : Reg) (node b i : Nat) (w : Word) : (s.setWord r node b i w).detected = s.detected := rfl
@[simp] theorem State.setWord_heldBack (s : State) (r : Reg) (node b i : Nat) (w : Word) : (s.setWord r node b i w).heldBack = s.heldBack := rfl
@[simp] theorem State.setWord_asks (s : State) (r : Reg) (node b i : Nat) (w : Word) : (s.setWord r node b i w).asks = s.asks := rfl
@[simp] theorem State.setWord_assists (s : State) (r : Reg) (node b i : Nat) (w : Word) : (s.setWord r node b i w).assists = s.assists := rfl
@[simp] theorem State.setWord_acks (s : State) (r : Reg) (node b i : Nat) (w : Word) : (s.setWord r node b i w).acks = s.acks := rfl
@[simp] theorem State.setWord_suspects (s : State) (r : Reg) (node b i : Nat) (w : Word) : (s.setWord r node b i w).suspects = s.suspects := rfl
@[simp] theorem State.setWord_outbox (s : State) (r : Reg) (node b i : Nat) (w : Word) : (s.setWord r node b i w).outbox = s.outbox := rfl
@[simp] theorem State.setWord_power (s : State) (r : Reg) (node b i : Nat) (w : Word) : (s.setWord r node b i w).power = s.power := rfl
@[simp] theorem State.setWord_plant (s : State) (r : Reg) (node b i : Nat) (w : Word) : (s.setWord r node b i w).plant = s.plant := rfl
@[simp] theorem State.setWord_tray (s : State) (r : Reg) (node b i : Nat) (w : Word) : (s.setWord r node b i w).tray = s.tray := rfl
@[simp] theorem State.setWord_drains (s : State) (r : Reg) (node b i : Nat) (w : Word) : (s.setWord r node b i w).drains = s.drains := rfl
@[simp] theorem State.setWord_pending (s : State) (r : Reg) (node b i : Nat) (w : Word) : (s.setWord r node b i w).pending = s.pending := rfl

/-! `State.put` changes `regs` alone. -/

@[simp] theorem State.put_now (s : State) (f : Field) (node b i v : Nat) : (s.put f node b i v).now = s.now := rfl
@[simp] theorem State.put_mem (s : State) (f : Field) (node b i v : Nat) : (s.put f node b i v).mem = s.mem := rfl
@[simp] theorem State.put_freeCount (s : State) (f : Field) (node b i v : Nat) : (s.put f node b i v).freeCount = s.freeCount := rfl
@[simp] theorem State.put_master (s : State) (f : Field) (node b i v : Nat) : (s.put f node b i v).master = s.master := rfl
@[simp] theorem State.put_fabricTime (s : State) (f : Field) (node b i v : Nat) : (s.put f node b i v).fabricTime = s.fabricTime := rfl
@[simp] theorem State.put_fabric (s : State) (f : Field) (node b i v : Nat) : (s.put f node b i v).fabric = s.fabric := rfl
@[simp] theorem State.put_outstanding (s : State) (f : Field) (node b i v : Nat) : (s.put f node b i v).outstanding = s.outstanding := rfl
@[simp] theorem State.put_nextTxn (s : State) (f : Field) (node b i v : Nat) : (s.put f node b i v).nextTxn = s.nextTxn := rfl
@[simp] theorem State.put_routers (s : State) (f : Field) (node b i v : Nat) : (s.put f node b i v).routers = s.routers := rfl
@[simp] theorem State.put_bridges (s : State) (f : Field) (node b i v : Nat) : (s.put f node b i v).bridges = s.bridges := rfl
@[simp] theorem State.put_lanes (s : State) (f : Field) (node b i v : Nat) : (s.put f node b i v).lanes = s.lanes := rfl
@[simp] theorem State.put_changes (s : State) (f : Field) (node b i v : Nat) : (s.put f node b i v).changes = s.changes := rfl
@[simp] theorem State.put_switching (s : State) (f : Field) (node b i v : Nat) : (s.put f node b i v).switching = s.switching := rfl
@[simp] theorem State.put_pens (s : State) (f : Field) (node b i v : Nat) : (s.put f node b i v).pens = s.pens := rfl
@[simp] theorem State.put_hefts (s : State) (f : Field) (node b i v : Nat) : (s.put f node b i v).hefts = s.hefts := rfl
@[simp] theorem State.put_queues (s : State) (f : Field) (node b i v : Nat) : (s.put f node b i v).queues = s.queues := rfl
@[simp] theorem State.put_forecasts (s : State) (f : Field) (node b i v : Nat) : (s.put f node b i v).forecasts = s.forecasts := rfl
@[simp] theorem State.put_jobs (s : State) (f : Field) (node b i v : Nat) : (s.put f node b i v).jobs = s.jobs := rfl
@[simp] theorem State.put_blocks (s : State) (f : Field) (node b i v : Nat) : (s.put f node b i v).blocks = s.blocks := rfl
@[simp] theorem State.put_droves (s : State) (f : Field) (node b i v : Nat) : (s.put f node b i v).droves = s.droves := rfl
@[simp] theorem State.put_links (s : State) (f : Field) (node b i v : Nat) : (s.put f node b i v).links = s.links := rfl
@[simp] theorem State.put_proxies (s : State) (f : Field) (node b i v : Nat) : (s.put f node b i v).proxies = s.proxies := rfl
@[simp] theorem State.put_penProxies (s : State) (f : Field) (node b i v : Nat) : (s.put f node b i v).penProxies = s.penProxies := rfl
@[simp] theorem State.put_hbm (s : State) (f : Field) (node b i v : Nat) : (s.put f node b i v).hbm = s.hbm := rfl
@[simp] theorem State.put_intake (s : State) (f : Field) (node b i v : Nat) : (s.put f node b i v).intake = s.intake := rfl
@[simp] theorem State.put_cqStore (s : State) (f : Field) (node b i v : Nat) : (s.put f node b i v).cqStore = s.cqStore := rfl
@[simp] theorem State.put_fetched (s : State) (f : Field) (node b i v : Nat) : (s.put f node b i v).fetched = s.fetched := rfl
@[simp] theorem State.put_jbe (s : State) (f : Field) (node b i v : Nat) : (s.put f node b i v).jbe = s.jbe := rfl
@[simp] theorem State.put_sqLast (s : State) (f : Field) (node b i v : Nat) : (s.put f node b i v).sqLast = s.sqLast := rfl
@[simp] theorem State.put_cqRaised (s : State) (f : Field) (node b i v : Nat) : (s.put f node b i v).cqRaised = s.cqRaised := rfl
@[simp] theorem State.put_endpoints (s : State) (f : Field) (node b i v : Nat) : (s.put f node b i v).endpoints = s.endpoints := rfl
@[simp] theorem State.put_joins (s : State) (f : Field) (node b i v : Nat) : (s.put f node b i v).joins = s.joins := rfl
@[simp] theorem State.put_idLocked (s : State) (f : Field) (node b i v : Nat) : (s.put f node b i v).idLocked = s.idLocked := rfl
@[simp] theorem State.put_earlyJoins (s : State) (f : Field) (node b i v : Nat) : (s.put f node b i v).earlyJoins = s.earlyJoins := rfl
@[simp] theorem State.put_tasks (s : State) (f : Field) (node b i v : Nat) : (s.put f node b i v).tasks = s.tasks := rfl
@[simp] theorem State.put_taskRefusals (s : State) (f : Field) (node b i v : Nat) : (s.put f node b i v).taskRefusals = s.taskRefusals := rfl
@[simp] theorem State.put_reports (s : State) (f : Field) (node b i v : Nat) : (s.put f node b i v).reports = s.reports := rfl
@[simp] theorem State.put_log (s : State) (f : Field) (node b i v : Nat) : (s.put f node b i v).log = s.log := rfl
@[simp] theorem State.put_events (s : State) (f : Field) (node b i v : Nat) : (s.put f node b i v).events = s.events := rfl
@[simp] theorem State.put_rings (s : State) (f : Field) (node b i v : Nat) : (s.put f node b i v).rings = s.rings := rfl
@[simp] theorem State.put_probes (s : State) (f : Field) (node b i v : Nat) : (s.put f node b i v).probes = s.probes := rfl
@[simp] theorem State.put_retiring (s : State) (f : Field) (node b i v : Nat) : (s.put f node b i v).retiring = s.retiring := rfl
@[simp] theorem State.put_detected (s : State) (f : Field) (node b i v : Nat) : (s.put f node b i v).detected = s.detected := rfl
@[simp] theorem State.put_heldBack (s : State) (f : Field) (node b i v : Nat) : (s.put f node b i v).heldBack = s.heldBack := rfl
@[simp] theorem State.put_asks (s : State) (f : Field) (node b i v : Nat) : (s.put f node b i v).asks = s.asks := rfl
@[simp] theorem State.put_assists (s : State) (f : Field) (node b i v : Nat) : (s.put f node b i v).assists = s.assists := rfl
@[simp] theorem State.put_acks (s : State) (f : Field) (node b i v : Nat) : (s.put f node b i v).acks = s.acks := rfl
@[simp] theorem State.put_suspects (s : State) (f : Field) (node b i v : Nat) : (s.put f node b i v).suspects = s.suspects := rfl
@[simp] theorem State.put_outbox (s : State) (f : Field) (node b i v : Nat) : (s.put f node b i v).outbox = s.outbox := rfl
@[simp] theorem State.put_power (s : State) (f : Field) (node b i v : Nat) : (s.put f node b i v).power = s.power := rfl
@[simp] theorem State.put_plant (s : State) (f : Field) (node b i v : Nat) : (s.put f node b i v).plant = s.plant := rfl
@[simp] theorem State.put_tray (s : State) (f : Field) (node b i v : Nat) : (s.put f node b i v).tray = s.tray := rfl
@[simp] theorem State.put_drains (s : State) (f : Field) (node b i v : Nat) : (s.put f node b i v).drains = s.drains := rfl
@[simp] theorem State.put_pending (s : State) (f : Field) (node b i v : Nat) : (s.put f node b i v).pending = s.pending := rfl

/-! `State.setUnit` changes `regs` alone. -/

@[simp] theorem State.setUnit_now (s : State) (node page : Nat) (u : UState) : (s.setUnit node page u).now = s.now := rfl
@[simp] theorem State.setUnit_mem (s : State) (node page : Nat) (u : UState) : (s.setUnit node page u).mem = s.mem := rfl
@[simp] theorem State.setUnit_freeCount (s : State) (node page : Nat) (u : UState) : (s.setUnit node page u).freeCount = s.freeCount := rfl
@[simp] theorem State.setUnit_master (s : State) (node page : Nat) (u : UState) : (s.setUnit node page u).master = s.master := rfl
@[simp] theorem State.setUnit_fabricTime (s : State) (node page : Nat) (u : UState) : (s.setUnit node page u).fabricTime = s.fabricTime := rfl
@[simp] theorem State.setUnit_fabric (s : State) (node page : Nat) (u : UState) : (s.setUnit node page u).fabric = s.fabric := rfl
@[simp] theorem State.setUnit_outstanding (s : State) (node page : Nat) (u : UState) : (s.setUnit node page u).outstanding = s.outstanding := rfl
@[simp] theorem State.setUnit_nextTxn (s : State) (node page : Nat) (u : UState) : (s.setUnit node page u).nextTxn = s.nextTxn := rfl
@[simp] theorem State.setUnit_routers (s : State) (node page : Nat) (u : UState) : (s.setUnit node page u).routers = s.routers := rfl
@[simp] theorem State.setUnit_bridges (s : State) (node page : Nat) (u : UState) : (s.setUnit node page u).bridges = s.bridges := rfl
@[simp] theorem State.setUnit_lanes (s : State) (node page : Nat) (u : UState) : (s.setUnit node page u).lanes = s.lanes := rfl
@[simp] theorem State.setUnit_changes (s : State) (node page : Nat) (u : UState) : (s.setUnit node page u).changes = s.changes := rfl
@[simp] theorem State.setUnit_switching (s : State) (node page : Nat) (u : UState) : (s.setUnit node page u).switching = s.switching := rfl
@[simp] theorem State.setUnit_pens (s : State) (node page : Nat) (u : UState) : (s.setUnit node page u).pens = s.pens := rfl
@[simp] theorem State.setUnit_hefts (s : State) (node page : Nat) (u : UState) : (s.setUnit node page u).hefts = s.hefts := rfl
@[simp] theorem State.setUnit_queues (s : State) (node page : Nat) (u : UState) : (s.setUnit node page u).queues = s.queues := rfl
@[simp] theorem State.setUnit_forecasts (s : State) (node page : Nat) (u : UState) : (s.setUnit node page u).forecasts = s.forecasts := rfl
@[simp] theorem State.setUnit_jobs (s : State) (node page : Nat) (u : UState) : (s.setUnit node page u).jobs = s.jobs := rfl
@[simp] theorem State.setUnit_blocks (s : State) (node page : Nat) (u : UState) : (s.setUnit node page u).blocks = s.blocks := rfl
@[simp] theorem State.setUnit_droves (s : State) (node page : Nat) (u : UState) : (s.setUnit node page u).droves = s.droves := rfl
@[simp] theorem State.setUnit_links (s : State) (node page : Nat) (u : UState) : (s.setUnit node page u).links = s.links := rfl
@[simp] theorem State.setUnit_proxies (s : State) (node page : Nat) (u : UState) : (s.setUnit node page u).proxies = s.proxies := rfl
@[simp] theorem State.setUnit_penProxies (s : State) (node page : Nat) (u : UState) : (s.setUnit node page u).penProxies = s.penProxies := rfl
@[simp] theorem State.setUnit_hbm (s : State) (node page : Nat) (u : UState) : (s.setUnit node page u).hbm = s.hbm := rfl
@[simp] theorem State.setUnit_intake (s : State) (node page : Nat) (u : UState) : (s.setUnit node page u).intake = s.intake := rfl
@[simp] theorem State.setUnit_cqStore (s : State) (node page : Nat) (u : UState) : (s.setUnit node page u).cqStore = s.cqStore := rfl
@[simp] theorem State.setUnit_fetched (s : State) (node page : Nat) (u : UState) : (s.setUnit node page u).fetched = s.fetched := rfl
@[simp] theorem State.setUnit_jbe (s : State) (node page : Nat) (u : UState) : (s.setUnit node page u).jbe = s.jbe := rfl
@[simp] theorem State.setUnit_sqLast (s : State) (node page : Nat) (u : UState) : (s.setUnit node page u).sqLast = s.sqLast := rfl
@[simp] theorem State.setUnit_cqRaised (s : State) (node page : Nat) (u : UState) : (s.setUnit node page u).cqRaised = s.cqRaised := rfl
@[simp] theorem State.setUnit_endpoints (s : State) (node page : Nat) (u : UState) : (s.setUnit node page u).endpoints = s.endpoints := rfl
@[simp] theorem State.setUnit_joins (s : State) (node page : Nat) (u : UState) : (s.setUnit node page u).joins = s.joins := rfl
@[simp] theorem State.setUnit_idLocked (s : State) (node page : Nat) (u : UState) : (s.setUnit node page u).idLocked = s.idLocked := rfl
@[simp] theorem State.setUnit_earlyJoins (s : State) (node page : Nat) (u : UState) : (s.setUnit node page u).earlyJoins = s.earlyJoins := rfl
@[simp] theorem State.setUnit_tasks (s : State) (node page : Nat) (u : UState) : (s.setUnit node page u).tasks = s.tasks := rfl
@[simp] theorem State.setUnit_taskRefusals (s : State) (node page : Nat) (u : UState) : (s.setUnit node page u).taskRefusals = s.taskRefusals := rfl
@[simp] theorem State.setUnit_reports (s : State) (node page : Nat) (u : UState) : (s.setUnit node page u).reports = s.reports := rfl
@[simp] theorem State.setUnit_log (s : State) (node page : Nat) (u : UState) : (s.setUnit node page u).log = s.log := rfl
@[simp] theorem State.setUnit_events (s : State) (node page : Nat) (u : UState) : (s.setUnit node page u).events = s.events := rfl
@[simp] theorem State.setUnit_rings (s : State) (node page : Nat) (u : UState) : (s.setUnit node page u).rings = s.rings := rfl
@[simp] theorem State.setUnit_probes (s : State) (node page : Nat) (u : UState) : (s.setUnit node page u).probes = s.probes := rfl
@[simp] theorem State.setUnit_retiring (s : State) (node page : Nat) (u : UState) : (s.setUnit node page u).retiring = s.retiring := rfl
@[simp] theorem State.setUnit_detected (s : State) (node page : Nat) (u : UState) : (s.setUnit node page u).detected = s.detected := rfl
@[simp] theorem State.setUnit_heldBack (s : State) (node page : Nat) (u : UState) : (s.setUnit node page u).heldBack = s.heldBack := rfl
@[simp] theorem State.setUnit_asks (s : State) (node page : Nat) (u : UState) : (s.setUnit node page u).asks = s.asks := rfl
@[simp] theorem State.setUnit_assists (s : State) (node page : Nat) (u : UState) : (s.setUnit node page u).assists = s.assists := rfl
@[simp] theorem State.setUnit_acks (s : State) (node page : Nat) (u : UState) : (s.setUnit node page u).acks = s.acks := rfl
@[simp] theorem State.setUnit_suspects (s : State) (node page : Nat) (u : UState) : (s.setUnit node page u).suspects = s.suspects := rfl
@[simp] theorem State.setUnit_outbox (s : State) (node page : Nat) (u : UState) : (s.setUnit node page u).outbox = s.outbox := rfl
@[simp] theorem State.setUnit_power (s : State) (node page : Nat) (u : UState) : (s.setUnit node page u).power = s.power := rfl
@[simp] theorem State.setUnit_plant (s : State) (node page : Nat) (u : UState) : (s.setUnit node page u).plant = s.plant := rfl
@[simp] theorem State.setUnit_tray (s : State) (node page : Nat) (u : UState) : (s.setUnit node page u).tray = s.tray := rfl
@[simp] theorem State.setUnit_drains (s : State) (node page : Nat) (u : UState) : (s.setUnit node page u).drains = s.drains := rfl
@[simp] theorem State.setUnit_pending (s : State) (node page : Nat) (u : UState) : (s.setUnit node page u).pending = s.pending := rfl

/-! `State.setBlock` changes `blocks` alone. -/

@[simp] theorem State.setBlock_now (s : State) (node b : Nat) (x : Block) : (s.setBlock node b x).now = s.now := rfl
@[simp] theorem State.setBlock_regs (s : State) (node b : Nat) (x : Block) : (s.setBlock node b x).regs = s.regs := rfl
@[simp] theorem State.setBlock_mem (s : State) (node b : Nat) (x : Block) : (s.setBlock node b x).mem = s.mem := rfl
@[simp] theorem State.setBlock_freeCount (s : State) (node b : Nat) (x : Block) : (s.setBlock node b x).freeCount = s.freeCount := rfl
@[simp] theorem State.setBlock_master (s : State) (node b : Nat) (x : Block) : (s.setBlock node b x).master = s.master := rfl
@[simp] theorem State.setBlock_fabricTime (s : State) (node b : Nat) (x : Block) : (s.setBlock node b x).fabricTime = s.fabricTime := rfl
@[simp] theorem State.setBlock_fabric (s : State) (node b : Nat) (x : Block) : (s.setBlock node b x).fabric = s.fabric := rfl
@[simp] theorem State.setBlock_outstanding (s : State) (node b : Nat) (x : Block) : (s.setBlock node b x).outstanding = s.outstanding := rfl
@[simp] theorem State.setBlock_nextTxn (s : State) (node b : Nat) (x : Block) : (s.setBlock node b x).nextTxn = s.nextTxn := rfl
@[simp] theorem State.setBlock_routers (s : State) (node b : Nat) (x : Block) : (s.setBlock node b x).routers = s.routers := rfl
@[simp] theorem State.setBlock_bridges (s : State) (node b : Nat) (x : Block) : (s.setBlock node b x).bridges = s.bridges := rfl
@[simp] theorem State.setBlock_lanes (s : State) (node b : Nat) (x : Block) : (s.setBlock node b x).lanes = s.lanes := rfl
@[simp] theorem State.setBlock_changes (s : State) (node b : Nat) (x : Block) : (s.setBlock node b x).changes = s.changes := rfl
@[simp] theorem State.setBlock_switching (s : State) (node b : Nat) (x : Block) : (s.setBlock node b x).switching = s.switching := rfl
@[simp] theorem State.setBlock_pens (s : State) (node b : Nat) (x : Block) : (s.setBlock node b x).pens = s.pens := rfl
@[simp] theorem State.setBlock_hefts (s : State) (node b : Nat) (x : Block) : (s.setBlock node b x).hefts = s.hefts := rfl
@[simp] theorem State.setBlock_queues (s : State) (node b : Nat) (x : Block) : (s.setBlock node b x).queues = s.queues := rfl
@[simp] theorem State.setBlock_forecasts (s : State) (node b : Nat) (x : Block) : (s.setBlock node b x).forecasts = s.forecasts := rfl
@[simp] theorem State.setBlock_jobs (s : State) (node b : Nat) (x : Block) : (s.setBlock node b x).jobs = s.jobs := rfl
@[simp] theorem State.setBlock_droves (s : State) (node b : Nat) (x : Block) : (s.setBlock node b x).droves = s.droves := rfl
@[simp] theorem State.setBlock_links (s : State) (node b : Nat) (x : Block) : (s.setBlock node b x).links = s.links := rfl
@[simp] theorem State.setBlock_proxies (s : State) (node b : Nat) (x : Block) : (s.setBlock node b x).proxies = s.proxies := rfl
@[simp] theorem State.setBlock_penProxies (s : State) (node b : Nat) (x : Block) : (s.setBlock node b x).penProxies = s.penProxies := rfl
@[simp] theorem State.setBlock_hbm (s : State) (node b : Nat) (x : Block) : (s.setBlock node b x).hbm = s.hbm := rfl
@[simp] theorem State.setBlock_intake (s : State) (node b : Nat) (x : Block) : (s.setBlock node b x).intake = s.intake := rfl
@[simp] theorem State.setBlock_cqStore (s : State) (node b : Nat) (x : Block) : (s.setBlock node b x).cqStore = s.cqStore := rfl
@[simp] theorem State.setBlock_fetched (s : State) (node b : Nat) (x : Block) : (s.setBlock node b x).fetched = s.fetched := rfl
@[simp] theorem State.setBlock_jbe (s : State) (node b : Nat) (x : Block) : (s.setBlock node b x).jbe = s.jbe := rfl
@[simp] theorem State.setBlock_sqLast (s : State) (node b : Nat) (x : Block) : (s.setBlock node b x).sqLast = s.sqLast := rfl
@[simp] theorem State.setBlock_cqRaised (s : State) (node b : Nat) (x : Block) : (s.setBlock node b x).cqRaised = s.cqRaised := rfl
@[simp] theorem State.setBlock_endpoints (s : State) (node b : Nat) (x : Block) : (s.setBlock node b x).endpoints = s.endpoints := rfl
@[simp] theorem State.setBlock_joins (s : State) (node b : Nat) (x : Block) : (s.setBlock node b x).joins = s.joins := rfl
@[simp] theorem State.setBlock_idLocked (s : State) (node b : Nat) (x : Block) : (s.setBlock node b x).idLocked = s.idLocked := rfl
@[simp] theorem State.setBlock_earlyJoins (s : State) (node b : Nat) (x : Block) : (s.setBlock node b x).earlyJoins = s.earlyJoins := rfl
@[simp] theorem State.setBlock_tasks (s : State) (node b : Nat) (x : Block) : (s.setBlock node b x).tasks = s.tasks := rfl
@[simp] theorem State.setBlock_taskRefusals (s : State) (node b : Nat) (x : Block) : (s.setBlock node b x).taskRefusals = s.taskRefusals := rfl
@[simp] theorem State.setBlock_reports (s : State) (node b : Nat) (x : Block) : (s.setBlock node b x).reports = s.reports := rfl
@[simp] theorem State.setBlock_log (s : State) (node b : Nat) (x : Block) : (s.setBlock node b x).log = s.log := rfl
@[simp] theorem State.setBlock_events (s : State) (node b : Nat) (x : Block) : (s.setBlock node b x).events = s.events := rfl
@[simp] theorem State.setBlock_rings (s : State) (node b : Nat) (x : Block) : (s.setBlock node b x).rings = s.rings := rfl
@[simp] theorem State.setBlock_probes (s : State) (node b : Nat) (x : Block) : (s.setBlock node b x).probes = s.probes := rfl
@[simp] theorem State.setBlock_retiring (s : State) (node b : Nat) (x : Block) : (s.setBlock node b x).retiring = s.retiring := rfl
@[simp] theorem State.setBlock_detected (s : State) (node b : Nat) (x : Block) : (s.setBlock node b x).detected = s.detected := rfl
@[simp] theorem State.setBlock_heldBack (s : State) (node b : Nat) (x : Block) : (s.setBlock node b x).heldBack = s.heldBack := rfl
@[simp] theorem State.setBlock_asks (s : State) (node b : Nat) (x : Block) : (s.setBlock node b x).asks = s.asks := rfl
@[simp] theorem State.setBlock_assists (s : State) (node b : Nat) (x : Block) : (s.setBlock node b x).assists = s.assists := rfl
@[simp] theorem State.setBlock_acks (s : State) (node b : Nat) (x : Block) : (s.setBlock node b x).acks = s.acks := rfl
@[simp] theorem State.setBlock_suspects (s : State) (node b : Nat) (x : Block) : (s.setBlock node b x).suspects = s.suspects := rfl
@[simp] theorem State.setBlock_outbox (s : State) (node b : Nat) (x : Block) : (s.setBlock node b x).outbox = s.outbox := rfl
@[simp] theorem State.setBlock_power (s : State) (node b : Nat) (x : Block) : (s.setBlock node b x).power = s.power := rfl
@[simp] theorem State.setBlock_plant (s : State) (node b : Nat) (x : Block) : (s.setBlock node b x).plant = s.plant := rfl
@[simp] theorem State.setBlock_tray (s : State) (node b : Nat) (x : Block) : (s.setBlock node b x).tray = s.tray := rfl
@[simp] theorem State.setBlock_drains (s : State) (node b : Nat) (x : Block) : (s.setBlock node b x).drains = s.drains := rfl
@[simp] theorem State.setBlock_pending (s : State) (node b : Nat) (x : Block) : (s.setBlock node b x).pending = s.pending := rfl

/-! `State.modBlock` changes `blocks` alone. -/

@[simp] theorem State.modBlock_now (s : State) (node b : Nat) (f : Block → Block) : (s.modBlock node b f).now = s.now := rfl
@[simp] theorem State.modBlock_regs (s : State) (node b : Nat) (f : Block → Block) : (s.modBlock node b f).regs = s.regs := rfl
@[simp] theorem State.modBlock_mem (s : State) (node b : Nat) (f : Block → Block) : (s.modBlock node b f).mem = s.mem := rfl
@[simp] theorem State.modBlock_freeCount (s : State) (node b : Nat) (f : Block → Block) : (s.modBlock node b f).freeCount = s.freeCount := rfl
@[simp] theorem State.modBlock_master (s : State) (node b : Nat) (f : Block → Block) : (s.modBlock node b f).master = s.master := rfl
@[simp] theorem State.modBlock_fabricTime (s : State) (node b : Nat) (f : Block → Block) : (s.modBlock node b f).fabricTime = s.fabricTime := rfl
@[simp] theorem State.modBlock_fabric (s : State) (node b : Nat) (f : Block → Block) : (s.modBlock node b f).fabric = s.fabric := rfl
@[simp] theorem State.modBlock_outstanding (s : State) (node b : Nat) (f : Block → Block) : (s.modBlock node b f).outstanding = s.outstanding := rfl
@[simp] theorem State.modBlock_nextTxn (s : State) (node b : Nat) (f : Block → Block) : (s.modBlock node b f).nextTxn = s.nextTxn := rfl
@[simp] theorem State.modBlock_routers (s : State) (node b : Nat) (f : Block → Block) : (s.modBlock node b f).routers = s.routers := rfl
@[simp] theorem State.modBlock_bridges (s : State) (node b : Nat) (f : Block → Block) : (s.modBlock node b f).bridges = s.bridges := rfl
@[simp] theorem State.modBlock_lanes (s : State) (node b : Nat) (f : Block → Block) : (s.modBlock node b f).lanes = s.lanes := rfl
@[simp] theorem State.modBlock_changes (s : State) (node b : Nat) (f : Block → Block) : (s.modBlock node b f).changes = s.changes := rfl
@[simp] theorem State.modBlock_switching (s : State) (node b : Nat) (f : Block → Block) : (s.modBlock node b f).switching = s.switching := rfl
@[simp] theorem State.modBlock_pens (s : State) (node b : Nat) (f : Block → Block) : (s.modBlock node b f).pens = s.pens := rfl
@[simp] theorem State.modBlock_hefts (s : State) (node b : Nat) (f : Block → Block) : (s.modBlock node b f).hefts = s.hefts := rfl
@[simp] theorem State.modBlock_queues (s : State) (node b : Nat) (f : Block → Block) : (s.modBlock node b f).queues = s.queues := rfl
@[simp] theorem State.modBlock_forecasts (s : State) (node b : Nat) (f : Block → Block) : (s.modBlock node b f).forecasts = s.forecasts := rfl
@[simp] theorem State.modBlock_jobs (s : State) (node b : Nat) (f : Block → Block) : (s.modBlock node b f).jobs = s.jobs := rfl
@[simp] theorem State.modBlock_droves (s : State) (node b : Nat) (f : Block → Block) : (s.modBlock node b f).droves = s.droves := rfl
@[simp] theorem State.modBlock_links (s : State) (node b : Nat) (f : Block → Block) : (s.modBlock node b f).links = s.links := rfl
@[simp] theorem State.modBlock_proxies (s : State) (node b : Nat) (f : Block → Block) : (s.modBlock node b f).proxies = s.proxies := rfl
@[simp] theorem State.modBlock_penProxies (s : State) (node b : Nat) (f : Block → Block) : (s.modBlock node b f).penProxies = s.penProxies := rfl
@[simp] theorem State.modBlock_hbm (s : State) (node b : Nat) (f : Block → Block) : (s.modBlock node b f).hbm = s.hbm := rfl
@[simp] theorem State.modBlock_intake (s : State) (node b : Nat) (f : Block → Block) : (s.modBlock node b f).intake = s.intake := rfl
@[simp] theorem State.modBlock_cqStore (s : State) (node b : Nat) (f : Block → Block) : (s.modBlock node b f).cqStore = s.cqStore := rfl
@[simp] theorem State.modBlock_fetched (s : State) (node b : Nat) (f : Block → Block) : (s.modBlock node b f).fetched = s.fetched := rfl
@[simp] theorem State.modBlock_jbe (s : State) (node b : Nat) (f : Block → Block) : (s.modBlock node b f).jbe = s.jbe := rfl
@[simp] theorem State.modBlock_sqLast (s : State) (node b : Nat) (f : Block → Block) : (s.modBlock node b f).sqLast = s.sqLast := rfl
@[simp] theorem State.modBlock_cqRaised (s : State) (node b : Nat) (f : Block → Block) : (s.modBlock node b f).cqRaised = s.cqRaised := rfl
@[simp] theorem State.modBlock_endpoints (s : State) (node b : Nat) (f : Block → Block) : (s.modBlock node b f).endpoints = s.endpoints := rfl
@[simp] theorem State.modBlock_joins (s : State) (node b : Nat) (f : Block → Block) : (s.modBlock node b f).joins = s.joins := rfl
@[simp] theorem State.modBlock_idLocked (s : State) (node b : Nat) (f : Block → Block) : (s.modBlock node b f).idLocked = s.idLocked := rfl
@[simp] theorem State.modBlock_earlyJoins (s : State) (node b : Nat) (f : Block → Block) : (s.modBlock node b f).earlyJoins = s.earlyJoins := rfl
@[simp] theorem State.modBlock_tasks (s : State) (node b : Nat) (f : Block → Block) : (s.modBlock node b f).tasks = s.tasks := rfl
@[simp] theorem State.modBlock_taskRefusals (s : State) (node b : Nat) (f : Block → Block) : (s.modBlock node b f).taskRefusals = s.taskRefusals := rfl
@[simp] theorem State.modBlock_reports (s : State) (node b : Nat) (f : Block → Block) : (s.modBlock node b f).reports = s.reports := rfl
@[simp] theorem State.modBlock_log (s : State) (node b : Nat) (f : Block → Block) : (s.modBlock node b f).log = s.log := rfl
@[simp] theorem State.modBlock_events (s : State) (node b : Nat) (f : Block → Block) : (s.modBlock node b f).events = s.events := rfl
@[simp] theorem State.modBlock_rings (s : State) (node b : Nat) (f : Block → Block) : (s.modBlock node b f).rings = s.rings := rfl
@[simp] theorem State.modBlock_probes (s : State) (node b : Nat) (f : Block → Block) : (s.modBlock node b f).probes = s.probes := rfl
@[simp] theorem State.modBlock_retiring (s : State) (node b : Nat) (f : Block → Block) : (s.modBlock node b f).retiring = s.retiring := rfl
@[simp] theorem State.modBlock_detected (s : State) (node b : Nat) (f : Block → Block) : (s.modBlock node b f).detected = s.detected := rfl
@[simp] theorem State.modBlock_heldBack (s : State) (node b : Nat) (f : Block → Block) : (s.modBlock node b f).heldBack = s.heldBack := rfl
@[simp] theorem State.modBlock_asks (s : State) (node b : Nat) (f : Block → Block) : (s.modBlock node b f).asks = s.asks := rfl
@[simp] theorem State.modBlock_assists (s : State) (node b : Nat) (f : Block → Block) : (s.modBlock node b f).assists = s.assists := rfl
@[simp] theorem State.modBlock_acks (s : State) (node b : Nat) (f : Block → Block) : (s.modBlock node b f).acks = s.acks := rfl
@[simp] theorem State.modBlock_suspects (s : State) (node b : Nat) (f : Block → Block) : (s.modBlock node b f).suspects = s.suspects := rfl
@[simp] theorem State.modBlock_outbox (s : State) (node b : Nat) (f : Block → Block) : (s.modBlock node b f).outbox = s.outbox := rfl
@[simp] theorem State.modBlock_power (s : State) (node b : Nat) (f : Block → Block) : (s.modBlock node b f).power = s.power := rfl
@[simp] theorem State.modBlock_plant (s : State) (node b : Nat) (f : Block → Block) : (s.modBlock node b f).plant = s.plant := rfl
@[simp] theorem State.modBlock_tray (s : State) (node b : Nat) (f : Block → Block) : (s.modBlock node b f).tray = s.tray := rfl
@[simp] theorem State.modBlock_drains (s : State) (node b : Nat) (f : Block → Block) : (s.modBlock node b f).drains = s.drains := rfl
@[simp] theorem State.modBlock_pending (s : State) (node b : Nat) (f : Block → Block) : (s.modBlock node b f).pending = s.pending := rfl

/-! `State.setThread` changes `blocks` alone. -/

@[simp] theorem State.setThread_now (s : State) (t : ThreadRef) (th : Thread) : (s.setThread t th).now = s.now := rfl
@[simp] theorem State.setThread_regs (s : State) (t : ThreadRef) (th : Thread) : (s.setThread t th).regs = s.regs := rfl
@[simp] theorem State.setThread_mem (s : State) (t : ThreadRef) (th : Thread) : (s.setThread t th).mem = s.mem := rfl
@[simp] theorem State.setThread_freeCount (s : State) (t : ThreadRef) (th : Thread) : (s.setThread t th).freeCount = s.freeCount := rfl
@[simp] theorem State.setThread_master (s : State) (t : ThreadRef) (th : Thread) : (s.setThread t th).master = s.master := rfl
@[simp] theorem State.setThread_fabricTime (s : State) (t : ThreadRef) (th : Thread) : (s.setThread t th).fabricTime = s.fabricTime := rfl
@[simp] theorem State.setThread_fabric (s : State) (t : ThreadRef) (th : Thread) : (s.setThread t th).fabric = s.fabric := rfl
@[simp] theorem State.setThread_outstanding (s : State) (t : ThreadRef) (th : Thread) : (s.setThread t th).outstanding = s.outstanding := rfl
@[simp] theorem State.setThread_nextTxn (s : State) (t : ThreadRef) (th : Thread) : (s.setThread t th).nextTxn = s.nextTxn := rfl
@[simp] theorem State.setThread_routers (s : State) (t : ThreadRef) (th : Thread) : (s.setThread t th).routers = s.routers := rfl
@[simp] theorem State.setThread_bridges (s : State) (t : ThreadRef) (th : Thread) : (s.setThread t th).bridges = s.bridges := rfl
@[simp] theorem State.setThread_lanes (s : State) (t : ThreadRef) (th : Thread) : (s.setThread t th).lanes = s.lanes := rfl
@[simp] theorem State.setThread_changes (s : State) (t : ThreadRef) (th : Thread) : (s.setThread t th).changes = s.changes := rfl
@[simp] theorem State.setThread_switching (s : State) (t : ThreadRef) (th : Thread) : (s.setThread t th).switching = s.switching := rfl
@[simp] theorem State.setThread_pens (s : State) (t : ThreadRef) (th : Thread) : (s.setThread t th).pens = s.pens := rfl
@[simp] theorem State.setThread_hefts (s : State) (t : ThreadRef) (th : Thread) : (s.setThread t th).hefts = s.hefts := rfl
@[simp] theorem State.setThread_queues (s : State) (t : ThreadRef) (th : Thread) : (s.setThread t th).queues = s.queues := rfl
@[simp] theorem State.setThread_forecasts (s : State) (t : ThreadRef) (th : Thread) : (s.setThread t th).forecasts = s.forecasts := rfl
@[simp] theorem State.setThread_jobs (s : State) (t : ThreadRef) (th : Thread) : (s.setThread t th).jobs = s.jobs := rfl
@[simp] theorem State.setThread_droves (s : State) (t : ThreadRef) (th : Thread) : (s.setThread t th).droves = s.droves := rfl
@[simp] theorem State.setThread_links (s : State) (t : ThreadRef) (th : Thread) : (s.setThread t th).links = s.links := rfl
@[simp] theorem State.setThread_proxies (s : State) (t : ThreadRef) (th : Thread) : (s.setThread t th).proxies = s.proxies := rfl
@[simp] theorem State.setThread_penProxies (s : State) (t : ThreadRef) (th : Thread) : (s.setThread t th).penProxies = s.penProxies := rfl
@[simp] theorem State.setThread_hbm (s : State) (t : ThreadRef) (th : Thread) : (s.setThread t th).hbm = s.hbm := rfl
@[simp] theorem State.setThread_intake (s : State) (t : ThreadRef) (th : Thread) : (s.setThread t th).intake = s.intake := rfl
@[simp] theorem State.setThread_cqStore (s : State) (t : ThreadRef) (th : Thread) : (s.setThread t th).cqStore = s.cqStore := rfl
@[simp] theorem State.setThread_fetched (s : State) (t : ThreadRef) (th : Thread) : (s.setThread t th).fetched = s.fetched := rfl
@[simp] theorem State.setThread_jbe (s : State) (t : ThreadRef) (th : Thread) : (s.setThread t th).jbe = s.jbe := rfl
@[simp] theorem State.setThread_sqLast (s : State) (t : ThreadRef) (th : Thread) : (s.setThread t th).sqLast = s.sqLast := rfl
@[simp] theorem State.setThread_cqRaised (s : State) (t : ThreadRef) (th : Thread) : (s.setThread t th).cqRaised = s.cqRaised := rfl
@[simp] theorem State.setThread_endpoints (s : State) (t : ThreadRef) (th : Thread) : (s.setThread t th).endpoints = s.endpoints := rfl
@[simp] theorem State.setThread_joins (s : State) (t : ThreadRef) (th : Thread) : (s.setThread t th).joins = s.joins := rfl
@[simp] theorem State.setThread_idLocked (s : State) (t : ThreadRef) (th : Thread) : (s.setThread t th).idLocked = s.idLocked := rfl
@[simp] theorem State.setThread_earlyJoins (s : State) (t : ThreadRef) (th : Thread) : (s.setThread t th).earlyJoins = s.earlyJoins := rfl
@[simp] theorem State.setThread_tasks (s : State) (t : ThreadRef) (th : Thread) : (s.setThread t th).tasks = s.tasks := rfl
@[simp] theorem State.setThread_taskRefusals (s : State) (t : ThreadRef) (th : Thread) : (s.setThread t th).taskRefusals = s.taskRefusals := rfl
@[simp] theorem State.setThread_reports (s : State) (t : ThreadRef) (th : Thread) : (s.setThread t th).reports = s.reports := rfl
@[simp] theorem State.setThread_log (s : State) (t : ThreadRef) (th : Thread) : (s.setThread t th).log = s.log := rfl
@[simp] theorem State.setThread_events (s : State) (t : ThreadRef) (th : Thread) : (s.setThread t th).events = s.events := rfl
@[simp] theorem State.setThread_rings (s : State) (t : ThreadRef) (th : Thread) : (s.setThread t th).rings = s.rings := rfl
@[simp] theorem State.setThread_probes (s : State) (t : ThreadRef) (th : Thread) : (s.setThread t th).probes = s.probes := rfl
@[simp] theorem State.setThread_retiring (s : State) (t : ThreadRef) (th : Thread) : (s.setThread t th).retiring = s.retiring := rfl
@[simp] theorem State.setThread_detected (s : State) (t : ThreadRef) (th : Thread) : (s.setThread t th).detected = s.detected := rfl
@[simp] theorem State.setThread_heldBack (s : State) (t : ThreadRef) (th : Thread) : (s.setThread t th).heldBack = s.heldBack := rfl
@[simp] theorem State.setThread_asks (s : State) (t : ThreadRef) (th : Thread) : (s.setThread t th).asks = s.asks := rfl
@[simp] theorem State.setThread_assists (s : State) (t : ThreadRef) (th : Thread) : (s.setThread t th).assists = s.assists := rfl
@[simp] theorem State.setThread_acks (s : State) (t : ThreadRef) (th : Thread) : (s.setThread t th).acks = s.acks := rfl
@[simp] theorem State.setThread_suspects (s : State) (t : ThreadRef) (th : Thread) : (s.setThread t th).suspects = s.suspects := rfl
@[simp] theorem State.setThread_outbox (s : State) (t : ThreadRef) (th : Thread) : (s.setThread t th).outbox = s.outbox := rfl
@[simp] theorem State.setThread_power (s : State) (t : ThreadRef) (th : Thread) : (s.setThread t th).power = s.power := rfl
@[simp] theorem State.setThread_plant (s : State) (t : ThreadRef) (th : Thread) : (s.setThread t th).plant = s.plant := rfl
@[simp] theorem State.setThread_tray (s : State) (t : ThreadRef) (th : Thread) : (s.setThread t th).tray = s.tray := rfl
@[simp] theorem State.setThread_drains (s : State) (t : ThreadRef) (th : Thread) : (s.setThread t th).drains = s.drains := rfl
@[simp] theorem State.setThread_pending (s : State) (t : ThreadRef) (th : Thread) : (s.setThread t th).pending = s.pending := rfl

/-! `State.setPenUnit` changes `pens` alone. -/

@[simp] theorem State.setPenUnit_now (s : State) (node blk : Nat) (u : PenUnit) : (s.setPenUnit node blk u).now = s.now := rfl
@[simp] theorem State.setPenUnit_regs (s : State) (node blk : Nat) (u : PenUnit) : (s.setPenUnit node blk u).regs = s.regs := rfl
@[simp] theorem State.setPenUnit_mem (s : State) (node blk : Nat) (u : PenUnit) : (s.setPenUnit node blk u).mem = s.mem := rfl
@[simp] theorem State.setPenUnit_freeCount (s : State) (node blk : Nat) (u : PenUnit) : (s.setPenUnit node blk u).freeCount = s.freeCount := rfl
@[simp] theorem State.setPenUnit_master (s : State) (node blk : Nat) (u : PenUnit) : (s.setPenUnit node blk u).master = s.master := rfl
@[simp] theorem State.setPenUnit_fabricTime (s : State) (node blk : Nat) (u : PenUnit) : (s.setPenUnit node blk u).fabricTime = s.fabricTime := rfl
@[simp] theorem State.setPenUnit_fabric (s : State) (node blk : Nat) (u : PenUnit) : (s.setPenUnit node blk u).fabric = s.fabric := rfl
@[simp] theorem State.setPenUnit_outstanding (s : State) (node blk : Nat) (u : PenUnit) : (s.setPenUnit node blk u).outstanding = s.outstanding := rfl
@[simp] theorem State.setPenUnit_nextTxn (s : State) (node blk : Nat) (u : PenUnit) : (s.setPenUnit node blk u).nextTxn = s.nextTxn := rfl
@[simp] theorem State.setPenUnit_routers (s : State) (node blk : Nat) (u : PenUnit) : (s.setPenUnit node blk u).routers = s.routers := rfl
@[simp] theorem State.setPenUnit_bridges (s : State) (node blk : Nat) (u : PenUnit) : (s.setPenUnit node blk u).bridges = s.bridges := rfl
@[simp] theorem State.setPenUnit_lanes (s : State) (node blk : Nat) (u : PenUnit) : (s.setPenUnit node blk u).lanes = s.lanes := rfl
@[simp] theorem State.setPenUnit_changes (s : State) (node blk : Nat) (u : PenUnit) : (s.setPenUnit node blk u).changes = s.changes := rfl
@[simp] theorem State.setPenUnit_switching (s : State) (node blk : Nat) (u : PenUnit) : (s.setPenUnit node blk u).switching = s.switching := rfl
@[simp] theorem State.setPenUnit_hefts (s : State) (node blk : Nat) (u : PenUnit) : (s.setPenUnit node blk u).hefts = s.hefts := rfl
@[simp] theorem State.setPenUnit_queues (s : State) (node blk : Nat) (u : PenUnit) : (s.setPenUnit node blk u).queues = s.queues := rfl
@[simp] theorem State.setPenUnit_forecasts (s : State) (node blk : Nat) (u : PenUnit) : (s.setPenUnit node blk u).forecasts = s.forecasts := rfl
@[simp] theorem State.setPenUnit_jobs (s : State) (node blk : Nat) (u : PenUnit) : (s.setPenUnit node blk u).jobs = s.jobs := rfl
@[simp] theorem State.setPenUnit_blocks (s : State) (node blk : Nat) (u : PenUnit) : (s.setPenUnit node blk u).blocks = s.blocks := rfl
@[simp] theorem State.setPenUnit_droves (s : State) (node blk : Nat) (u : PenUnit) : (s.setPenUnit node blk u).droves = s.droves := rfl
@[simp] theorem State.setPenUnit_links (s : State) (node blk : Nat) (u : PenUnit) : (s.setPenUnit node blk u).links = s.links := rfl
@[simp] theorem State.setPenUnit_proxies (s : State) (node blk : Nat) (u : PenUnit) : (s.setPenUnit node blk u).proxies = s.proxies := rfl
@[simp] theorem State.setPenUnit_penProxies (s : State) (node blk : Nat) (u : PenUnit) : (s.setPenUnit node blk u).penProxies = s.penProxies := rfl
@[simp] theorem State.setPenUnit_hbm (s : State) (node blk : Nat) (u : PenUnit) : (s.setPenUnit node blk u).hbm = s.hbm := rfl
@[simp] theorem State.setPenUnit_intake (s : State) (node blk : Nat) (u : PenUnit) : (s.setPenUnit node blk u).intake = s.intake := rfl
@[simp] theorem State.setPenUnit_cqStore (s : State) (node blk : Nat) (u : PenUnit) : (s.setPenUnit node blk u).cqStore = s.cqStore := rfl
@[simp] theorem State.setPenUnit_fetched (s : State) (node blk : Nat) (u : PenUnit) : (s.setPenUnit node blk u).fetched = s.fetched := rfl
@[simp] theorem State.setPenUnit_jbe (s : State) (node blk : Nat) (u : PenUnit) : (s.setPenUnit node blk u).jbe = s.jbe := rfl
@[simp] theorem State.setPenUnit_sqLast (s : State) (node blk : Nat) (u : PenUnit) : (s.setPenUnit node blk u).sqLast = s.sqLast := rfl
@[simp] theorem State.setPenUnit_cqRaised (s : State) (node blk : Nat) (u : PenUnit) : (s.setPenUnit node blk u).cqRaised = s.cqRaised := rfl
@[simp] theorem State.setPenUnit_endpoints (s : State) (node blk : Nat) (u : PenUnit) : (s.setPenUnit node blk u).endpoints = s.endpoints := rfl
@[simp] theorem State.setPenUnit_joins (s : State) (node blk : Nat) (u : PenUnit) : (s.setPenUnit node blk u).joins = s.joins := rfl
@[simp] theorem State.setPenUnit_idLocked (s : State) (node blk : Nat) (u : PenUnit) : (s.setPenUnit node blk u).idLocked = s.idLocked := rfl
@[simp] theorem State.setPenUnit_earlyJoins (s : State) (node blk : Nat) (u : PenUnit) : (s.setPenUnit node blk u).earlyJoins = s.earlyJoins := rfl
@[simp] theorem State.setPenUnit_tasks (s : State) (node blk : Nat) (u : PenUnit) : (s.setPenUnit node blk u).tasks = s.tasks := rfl
@[simp] theorem State.setPenUnit_taskRefusals (s : State) (node blk : Nat) (u : PenUnit) : (s.setPenUnit node blk u).taskRefusals = s.taskRefusals := rfl
@[simp] theorem State.setPenUnit_reports (s : State) (node blk : Nat) (u : PenUnit) : (s.setPenUnit node blk u).reports = s.reports := rfl
@[simp] theorem State.setPenUnit_log (s : State) (node blk : Nat) (u : PenUnit) : (s.setPenUnit node blk u).log = s.log := rfl
@[simp] theorem State.setPenUnit_events (s : State) (node blk : Nat) (u : PenUnit) : (s.setPenUnit node blk u).events = s.events := rfl
@[simp] theorem State.setPenUnit_rings (s : State) (node blk : Nat) (u : PenUnit) : (s.setPenUnit node blk u).rings = s.rings := rfl
@[simp] theorem State.setPenUnit_probes (s : State) (node blk : Nat) (u : PenUnit) : (s.setPenUnit node blk u).probes = s.probes := rfl
@[simp] theorem State.setPenUnit_retiring (s : State) (node blk : Nat) (u : PenUnit) : (s.setPenUnit node blk u).retiring = s.retiring := rfl
@[simp] theorem State.setPenUnit_detected (s : State) (node blk : Nat) (u : PenUnit) : (s.setPenUnit node blk u).detected = s.detected := rfl
@[simp] theorem State.setPenUnit_heldBack (s : State) (node blk : Nat) (u : PenUnit) : (s.setPenUnit node blk u).heldBack = s.heldBack := rfl
@[simp] theorem State.setPenUnit_asks (s : State) (node blk : Nat) (u : PenUnit) : (s.setPenUnit node blk u).asks = s.asks := rfl
@[simp] theorem State.setPenUnit_assists (s : State) (node blk : Nat) (u : PenUnit) : (s.setPenUnit node blk u).assists = s.assists := rfl
@[simp] theorem State.setPenUnit_acks (s : State) (node blk : Nat) (u : PenUnit) : (s.setPenUnit node blk u).acks = s.acks := rfl
@[simp] theorem State.setPenUnit_suspects (s : State) (node blk : Nat) (u : PenUnit) : (s.setPenUnit node blk u).suspects = s.suspects := rfl
@[simp] theorem State.setPenUnit_outbox (s : State) (node blk : Nat) (u : PenUnit) : (s.setPenUnit node blk u).outbox = s.outbox := rfl
@[simp] theorem State.setPenUnit_power (s : State) (node blk : Nat) (u : PenUnit) : (s.setPenUnit node blk u).power = s.power := rfl
@[simp] theorem State.setPenUnit_plant (s : State) (node blk : Nat) (u : PenUnit) : (s.setPenUnit node blk u).plant = s.plant := rfl
@[simp] theorem State.setPenUnit_tray (s : State) (node blk : Nat) (u : PenUnit) : (s.setPenUnit node blk u).tray = s.tray := rfl
@[simp] theorem State.setPenUnit_drains (s : State) (node blk : Nat) (u : PenUnit) : (s.setPenUnit node blk u).drains = s.drains := rfl
@[simp] theorem State.setPenUnit_pending (s : State) (node blk : Nat) (u : PenUnit) : (s.setPenUnit node blk u).pending = s.pending := rfl

/-! `State.setQueue` changes `queues` alone. -/

@[simp] theorem State.setQueue_now (s : State) (q : QueueRef) (x : Queue) : (s.setQueue q x).now = s.now := rfl
@[simp] theorem State.setQueue_regs (s : State) (q : QueueRef) (x : Queue) : (s.setQueue q x).regs = s.regs := rfl
@[simp] theorem State.setQueue_mem (s : State) (q : QueueRef) (x : Queue) : (s.setQueue q x).mem = s.mem := rfl
@[simp] theorem State.setQueue_freeCount (s : State) (q : QueueRef) (x : Queue) : (s.setQueue q x).freeCount = s.freeCount := rfl
@[simp] theorem State.setQueue_master (s : State) (q : QueueRef) (x : Queue) : (s.setQueue q x).master = s.master := rfl
@[simp] theorem State.setQueue_fabricTime (s : State) (q : QueueRef) (x : Queue) : (s.setQueue q x).fabricTime = s.fabricTime := rfl
@[simp] theorem State.setQueue_fabric (s : State) (q : QueueRef) (x : Queue) : (s.setQueue q x).fabric = s.fabric := rfl
@[simp] theorem State.setQueue_outstanding (s : State) (q : QueueRef) (x : Queue) : (s.setQueue q x).outstanding = s.outstanding := rfl
@[simp] theorem State.setQueue_nextTxn (s : State) (q : QueueRef) (x : Queue) : (s.setQueue q x).nextTxn = s.nextTxn := rfl
@[simp] theorem State.setQueue_routers (s : State) (q : QueueRef) (x : Queue) : (s.setQueue q x).routers = s.routers := rfl
@[simp] theorem State.setQueue_bridges (s : State) (q : QueueRef) (x : Queue) : (s.setQueue q x).bridges = s.bridges := rfl
@[simp] theorem State.setQueue_lanes (s : State) (q : QueueRef) (x : Queue) : (s.setQueue q x).lanes = s.lanes := rfl
@[simp] theorem State.setQueue_changes (s : State) (q : QueueRef) (x : Queue) : (s.setQueue q x).changes = s.changes := rfl
@[simp] theorem State.setQueue_switching (s : State) (q : QueueRef) (x : Queue) : (s.setQueue q x).switching = s.switching := rfl
@[simp] theorem State.setQueue_pens (s : State) (q : QueueRef) (x : Queue) : (s.setQueue q x).pens = s.pens := rfl
@[simp] theorem State.setQueue_hefts (s : State) (q : QueueRef) (x : Queue) : (s.setQueue q x).hefts = s.hefts := rfl
@[simp] theorem State.setQueue_forecasts (s : State) (q : QueueRef) (x : Queue) : (s.setQueue q x).forecasts = s.forecasts := rfl
@[simp] theorem State.setQueue_jobs (s : State) (q : QueueRef) (x : Queue) : (s.setQueue q x).jobs = s.jobs := rfl
@[simp] theorem State.setQueue_blocks (s : State) (q : QueueRef) (x : Queue) : (s.setQueue q x).blocks = s.blocks := rfl
@[simp] theorem State.setQueue_droves (s : State) (q : QueueRef) (x : Queue) : (s.setQueue q x).droves = s.droves := rfl
@[simp] theorem State.setQueue_links (s : State) (q : QueueRef) (x : Queue) : (s.setQueue q x).links = s.links := rfl
@[simp] theorem State.setQueue_proxies (s : State) (q : QueueRef) (x : Queue) : (s.setQueue q x).proxies = s.proxies := rfl
@[simp] theorem State.setQueue_penProxies (s : State) (q : QueueRef) (x : Queue) : (s.setQueue q x).penProxies = s.penProxies := rfl
@[simp] theorem State.setQueue_hbm (s : State) (q : QueueRef) (x : Queue) : (s.setQueue q x).hbm = s.hbm := rfl
@[simp] theorem State.setQueue_intake (s : State) (q : QueueRef) (x : Queue) : (s.setQueue q x).intake = s.intake := rfl
@[simp] theorem State.setQueue_cqStore (s : State) (q : QueueRef) (x : Queue) : (s.setQueue q x).cqStore = s.cqStore := rfl
@[simp] theorem State.setQueue_fetched (s : State) (q : QueueRef) (x : Queue) : (s.setQueue q x).fetched = s.fetched := rfl
@[simp] theorem State.setQueue_jbe (s : State) (q : QueueRef) (x : Queue) : (s.setQueue q x).jbe = s.jbe := rfl
@[simp] theorem State.setQueue_sqLast (s : State) (q : QueueRef) (x : Queue) : (s.setQueue q x).sqLast = s.sqLast := rfl
@[simp] theorem State.setQueue_cqRaised (s : State) (q : QueueRef) (x : Queue) : (s.setQueue q x).cqRaised = s.cqRaised := rfl
@[simp] theorem State.setQueue_endpoints (s : State) (q : QueueRef) (x : Queue) : (s.setQueue q x).endpoints = s.endpoints := rfl
@[simp] theorem State.setQueue_joins (s : State) (q : QueueRef) (x : Queue) : (s.setQueue q x).joins = s.joins := rfl
@[simp] theorem State.setQueue_idLocked (s : State) (q : QueueRef) (x : Queue) : (s.setQueue q x).idLocked = s.idLocked := rfl
@[simp] theorem State.setQueue_earlyJoins (s : State) (q : QueueRef) (x : Queue) : (s.setQueue q x).earlyJoins = s.earlyJoins := rfl
@[simp] theorem State.setQueue_tasks (s : State) (q : QueueRef) (x : Queue) : (s.setQueue q x).tasks = s.tasks := rfl
@[simp] theorem State.setQueue_taskRefusals (s : State) (q : QueueRef) (x : Queue) : (s.setQueue q x).taskRefusals = s.taskRefusals := rfl
@[simp] theorem State.setQueue_reports (s : State) (q : QueueRef) (x : Queue) : (s.setQueue q x).reports = s.reports := rfl
@[simp] theorem State.setQueue_log (s : State) (q : QueueRef) (x : Queue) : (s.setQueue q x).log = s.log := rfl
@[simp] theorem State.setQueue_events (s : State) (q : QueueRef) (x : Queue) : (s.setQueue q x).events = s.events := rfl
@[simp] theorem State.setQueue_rings (s : State) (q : QueueRef) (x : Queue) : (s.setQueue q x).rings = s.rings := rfl
@[simp] theorem State.setQueue_probes (s : State) (q : QueueRef) (x : Queue) : (s.setQueue q x).probes = s.probes := rfl
@[simp] theorem State.setQueue_retiring (s : State) (q : QueueRef) (x : Queue) : (s.setQueue q x).retiring = s.retiring := rfl
@[simp] theorem State.setQueue_detected (s : State) (q : QueueRef) (x : Queue) : (s.setQueue q x).detected = s.detected := rfl
@[simp] theorem State.setQueue_heldBack (s : State) (q : QueueRef) (x : Queue) : (s.setQueue q x).heldBack = s.heldBack := rfl
@[simp] theorem State.setQueue_asks (s : State) (q : QueueRef) (x : Queue) : (s.setQueue q x).asks = s.asks := rfl
@[simp] theorem State.setQueue_assists (s : State) (q : QueueRef) (x : Queue) : (s.setQueue q x).assists = s.assists := rfl
@[simp] theorem State.setQueue_acks (s : State) (q : QueueRef) (x : Queue) : (s.setQueue q x).acks = s.acks := rfl
@[simp] theorem State.setQueue_suspects (s : State) (q : QueueRef) (x : Queue) : (s.setQueue q x).suspects = s.suspects := rfl
@[simp] theorem State.setQueue_outbox (s : State) (q : QueueRef) (x : Queue) : (s.setQueue q x).outbox = s.outbox := rfl
@[simp] theorem State.setQueue_power (s : State) (q : QueueRef) (x : Queue) : (s.setQueue q x).power = s.power := rfl
@[simp] theorem State.setQueue_plant (s : State) (q : QueueRef) (x : Queue) : (s.setQueue q x).plant = s.plant := rfl
@[simp] theorem State.setQueue_tray (s : State) (q : QueueRef) (x : Queue) : (s.setQueue q x).tray = s.tray := rfl
@[simp] theorem State.setQueue_drains (s : State) (q : QueueRef) (x : Queue) : (s.setQueue q x).drains = s.drains := rfl
@[simp] theorem State.setQueue_pending (s : State) (q : QueueRef) (x : Queue) : (s.setQueue q x).pending = s.pending := rfl

/-! `State.modQueue` changes `queues` alone. -/

@[simp] theorem State.modQueue_now (s : State) (q : QueueRef) (f : Queue → Queue) : (s.modQueue q f).now = s.now := rfl
@[simp] theorem State.modQueue_regs (s : State) (q : QueueRef) (f : Queue → Queue) : (s.modQueue q f).regs = s.regs := rfl
@[simp] theorem State.modQueue_mem (s : State) (q : QueueRef) (f : Queue → Queue) : (s.modQueue q f).mem = s.mem := rfl
@[simp] theorem State.modQueue_freeCount (s : State) (q : QueueRef) (f : Queue → Queue) : (s.modQueue q f).freeCount = s.freeCount := rfl
@[simp] theorem State.modQueue_master (s : State) (q : QueueRef) (f : Queue → Queue) : (s.modQueue q f).master = s.master := rfl
@[simp] theorem State.modQueue_fabricTime (s : State) (q : QueueRef) (f : Queue → Queue) : (s.modQueue q f).fabricTime = s.fabricTime := rfl
@[simp] theorem State.modQueue_fabric (s : State) (q : QueueRef) (f : Queue → Queue) : (s.modQueue q f).fabric = s.fabric := rfl
@[simp] theorem State.modQueue_outstanding (s : State) (q : QueueRef) (f : Queue → Queue) : (s.modQueue q f).outstanding = s.outstanding := rfl
@[simp] theorem State.modQueue_nextTxn (s : State) (q : QueueRef) (f : Queue → Queue) : (s.modQueue q f).nextTxn = s.nextTxn := rfl
@[simp] theorem State.modQueue_routers (s : State) (q : QueueRef) (f : Queue → Queue) : (s.modQueue q f).routers = s.routers := rfl
@[simp] theorem State.modQueue_bridges (s : State) (q : QueueRef) (f : Queue → Queue) : (s.modQueue q f).bridges = s.bridges := rfl
@[simp] theorem State.modQueue_lanes (s : State) (q : QueueRef) (f : Queue → Queue) : (s.modQueue q f).lanes = s.lanes := rfl
@[simp] theorem State.modQueue_changes (s : State) (q : QueueRef) (f : Queue → Queue) : (s.modQueue q f).changes = s.changes := rfl
@[simp] theorem State.modQueue_switching (s : State) (q : QueueRef) (f : Queue → Queue) : (s.modQueue q f).switching = s.switching := rfl
@[simp] theorem State.modQueue_pens (s : State) (q : QueueRef) (f : Queue → Queue) : (s.modQueue q f).pens = s.pens := rfl
@[simp] theorem State.modQueue_hefts (s : State) (q : QueueRef) (f : Queue → Queue) : (s.modQueue q f).hefts = s.hefts := rfl
@[simp] theorem State.modQueue_forecasts (s : State) (q : QueueRef) (f : Queue → Queue) : (s.modQueue q f).forecasts = s.forecasts := rfl
@[simp] theorem State.modQueue_jobs (s : State) (q : QueueRef) (f : Queue → Queue) : (s.modQueue q f).jobs = s.jobs := rfl
@[simp] theorem State.modQueue_blocks (s : State) (q : QueueRef) (f : Queue → Queue) : (s.modQueue q f).blocks = s.blocks := rfl
@[simp] theorem State.modQueue_droves (s : State) (q : QueueRef) (f : Queue → Queue) : (s.modQueue q f).droves = s.droves := rfl
@[simp] theorem State.modQueue_links (s : State) (q : QueueRef) (f : Queue → Queue) : (s.modQueue q f).links = s.links := rfl
@[simp] theorem State.modQueue_proxies (s : State) (q : QueueRef) (f : Queue → Queue) : (s.modQueue q f).proxies = s.proxies := rfl
@[simp] theorem State.modQueue_penProxies (s : State) (q : QueueRef) (f : Queue → Queue) : (s.modQueue q f).penProxies = s.penProxies := rfl
@[simp] theorem State.modQueue_hbm (s : State) (q : QueueRef) (f : Queue → Queue) : (s.modQueue q f).hbm = s.hbm := rfl
@[simp] theorem State.modQueue_intake (s : State) (q : QueueRef) (f : Queue → Queue) : (s.modQueue q f).intake = s.intake := rfl
@[simp] theorem State.modQueue_cqStore (s : State) (q : QueueRef) (f : Queue → Queue) : (s.modQueue q f).cqStore = s.cqStore := rfl
@[simp] theorem State.modQueue_fetched (s : State) (q : QueueRef) (f : Queue → Queue) : (s.modQueue q f).fetched = s.fetched := rfl
@[simp] theorem State.modQueue_jbe (s : State) (q : QueueRef) (f : Queue → Queue) : (s.modQueue q f).jbe = s.jbe := rfl
@[simp] theorem State.modQueue_sqLast (s : State) (q : QueueRef) (f : Queue → Queue) : (s.modQueue q f).sqLast = s.sqLast := rfl
@[simp] theorem State.modQueue_cqRaised (s : State) (q : QueueRef) (f : Queue → Queue) : (s.modQueue q f).cqRaised = s.cqRaised := rfl
@[simp] theorem State.modQueue_endpoints (s : State) (q : QueueRef) (f : Queue → Queue) : (s.modQueue q f).endpoints = s.endpoints := rfl
@[simp] theorem State.modQueue_joins (s : State) (q : QueueRef) (f : Queue → Queue) : (s.modQueue q f).joins = s.joins := rfl
@[simp] theorem State.modQueue_idLocked (s : State) (q : QueueRef) (f : Queue → Queue) : (s.modQueue q f).idLocked = s.idLocked := rfl
@[simp] theorem State.modQueue_earlyJoins (s : State) (q : QueueRef) (f : Queue → Queue) : (s.modQueue q f).earlyJoins = s.earlyJoins := rfl
@[simp] theorem State.modQueue_tasks (s : State) (q : QueueRef) (f : Queue → Queue) : (s.modQueue q f).tasks = s.tasks := rfl
@[simp] theorem State.modQueue_taskRefusals (s : State) (q : QueueRef) (f : Queue → Queue) : (s.modQueue q f).taskRefusals = s.taskRefusals := rfl
@[simp] theorem State.modQueue_reports (s : State) (q : QueueRef) (f : Queue → Queue) : (s.modQueue q f).reports = s.reports := rfl
@[simp] theorem State.modQueue_log (s : State) (q : QueueRef) (f : Queue → Queue) : (s.modQueue q f).log = s.log := rfl
@[simp] theorem State.modQueue_events (s : State) (q : QueueRef) (f : Queue → Queue) : (s.modQueue q f).events = s.events := rfl
@[simp] theorem State.modQueue_rings (s : State) (q : QueueRef) (f : Queue → Queue) : (s.modQueue q f).rings = s.rings := rfl
@[simp] theorem State.modQueue_probes (s : State) (q : QueueRef) (f : Queue → Queue) : (s.modQueue q f).probes = s.probes := rfl
@[simp] theorem State.modQueue_retiring (s : State) (q : QueueRef) (f : Queue → Queue) : (s.modQueue q f).retiring = s.retiring := rfl
@[simp] theorem State.modQueue_detected (s : State) (q : QueueRef) (f : Queue → Queue) : (s.modQueue q f).detected = s.detected := rfl
@[simp] theorem State.modQueue_heldBack (s : State) (q : QueueRef) (f : Queue → Queue) : (s.modQueue q f).heldBack = s.heldBack := rfl
@[simp] theorem State.modQueue_asks (s : State) (q : QueueRef) (f : Queue → Queue) : (s.modQueue q f).asks = s.asks := rfl
@[simp] theorem State.modQueue_assists (s : State) (q : QueueRef) (f : Queue → Queue) : (s.modQueue q f).assists = s.assists := rfl
@[simp] theorem State.modQueue_acks (s : State) (q : QueueRef) (f : Queue → Queue) : (s.modQueue q f).acks = s.acks := rfl
@[simp] theorem State.modQueue_suspects (s : State) (q : QueueRef) (f : Queue → Queue) : (s.modQueue q f).suspects = s.suspects := rfl
@[simp] theorem State.modQueue_outbox (s : State) (q : QueueRef) (f : Queue → Queue) : (s.modQueue q f).outbox = s.outbox := rfl
@[simp] theorem State.modQueue_power (s : State) (q : QueueRef) (f : Queue → Queue) : (s.modQueue q f).power = s.power := rfl
@[simp] theorem State.modQueue_plant (s : State) (q : QueueRef) (f : Queue → Queue) : (s.modQueue q f).plant = s.plant := rfl
@[simp] theorem State.modQueue_tray (s : State) (q : QueueRef) (f : Queue → Queue) : (s.modQueue q f).tray = s.tray := rfl
@[simp] theorem State.modQueue_drains (s : State) (q : QueueRef) (f : Queue → Queue) : (s.modQueue q f).drains = s.drains := rfl
@[simp] theorem State.modQueue_pending (s : State) (q : QueueRef) (f : Queue → Queue) : (s.modQueue q f).pending = s.pending := rfl

/-! `State.setJob` changes `jobs` alone. -/

@[simp] theorem State.setJob_now (s : State) (tag : Nat) (j : Job) : (s.setJob tag j).now = s.now := rfl
@[simp] theorem State.setJob_regs (s : State) (tag : Nat) (j : Job) : (s.setJob tag j).regs = s.regs := rfl
@[simp] theorem State.setJob_mem (s : State) (tag : Nat) (j : Job) : (s.setJob tag j).mem = s.mem := rfl
@[simp] theorem State.setJob_freeCount (s : State) (tag : Nat) (j : Job) : (s.setJob tag j).freeCount = s.freeCount := rfl
@[simp] theorem State.setJob_master (s : State) (tag : Nat) (j : Job) : (s.setJob tag j).master = s.master := rfl
@[simp] theorem State.setJob_fabricTime (s : State) (tag : Nat) (j : Job) : (s.setJob tag j).fabricTime = s.fabricTime := rfl
@[simp] theorem State.setJob_fabric (s : State) (tag : Nat) (j : Job) : (s.setJob tag j).fabric = s.fabric := rfl
@[simp] theorem State.setJob_outstanding (s : State) (tag : Nat) (j : Job) : (s.setJob tag j).outstanding = s.outstanding := rfl
@[simp] theorem State.setJob_nextTxn (s : State) (tag : Nat) (j : Job) : (s.setJob tag j).nextTxn = s.nextTxn := rfl
@[simp] theorem State.setJob_routers (s : State) (tag : Nat) (j : Job) : (s.setJob tag j).routers = s.routers := rfl
@[simp] theorem State.setJob_bridges (s : State) (tag : Nat) (j : Job) : (s.setJob tag j).bridges = s.bridges := rfl
@[simp] theorem State.setJob_lanes (s : State) (tag : Nat) (j : Job) : (s.setJob tag j).lanes = s.lanes := rfl
@[simp] theorem State.setJob_changes (s : State) (tag : Nat) (j : Job) : (s.setJob tag j).changes = s.changes := rfl
@[simp] theorem State.setJob_switching (s : State) (tag : Nat) (j : Job) : (s.setJob tag j).switching = s.switching := rfl
@[simp] theorem State.setJob_pens (s : State) (tag : Nat) (j : Job) : (s.setJob tag j).pens = s.pens := rfl
@[simp] theorem State.setJob_hefts (s : State) (tag : Nat) (j : Job) : (s.setJob tag j).hefts = s.hefts := rfl
@[simp] theorem State.setJob_queues (s : State) (tag : Nat) (j : Job) : (s.setJob tag j).queues = s.queues := rfl
@[simp] theorem State.setJob_forecasts (s : State) (tag : Nat) (j : Job) : (s.setJob tag j).forecasts = s.forecasts := rfl
@[simp] theorem State.setJob_blocks (s : State) (tag : Nat) (j : Job) : (s.setJob tag j).blocks = s.blocks := rfl
@[simp] theorem State.setJob_droves (s : State) (tag : Nat) (j : Job) : (s.setJob tag j).droves = s.droves := rfl
@[simp] theorem State.setJob_links (s : State) (tag : Nat) (j : Job) : (s.setJob tag j).links = s.links := rfl
@[simp] theorem State.setJob_proxies (s : State) (tag : Nat) (j : Job) : (s.setJob tag j).proxies = s.proxies := rfl
@[simp] theorem State.setJob_penProxies (s : State) (tag : Nat) (j : Job) : (s.setJob tag j).penProxies = s.penProxies := rfl
@[simp] theorem State.setJob_hbm (s : State) (tag : Nat) (j : Job) : (s.setJob tag j).hbm = s.hbm := rfl
@[simp] theorem State.setJob_intake (s : State) (tag : Nat) (j : Job) : (s.setJob tag j).intake = s.intake := rfl
@[simp] theorem State.setJob_cqStore (s : State) (tag : Nat) (j : Job) : (s.setJob tag j).cqStore = s.cqStore := rfl
@[simp] theorem State.setJob_fetched (s : State) (tag : Nat) (j : Job) : (s.setJob tag j).fetched = s.fetched := rfl
@[simp] theorem State.setJob_jbe (s : State) (tag : Nat) (j : Job) : (s.setJob tag j).jbe = s.jbe := rfl
@[simp] theorem State.setJob_sqLast (s : State) (tag : Nat) (j : Job) : (s.setJob tag j).sqLast = s.sqLast := rfl
@[simp] theorem State.setJob_cqRaised (s : State) (tag : Nat) (j : Job) : (s.setJob tag j).cqRaised = s.cqRaised := rfl
@[simp] theorem State.setJob_endpoints (s : State) (tag : Nat) (j : Job) : (s.setJob tag j).endpoints = s.endpoints := rfl
@[simp] theorem State.setJob_joins (s : State) (tag : Nat) (j : Job) : (s.setJob tag j).joins = s.joins := rfl
@[simp] theorem State.setJob_idLocked (s : State) (tag : Nat) (j : Job) : (s.setJob tag j).idLocked = s.idLocked := rfl
@[simp] theorem State.setJob_earlyJoins (s : State) (tag : Nat) (j : Job) : (s.setJob tag j).earlyJoins = s.earlyJoins := rfl
@[simp] theorem State.setJob_tasks (s : State) (tag : Nat) (j : Job) : (s.setJob tag j).tasks = s.tasks := rfl
@[simp] theorem State.setJob_taskRefusals (s : State) (tag : Nat) (j : Job) : (s.setJob tag j).taskRefusals = s.taskRefusals := rfl
@[simp] theorem State.setJob_reports (s : State) (tag : Nat) (j : Job) : (s.setJob tag j).reports = s.reports := rfl
@[simp] theorem State.setJob_log (s : State) (tag : Nat) (j : Job) : (s.setJob tag j).log = s.log := rfl
@[simp] theorem State.setJob_events (s : State) (tag : Nat) (j : Job) : (s.setJob tag j).events = s.events := rfl
@[simp] theorem State.setJob_rings (s : State) (tag : Nat) (j : Job) : (s.setJob tag j).rings = s.rings := rfl
@[simp] theorem State.setJob_probes (s : State) (tag : Nat) (j : Job) : (s.setJob tag j).probes = s.probes := rfl
@[simp] theorem State.setJob_retiring (s : State) (tag : Nat) (j : Job) : (s.setJob tag j).retiring = s.retiring := rfl
@[simp] theorem State.setJob_detected (s : State) (tag : Nat) (j : Job) : (s.setJob tag j).detected = s.detected := rfl
@[simp] theorem State.setJob_heldBack (s : State) (tag : Nat) (j : Job) : (s.setJob tag j).heldBack = s.heldBack := rfl
@[simp] theorem State.setJob_asks (s : State) (tag : Nat) (j : Job) : (s.setJob tag j).asks = s.asks := rfl
@[simp] theorem State.setJob_assists (s : State) (tag : Nat) (j : Job) : (s.setJob tag j).assists = s.assists := rfl
@[simp] theorem State.setJob_acks (s : State) (tag : Nat) (j : Job) : (s.setJob tag j).acks = s.acks := rfl
@[simp] theorem State.setJob_suspects (s : State) (tag : Nat) (j : Job) : (s.setJob tag j).suspects = s.suspects := rfl
@[simp] theorem State.setJob_outbox (s : State) (tag : Nat) (j : Job) : (s.setJob tag j).outbox = s.outbox := rfl
@[simp] theorem State.setJob_power (s : State) (tag : Nat) (j : Job) : (s.setJob tag j).power = s.power := rfl
@[simp] theorem State.setJob_plant (s : State) (tag : Nat) (j : Job) : (s.setJob tag j).plant = s.plant := rfl
@[simp] theorem State.setJob_tray (s : State) (tag : Nat) (j : Job) : (s.setJob tag j).tray = s.tray := rfl
@[simp] theorem State.setJob_drains (s : State) (tag : Nat) (j : Job) : (s.setJob tag j).drains = s.drains := rfl
@[simp] theorem State.setJob_pending (s : State) (tag : Nat) (j : Job) : (s.setJob tag j).pending = s.pending := rfl

/-! `State.setDrove` changes `droves` alone. -/

@[simp] theorem State.setDrove_now (s : State) (node : Nat) (d : Drove) : (s.setDrove node d).now = s.now := rfl
@[simp] theorem State.setDrove_regs (s : State) (node : Nat) (d : Drove) : (s.setDrove node d).regs = s.regs := rfl
@[simp] theorem State.setDrove_mem (s : State) (node : Nat) (d : Drove) : (s.setDrove node d).mem = s.mem := rfl
@[simp] theorem State.setDrove_freeCount (s : State) (node : Nat) (d : Drove) : (s.setDrove node d).freeCount = s.freeCount := rfl
@[simp] theorem State.setDrove_master (s : State) (node : Nat) (d : Drove) : (s.setDrove node d).master = s.master := rfl
@[simp] theorem State.setDrove_fabricTime (s : State) (node : Nat) (d : Drove) : (s.setDrove node d).fabricTime = s.fabricTime := rfl
@[simp] theorem State.setDrove_fabric (s : State) (node : Nat) (d : Drove) : (s.setDrove node d).fabric = s.fabric := rfl
@[simp] theorem State.setDrove_outstanding (s : State) (node : Nat) (d : Drove) : (s.setDrove node d).outstanding = s.outstanding := rfl
@[simp] theorem State.setDrove_nextTxn (s : State) (node : Nat) (d : Drove) : (s.setDrove node d).nextTxn = s.nextTxn := rfl
@[simp] theorem State.setDrove_routers (s : State) (node : Nat) (d : Drove) : (s.setDrove node d).routers = s.routers := rfl
@[simp] theorem State.setDrove_bridges (s : State) (node : Nat) (d : Drove) : (s.setDrove node d).bridges = s.bridges := rfl
@[simp] theorem State.setDrove_lanes (s : State) (node : Nat) (d : Drove) : (s.setDrove node d).lanes = s.lanes := rfl
@[simp] theorem State.setDrove_changes (s : State) (node : Nat) (d : Drove) : (s.setDrove node d).changes = s.changes := rfl
@[simp] theorem State.setDrove_switching (s : State) (node : Nat) (d : Drove) : (s.setDrove node d).switching = s.switching := rfl
@[simp] theorem State.setDrove_pens (s : State) (node : Nat) (d : Drove) : (s.setDrove node d).pens = s.pens := rfl
@[simp] theorem State.setDrove_hefts (s : State) (node : Nat) (d : Drove) : (s.setDrove node d).hefts = s.hefts := rfl
@[simp] theorem State.setDrove_queues (s : State) (node : Nat) (d : Drove) : (s.setDrove node d).queues = s.queues := rfl
@[simp] theorem State.setDrove_forecasts (s : State) (node : Nat) (d : Drove) : (s.setDrove node d).forecasts = s.forecasts := rfl
@[simp] theorem State.setDrove_jobs (s : State) (node : Nat) (d : Drove) : (s.setDrove node d).jobs = s.jobs := rfl
@[simp] theorem State.setDrove_blocks (s : State) (node : Nat) (d : Drove) : (s.setDrove node d).blocks = s.blocks := rfl
@[simp] theorem State.setDrove_links (s : State) (node : Nat) (d : Drove) : (s.setDrove node d).links = s.links := rfl
@[simp] theorem State.setDrove_proxies (s : State) (node : Nat) (d : Drove) : (s.setDrove node d).proxies = s.proxies := rfl
@[simp] theorem State.setDrove_penProxies (s : State) (node : Nat) (d : Drove) : (s.setDrove node d).penProxies = s.penProxies := rfl
@[simp] theorem State.setDrove_hbm (s : State) (node : Nat) (d : Drove) : (s.setDrove node d).hbm = s.hbm := rfl
@[simp] theorem State.setDrove_intake (s : State) (node : Nat) (d : Drove) : (s.setDrove node d).intake = s.intake := rfl
@[simp] theorem State.setDrove_cqStore (s : State) (node : Nat) (d : Drove) : (s.setDrove node d).cqStore = s.cqStore := rfl
@[simp] theorem State.setDrove_fetched (s : State) (node : Nat) (d : Drove) : (s.setDrove node d).fetched = s.fetched := rfl
@[simp] theorem State.setDrove_jbe (s : State) (node : Nat) (d : Drove) : (s.setDrove node d).jbe = s.jbe := rfl
@[simp] theorem State.setDrove_sqLast (s : State) (node : Nat) (d : Drove) : (s.setDrove node d).sqLast = s.sqLast := rfl
@[simp] theorem State.setDrove_cqRaised (s : State) (node : Nat) (d : Drove) : (s.setDrove node d).cqRaised = s.cqRaised := rfl
@[simp] theorem State.setDrove_endpoints (s : State) (node : Nat) (d : Drove) : (s.setDrove node d).endpoints = s.endpoints := rfl
@[simp] theorem State.setDrove_joins (s : State) (node : Nat) (d : Drove) : (s.setDrove node d).joins = s.joins := rfl
@[simp] theorem State.setDrove_idLocked (s : State) (node : Nat) (d : Drove) : (s.setDrove node d).idLocked = s.idLocked := rfl
@[simp] theorem State.setDrove_earlyJoins (s : State) (node : Nat) (d : Drove) : (s.setDrove node d).earlyJoins = s.earlyJoins := rfl
@[simp] theorem State.setDrove_tasks (s : State) (node : Nat) (d : Drove) : (s.setDrove node d).tasks = s.tasks := rfl
@[simp] theorem State.setDrove_taskRefusals (s : State) (node : Nat) (d : Drove) : (s.setDrove node d).taskRefusals = s.taskRefusals := rfl
@[simp] theorem State.setDrove_reports (s : State) (node : Nat) (d : Drove) : (s.setDrove node d).reports = s.reports := rfl
@[simp] theorem State.setDrove_log (s : State) (node : Nat) (d : Drove) : (s.setDrove node d).log = s.log := rfl
@[simp] theorem State.setDrove_events (s : State) (node : Nat) (d : Drove) : (s.setDrove node d).events = s.events := rfl
@[simp] theorem State.setDrove_rings (s : State) (node : Nat) (d : Drove) : (s.setDrove node d).rings = s.rings := rfl
@[simp] theorem State.setDrove_probes (s : State) (node : Nat) (d : Drove) : (s.setDrove node d).probes = s.probes := rfl
@[simp] theorem State.setDrove_retiring (s : State) (node : Nat) (d : Drove) : (s.setDrove node d).retiring = s.retiring := rfl
@[simp] theorem State.setDrove_detected (s : State) (node : Nat) (d : Drove) : (s.setDrove node d).detected = s.detected := rfl
@[simp] theorem State.setDrove_heldBack (s : State) (node : Nat) (d : Drove) : (s.setDrove node d).heldBack = s.heldBack := rfl
@[simp] theorem State.setDrove_asks (s : State) (node : Nat) (d : Drove) : (s.setDrove node d).asks = s.asks := rfl
@[simp] theorem State.setDrove_assists (s : State) (node : Nat) (d : Drove) : (s.setDrove node d).assists = s.assists := rfl
@[simp] theorem State.setDrove_acks (s : State) (node : Nat) (d : Drove) : (s.setDrove node d).acks = s.acks := rfl
@[simp] theorem State.setDrove_suspects (s : State) (node : Nat) (d : Drove) : (s.setDrove node d).suspects = s.suspects := rfl
@[simp] theorem State.setDrove_outbox (s : State) (node : Nat) (d : Drove) : (s.setDrove node d).outbox = s.outbox := rfl
@[simp] theorem State.setDrove_power (s : State) (node : Nat) (d : Drove) : (s.setDrove node d).power = s.power := rfl
@[simp] theorem State.setDrove_plant (s : State) (node : Nat) (d : Drove) : (s.setDrove node d).plant = s.plant := rfl
@[simp] theorem State.setDrove_tray (s : State) (node : Nat) (d : Drove) : (s.setDrove node d).tray = s.tray := rfl
@[simp] theorem State.setDrove_drains (s : State) (node : Nat) (d : Drove) : (s.setDrove node d).drains = s.drains := rfl
@[simp] theorem State.setDrove_pending (s : State) (node : Nat) (d : Drove) : (s.setDrove node d).pending = s.pending := rfl

/-! `State.modDrove` changes `droves` alone. -/

@[simp] theorem State.modDrove_now (s : State) (node : Nat) (f : Drove → Drove) : (s.modDrove node f).now = s.now := rfl
@[simp] theorem State.modDrove_regs (s : State) (node : Nat) (f : Drove → Drove) : (s.modDrove node f).regs = s.regs := rfl
@[simp] theorem State.modDrove_mem (s : State) (node : Nat) (f : Drove → Drove) : (s.modDrove node f).mem = s.mem := rfl
@[simp] theorem State.modDrove_freeCount (s : State) (node : Nat) (f : Drove → Drove) : (s.modDrove node f).freeCount = s.freeCount := rfl
@[simp] theorem State.modDrove_master (s : State) (node : Nat) (f : Drove → Drove) : (s.modDrove node f).master = s.master := rfl
@[simp] theorem State.modDrove_fabricTime (s : State) (node : Nat) (f : Drove → Drove) : (s.modDrove node f).fabricTime = s.fabricTime := rfl
@[simp] theorem State.modDrove_fabric (s : State) (node : Nat) (f : Drove → Drove) : (s.modDrove node f).fabric = s.fabric := rfl
@[simp] theorem State.modDrove_outstanding (s : State) (node : Nat) (f : Drove → Drove) : (s.modDrove node f).outstanding = s.outstanding := rfl
@[simp] theorem State.modDrove_nextTxn (s : State) (node : Nat) (f : Drove → Drove) : (s.modDrove node f).nextTxn = s.nextTxn := rfl
@[simp] theorem State.modDrove_routers (s : State) (node : Nat) (f : Drove → Drove) : (s.modDrove node f).routers = s.routers := rfl
@[simp] theorem State.modDrove_bridges (s : State) (node : Nat) (f : Drove → Drove) : (s.modDrove node f).bridges = s.bridges := rfl
@[simp] theorem State.modDrove_lanes (s : State) (node : Nat) (f : Drove → Drove) : (s.modDrove node f).lanes = s.lanes := rfl
@[simp] theorem State.modDrove_changes (s : State) (node : Nat) (f : Drove → Drove) : (s.modDrove node f).changes = s.changes := rfl
@[simp] theorem State.modDrove_switching (s : State) (node : Nat) (f : Drove → Drove) : (s.modDrove node f).switching = s.switching := rfl
@[simp] theorem State.modDrove_pens (s : State) (node : Nat) (f : Drove → Drove) : (s.modDrove node f).pens = s.pens := rfl
@[simp] theorem State.modDrove_hefts (s : State) (node : Nat) (f : Drove → Drove) : (s.modDrove node f).hefts = s.hefts := rfl
@[simp] theorem State.modDrove_queues (s : State) (node : Nat) (f : Drove → Drove) : (s.modDrove node f).queues = s.queues := rfl
@[simp] theorem State.modDrove_forecasts (s : State) (node : Nat) (f : Drove → Drove) : (s.modDrove node f).forecasts = s.forecasts := rfl
@[simp] theorem State.modDrove_jobs (s : State) (node : Nat) (f : Drove → Drove) : (s.modDrove node f).jobs = s.jobs := rfl
@[simp] theorem State.modDrove_blocks (s : State) (node : Nat) (f : Drove → Drove) : (s.modDrove node f).blocks = s.blocks := rfl
@[simp] theorem State.modDrove_links (s : State) (node : Nat) (f : Drove → Drove) : (s.modDrove node f).links = s.links := rfl
@[simp] theorem State.modDrove_proxies (s : State) (node : Nat) (f : Drove → Drove) : (s.modDrove node f).proxies = s.proxies := rfl
@[simp] theorem State.modDrove_penProxies (s : State) (node : Nat) (f : Drove → Drove) : (s.modDrove node f).penProxies = s.penProxies := rfl
@[simp] theorem State.modDrove_hbm (s : State) (node : Nat) (f : Drove → Drove) : (s.modDrove node f).hbm = s.hbm := rfl
@[simp] theorem State.modDrove_intake (s : State) (node : Nat) (f : Drove → Drove) : (s.modDrove node f).intake = s.intake := rfl
@[simp] theorem State.modDrove_cqStore (s : State) (node : Nat) (f : Drove → Drove) : (s.modDrove node f).cqStore = s.cqStore := rfl
@[simp] theorem State.modDrove_fetched (s : State) (node : Nat) (f : Drove → Drove) : (s.modDrove node f).fetched = s.fetched := rfl
@[simp] theorem State.modDrove_jbe (s : State) (node : Nat) (f : Drove → Drove) : (s.modDrove node f).jbe = s.jbe := rfl
@[simp] theorem State.modDrove_sqLast (s : State) (node : Nat) (f : Drove → Drove) : (s.modDrove node f).sqLast = s.sqLast := rfl
@[simp] theorem State.modDrove_cqRaised (s : State) (node : Nat) (f : Drove → Drove) : (s.modDrove node f).cqRaised = s.cqRaised := rfl
@[simp] theorem State.modDrove_endpoints (s : State) (node : Nat) (f : Drove → Drove) : (s.modDrove node f).endpoints = s.endpoints := rfl
@[simp] theorem State.modDrove_joins (s : State) (node : Nat) (f : Drove → Drove) : (s.modDrove node f).joins = s.joins := rfl
@[simp] theorem State.modDrove_idLocked (s : State) (node : Nat) (f : Drove → Drove) : (s.modDrove node f).idLocked = s.idLocked := rfl
@[simp] theorem State.modDrove_earlyJoins (s : State) (node : Nat) (f : Drove → Drove) : (s.modDrove node f).earlyJoins = s.earlyJoins := rfl
@[simp] theorem State.modDrove_tasks (s : State) (node : Nat) (f : Drove → Drove) : (s.modDrove node f).tasks = s.tasks := rfl
@[simp] theorem State.modDrove_taskRefusals (s : State) (node : Nat) (f : Drove → Drove) : (s.modDrove node f).taskRefusals = s.taskRefusals := rfl
@[simp] theorem State.modDrove_reports (s : State) (node : Nat) (f : Drove → Drove) : (s.modDrove node f).reports = s.reports := rfl
@[simp] theorem State.modDrove_log (s : State) (node : Nat) (f : Drove → Drove) : (s.modDrove node f).log = s.log := rfl
@[simp] theorem State.modDrove_events (s : State) (node : Nat) (f : Drove → Drove) : (s.modDrove node f).events = s.events := rfl
@[simp] theorem State.modDrove_rings (s : State) (node : Nat) (f : Drove → Drove) : (s.modDrove node f).rings = s.rings := rfl
@[simp] theorem State.modDrove_probes (s : State) (node : Nat) (f : Drove → Drove) : (s.modDrove node f).probes = s.probes := rfl
@[simp] theorem State.modDrove_retiring (s : State) (node : Nat) (f : Drove → Drove) : (s.modDrove node f).retiring = s.retiring := rfl
@[simp] theorem State.modDrove_detected (s : State) (node : Nat) (f : Drove → Drove) : (s.modDrove node f).detected = s.detected := rfl
@[simp] theorem State.modDrove_heldBack (s : State) (node : Nat) (f : Drove → Drove) : (s.modDrove node f).heldBack = s.heldBack := rfl
@[simp] theorem State.modDrove_asks (s : State) (node : Nat) (f : Drove → Drove) : (s.modDrove node f).asks = s.asks := rfl
@[simp] theorem State.modDrove_assists (s : State) (node : Nat) (f : Drove → Drove) : (s.modDrove node f).assists = s.assists := rfl
@[simp] theorem State.modDrove_acks (s : State) (node : Nat) (f : Drove → Drove) : (s.modDrove node f).acks = s.acks := rfl
@[simp] theorem State.modDrove_suspects (s : State) (node : Nat) (f : Drove → Drove) : (s.modDrove node f).suspects = s.suspects := rfl
@[simp] theorem State.modDrove_outbox (s : State) (node : Nat) (f : Drove → Drove) : (s.modDrove node f).outbox = s.outbox := rfl
@[simp] theorem State.modDrove_power (s : State) (node : Nat) (f : Drove → Drove) : (s.modDrove node f).power = s.power := rfl
@[simp] theorem State.modDrove_plant (s : State) (node : Nat) (f : Drove → Drove) : (s.modDrove node f).plant = s.plant := rfl
@[simp] theorem State.modDrove_tray (s : State) (node : Nat) (f : Drove → Drove) : (s.modDrove node f).tray = s.tray := rfl
@[simp] theorem State.modDrove_drains (s : State) (node : Nat) (f : Drove → Drove) : (s.modDrove node f).drains = s.drains := rfl
@[simp] theorem State.modDrove_pending (s : State) (node : Nat) (f : Drove → Drove) : (s.modDrove node f).pending = s.pending := rfl

/-! `State.setLink` changes `links` alone. -/

@[simp] theorem State.setLink_now (s : State) (node b : Nat) (x : Bundle) : (s.setLink node b x).now = s.now := rfl
@[simp] theorem State.setLink_regs (s : State) (node b : Nat) (x : Bundle) : (s.setLink node b x).regs = s.regs := rfl
@[simp] theorem State.setLink_mem (s : State) (node b : Nat) (x : Bundle) : (s.setLink node b x).mem = s.mem := rfl
@[simp] theorem State.setLink_freeCount (s : State) (node b : Nat) (x : Bundle) : (s.setLink node b x).freeCount = s.freeCount := rfl
@[simp] theorem State.setLink_master (s : State) (node b : Nat) (x : Bundle) : (s.setLink node b x).master = s.master := rfl
@[simp] theorem State.setLink_fabricTime (s : State) (node b : Nat) (x : Bundle) : (s.setLink node b x).fabricTime = s.fabricTime := rfl
@[simp] theorem State.setLink_fabric (s : State) (node b : Nat) (x : Bundle) : (s.setLink node b x).fabric = s.fabric := rfl
@[simp] theorem State.setLink_outstanding (s : State) (node b : Nat) (x : Bundle) : (s.setLink node b x).outstanding = s.outstanding := rfl
@[simp] theorem State.setLink_nextTxn (s : State) (node b : Nat) (x : Bundle) : (s.setLink node b x).nextTxn = s.nextTxn := rfl
@[simp] theorem State.setLink_routers (s : State) (node b : Nat) (x : Bundle) : (s.setLink node b x).routers = s.routers := rfl
@[simp] theorem State.setLink_bridges (s : State) (node b : Nat) (x : Bundle) : (s.setLink node b x).bridges = s.bridges := rfl
@[simp] theorem State.setLink_lanes (s : State) (node b : Nat) (x : Bundle) : (s.setLink node b x).lanes = s.lanes := rfl
@[simp] theorem State.setLink_changes (s : State) (node b : Nat) (x : Bundle) : (s.setLink node b x).changes = s.changes := rfl
@[simp] theorem State.setLink_switching (s : State) (node b : Nat) (x : Bundle) : (s.setLink node b x).switching = s.switching := rfl
@[simp] theorem State.setLink_pens (s : State) (node b : Nat) (x : Bundle) : (s.setLink node b x).pens = s.pens := rfl
@[simp] theorem State.setLink_hefts (s : State) (node b : Nat) (x : Bundle) : (s.setLink node b x).hefts = s.hefts := rfl
@[simp] theorem State.setLink_queues (s : State) (node b : Nat) (x : Bundle) : (s.setLink node b x).queues = s.queues := rfl
@[simp] theorem State.setLink_forecasts (s : State) (node b : Nat) (x : Bundle) : (s.setLink node b x).forecasts = s.forecasts := rfl
@[simp] theorem State.setLink_jobs (s : State) (node b : Nat) (x : Bundle) : (s.setLink node b x).jobs = s.jobs := rfl
@[simp] theorem State.setLink_blocks (s : State) (node b : Nat) (x : Bundle) : (s.setLink node b x).blocks = s.blocks := rfl
@[simp] theorem State.setLink_droves (s : State) (node b : Nat) (x : Bundle) : (s.setLink node b x).droves = s.droves := rfl
@[simp] theorem State.setLink_proxies (s : State) (node b : Nat) (x : Bundle) : (s.setLink node b x).proxies = s.proxies := rfl
@[simp] theorem State.setLink_penProxies (s : State) (node b : Nat) (x : Bundle) : (s.setLink node b x).penProxies = s.penProxies := rfl
@[simp] theorem State.setLink_hbm (s : State) (node b : Nat) (x : Bundle) : (s.setLink node b x).hbm = s.hbm := rfl
@[simp] theorem State.setLink_intake (s : State) (node b : Nat) (x : Bundle) : (s.setLink node b x).intake = s.intake := rfl
@[simp] theorem State.setLink_cqStore (s : State) (node b : Nat) (x : Bundle) : (s.setLink node b x).cqStore = s.cqStore := rfl
@[simp] theorem State.setLink_fetched (s : State) (node b : Nat) (x : Bundle) : (s.setLink node b x).fetched = s.fetched := rfl
@[simp] theorem State.setLink_jbe (s : State) (node b : Nat) (x : Bundle) : (s.setLink node b x).jbe = s.jbe := rfl
@[simp] theorem State.setLink_sqLast (s : State) (node b : Nat) (x : Bundle) : (s.setLink node b x).sqLast = s.sqLast := rfl
@[simp] theorem State.setLink_cqRaised (s : State) (node b : Nat) (x : Bundle) : (s.setLink node b x).cqRaised = s.cqRaised := rfl
@[simp] theorem State.setLink_endpoints (s : State) (node b : Nat) (x : Bundle) : (s.setLink node b x).endpoints = s.endpoints := rfl
@[simp] theorem State.setLink_joins (s : State) (node b : Nat) (x : Bundle) : (s.setLink node b x).joins = s.joins := rfl
@[simp] theorem State.setLink_idLocked (s : State) (node b : Nat) (x : Bundle) : (s.setLink node b x).idLocked = s.idLocked := rfl
@[simp] theorem State.setLink_earlyJoins (s : State) (node b : Nat) (x : Bundle) : (s.setLink node b x).earlyJoins = s.earlyJoins := rfl
@[simp] theorem State.setLink_tasks (s : State) (node b : Nat) (x : Bundle) : (s.setLink node b x).tasks = s.tasks := rfl
@[simp] theorem State.setLink_taskRefusals (s : State) (node b : Nat) (x : Bundle) : (s.setLink node b x).taskRefusals = s.taskRefusals := rfl
@[simp] theorem State.setLink_reports (s : State) (node b : Nat) (x : Bundle) : (s.setLink node b x).reports = s.reports := rfl
@[simp] theorem State.setLink_log (s : State) (node b : Nat) (x : Bundle) : (s.setLink node b x).log = s.log := rfl
@[simp] theorem State.setLink_events (s : State) (node b : Nat) (x : Bundle) : (s.setLink node b x).events = s.events := rfl
@[simp] theorem State.setLink_rings (s : State) (node b : Nat) (x : Bundle) : (s.setLink node b x).rings = s.rings := rfl
@[simp] theorem State.setLink_probes (s : State) (node b : Nat) (x : Bundle) : (s.setLink node b x).probes = s.probes := rfl
@[simp] theorem State.setLink_retiring (s : State) (node b : Nat) (x : Bundle) : (s.setLink node b x).retiring = s.retiring := rfl
@[simp] theorem State.setLink_detected (s : State) (node b : Nat) (x : Bundle) : (s.setLink node b x).detected = s.detected := rfl
@[simp] theorem State.setLink_heldBack (s : State) (node b : Nat) (x : Bundle) : (s.setLink node b x).heldBack = s.heldBack := rfl
@[simp] theorem State.setLink_asks (s : State) (node b : Nat) (x : Bundle) : (s.setLink node b x).asks = s.asks := rfl
@[simp] theorem State.setLink_assists (s : State) (node b : Nat) (x : Bundle) : (s.setLink node b x).assists = s.assists := rfl
@[simp] theorem State.setLink_acks (s : State) (node b : Nat) (x : Bundle) : (s.setLink node b x).acks = s.acks := rfl
@[simp] theorem State.setLink_suspects (s : State) (node b : Nat) (x : Bundle) : (s.setLink node b x).suspects = s.suspects := rfl
@[simp] theorem State.setLink_outbox (s : State) (node b : Nat) (x : Bundle) : (s.setLink node b x).outbox = s.outbox := rfl
@[simp] theorem State.setLink_power (s : State) (node b : Nat) (x : Bundle) : (s.setLink node b x).power = s.power := rfl
@[simp] theorem State.setLink_plant (s : State) (node b : Nat) (x : Bundle) : (s.setLink node b x).plant = s.plant := rfl
@[simp] theorem State.setLink_tray (s : State) (node b : Nat) (x : Bundle) : (s.setLink node b x).tray = s.tray := rfl
@[simp] theorem State.setLink_drains (s : State) (node b : Nat) (x : Bundle) : (s.setLink node b x).drains = s.drains := rfl
@[simp] theorem State.setLink_pending (s : State) (node b : Nat) (x : Bundle) : (s.setLink node b x).pending = s.pending := rfl

/-! `State.modLink` changes `links` alone. -/

@[simp] theorem State.modLink_now (s : State) (node b : Nat) (f : Bundle → Bundle) : (s.modLink node b f).now = s.now := rfl
@[simp] theorem State.modLink_regs (s : State) (node b : Nat) (f : Bundle → Bundle) : (s.modLink node b f).regs = s.regs := rfl
@[simp] theorem State.modLink_mem (s : State) (node b : Nat) (f : Bundle → Bundle) : (s.modLink node b f).mem = s.mem := rfl
@[simp] theorem State.modLink_freeCount (s : State) (node b : Nat) (f : Bundle → Bundle) : (s.modLink node b f).freeCount = s.freeCount := rfl
@[simp] theorem State.modLink_master (s : State) (node b : Nat) (f : Bundle → Bundle) : (s.modLink node b f).master = s.master := rfl
@[simp] theorem State.modLink_fabricTime (s : State) (node b : Nat) (f : Bundle → Bundle) : (s.modLink node b f).fabricTime = s.fabricTime := rfl
@[simp] theorem State.modLink_fabric (s : State) (node b : Nat) (f : Bundle → Bundle) : (s.modLink node b f).fabric = s.fabric := rfl
@[simp] theorem State.modLink_outstanding (s : State) (node b : Nat) (f : Bundle → Bundle) : (s.modLink node b f).outstanding = s.outstanding := rfl
@[simp] theorem State.modLink_nextTxn (s : State) (node b : Nat) (f : Bundle → Bundle) : (s.modLink node b f).nextTxn = s.nextTxn := rfl
@[simp] theorem State.modLink_routers (s : State) (node b : Nat) (f : Bundle → Bundle) : (s.modLink node b f).routers = s.routers := rfl
@[simp] theorem State.modLink_bridges (s : State) (node b : Nat) (f : Bundle → Bundle) : (s.modLink node b f).bridges = s.bridges := rfl
@[simp] theorem State.modLink_lanes (s : State) (node b : Nat) (f : Bundle → Bundle) : (s.modLink node b f).lanes = s.lanes := rfl
@[simp] theorem State.modLink_changes (s : State) (node b : Nat) (f : Bundle → Bundle) : (s.modLink node b f).changes = s.changes := rfl
@[simp] theorem State.modLink_switching (s : State) (node b : Nat) (f : Bundle → Bundle) : (s.modLink node b f).switching = s.switching := rfl
@[simp] theorem State.modLink_pens (s : State) (node b : Nat) (f : Bundle → Bundle) : (s.modLink node b f).pens = s.pens := rfl
@[simp] theorem State.modLink_hefts (s : State) (node b : Nat) (f : Bundle → Bundle) : (s.modLink node b f).hefts = s.hefts := rfl
@[simp] theorem State.modLink_queues (s : State) (node b : Nat) (f : Bundle → Bundle) : (s.modLink node b f).queues = s.queues := rfl
@[simp] theorem State.modLink_forecasts (s : State) (node b : Nat) (f : Bundle → Bundle) : (s.modLink node b f).forecasts = s.forecasts := rfl
@[simp] theorem State.modLink_jobs (s : State) (node b : Nat) (f : Bundle → Bundle) : (s.modLink node b f).jobs = s.jobs := rfl
@[simp] theorem State.modLink_blocks (s : State) (node b : Nat) (f : Bundle → Bundle) : (s.modLink node b f).blocks = s.blocks := rfl
@[simp] theorem State.modLink_droves (s : State) (node b : Nat) (f : Bundle → Bundle) : (s.modLink node b f).droves = s.droves := rfl
@[simp] theorem State.modLink_proxies (s : State) (node b : Nat) (f : Bundle → Bundle) : (s.modLink node b f).proxies = s.proxies := rfl
@[simp] theorem State.modLink_penProxies (s : State) (node b : Nat) (f : Bundle → Bundle) : (s.modLink node b f).penProxies = s.penProxies := rfl
@[simp] theorem State.modLink_hbm (s : State) (node b : Nat) (f : Bundle → Bundle) : (s.modLink node b f).hbm = s.hbm := rfl
@[simp] theorem State.modLink_intake (s : State) (node b : Nat) (f : Bundle → Bundle) : (s.modLink node b f).intake = s.intake := rfl
@[simp] theorem State.modLink_cqStore (s : State) (node b : Nat) (f : Bundle → Bundle) : (s.modLink node b f).cqStore = s.cqStore := rfl
@[simp] theorem State.modLink_fetched (s : State) (node b : Nat) (f : Bundle → Bundle) : (s.modLink node b f).fetched = s.fetched := rfl
@[simp] theorem State.modLink_jbe (s : State) (node b : Nat) (f : Bundle → Bundle) : (s.modLink node b f).jbe = s.jbe := rfl
@[simp] theorem State.modLink_sqLast (s : State) (node b : Nat) (f : Bundle → Bundle) : (s.modLink node b f).sqLast = s.sqLast := rfl
@[simp] theorem State.modLink_cqRaised (s : State) (node b : Nat) (f : Bundle → Bundle) : (s.modLink node b f).cqRaised = s.cqRaised := rfl
@[simp] theorem State.modLink_endpoints (s : State) (node b : Nat) (f : Bundle → Bundle) : (s.modLink node b f).endpoints = s.endpoints := rfl
@[simp] theorem State.modLink_joins (s : State) (node b : Nat) (f : Bundle → Bundle) : (s.modLink node b f).joins = s.joins := rfl
@[simp] theorem State.modLink_idLocked (s : State) (node b : Nat) (f : Bundle → Bundle) : (s.modLink node b f).idLocked = s.idLocked := rfl
@[simp] theorem State.modLink_earlyJoins (s : State) (node b : Nat) (f : Bundle → Bundle) : (s.modLink node b f).earlyJoins = s.earlyJoins := rfl
@[simp] theorem State.modLink_tasks (s : State) (node b : Nat) (f : Bundle → Bundle) : (s.modLink node b f).tasks = s.tasks := rfl
@[simp] theorem State.modLink_taskRefusals (s : State) (node b : Nat) (f : Bundle → Bundle) : (s.modLink node b f).taskRefusals = s.taskRefusals := rfl
@[simp] theorem State.modLink_reports (s : State) (node b : Nat) (f : Bundle → Bundle) : (s.modLink node b f).reports = s.reports := rfl
@[simp] theorem State.modLink_log (s : State) (node b : Nat) (f : Bundle → Bundle) : (s.modLink node b f).log = s.log := rfl
@[simp] theorem State.modLink_events (s : State) (node b : Nat) (f : Bundle → Bundle) : (s.modLink node b f).events = s.events := rfl
@[simp] theorem State.modLink_rings (s : State) (node b : Nat) (f : Bundle → Bundle) : (s.modLink node b f).rings = s.rings := rfl
@[simp] theorem State.modLink_probes (s : State) (node b : Nat) (f : Bundle → Bundle) : (s.modLink node b f).probes = s.probes := rfl
@[simp] theorem State.modLink_retiring (s : State) (node b : Nat) (f : Bundle → Bundle) : (s.modLink node b f).retiring = s.retiring := rfl
@[simp] theorem State.modLink_detected (s : State) (node b : Nat) (f : Bundle → Bundle) : (s.modLink node b f).detected = s.detected := rfl
@[simp] theorem State.modLink_heldBack (s : State) (node b : Nat) (f : Bundle → Bundle) : (s.modLink node b f).heldBack = s.heldBack := rfl
@[simp] theorem State.modLink_asks (s : State) (node b : Nat) (f : Bundle → Bundle) : (s.modLink node b f).asks = s.asks := rfl
@[simp] theorem State.modLink_assists (s : State) (node b : Nat) (f : Bundle → Bundle) : (s.modLink node b f).assists = s.assists := rfl
@[simp] theorem State.modLink_acks (s : State) (node b : Nat) (f : Bundle → Bundle) : (s.modLink node b f).acks = s.acks := rfl
@[simp] theorem State.modLink_suspects (s : State) (node b : Nat) (f : Bundle → Bundle) : (s.modLink node b f).suspects = s.suspects := rfl
@[simp] theorem State.modLink_outbox (s : State) (node b : Nat) (f : Bundle → Bundle) : (s.modLink node b f).outbox = s.outbox := rfl
@[simp] theorem State.modLink_power (s : State) (node b : Nat) (f : Bundle → Bundle) : (s.modLink node b f).power = s.power := rfl
@[simp] theorem State.modLink_plant (s : State) (node b : Nat) (f : Bundle → Bundle) : (s.modLink node b f).plant = s.plant := rfl
@[simp] theorem State.modLink_tray (s : State) (node b : Nat) (f : Bundle → Bundle) : (s.modLink node b f).tray = s.tray := rfl
@[simp] theorem State.modLink_drains (s : State) (node b : Nat) (f : Bundle → Bundle) : (s.modLink node b f).drains = s.drains := rfl
@[simp] theorem State.modLink_pending (s : State) (node b : Nat) (f : Bundle → Bundle) : (s.modLink node b f).pending = s.pending := rfl

/-! `State.modRouter` changes `routers` alone. -/

@[simp] theorem State.modRouter_now (s : State) (n : Nat) (f : Router → Router) : (s.modRouter n f).now = s.now := rfl
@[simp] theorem State.modRouter_regs (s : State) (n : Nat) (f : Router → Router) : (s.modRouter n f).regs = s.regs := rfl
@[simp] theorem State.modRouter_mem (s : State) (n : Nat) (f : Router → Router) : (s.modRouter n f).mem = s.mem := rfl
@[simp] theorem State.modRouter_freeCount (s : State) (n : Nat) (f : Router → Router) : (s.modRouter n f).freeCount = s.freeCount := rfl
@[simp] theorem State.modRouter_master (s : State) (n : Nat) (f : Router → Router) : (s.modRouter n f).master = s.master := rfl
@[simp] theorem State.modRouter_fabricTime (s : State) (n : Nat) (f : Router → Router) : (s.modRouter n f).fabricTime = s.fabricTime := rfl
@[simp] theorem State.modRouter_fabric (s : State) (n : Nat) (f : Router → Router) : (s.modRouter n f).fabric = s.fabric := rfl
@[simp] theorem State.modRouter_outstanding (s : State) (n : Nat) (f : Router → Router) : (s.modRouter n f).outstanding = s.outstanding := rfl
@[simp] theorem State.modRouter_nextTxn (s : State) (n : Nat) (f : Router → Router) : (s.modRouter n f).nextTxn = s.nextTxn := rfl
@[simp] theorem State.modRouter_bridges (s : State) (n : Nat) (f : Router → Router) : (s.modRouter n f).bridges = s.bridges := rfl
@[simp] theorem State.modRouter_lanes (s : State) (n : Nat) (f : Router → Router) : (s.modRouter n f).lanes = s.lanes := rfl
@[simp] theorem State.modRouter_changes (s : State) (n : Nat) (f : Router → Router) : (s.modRouter n f).changes = s.changes := rfl
@[simp] theorem State.modRouter_switching (s : State) (n : Nat) (f : Router → Router) : (s.modRouter n f).switching = s.switching := rfl
@[simp] theorem State.modRouter_pens (s : State) (n : Nat) (f : Router → Router) : (s.modRouter n f).pens = s.pens := rfl
@[simp] theorem State.modRouter_hefts (s : State) (n : Nat) (f : Router → Router) : (s.modRouter n f).hefts = s.hefts := rfl
@[simp] theorem State.modRouter_queues (s : State) (n : Nat) (f : Router → Router) : (s.modRouter n f).queues = s.queues := rfl
@[simp] theorem State.modRouter_forecasts (s : State) (n : Nat) (f : Router → Router) : (s.modRouter n f).forecasts = s.forecasts := rfl
@[simp] theorem State.modRouter_jobs (s : State) (n : Nat) (f : Router → Router) : (s.modRouter n f).jobs = s.jobs := rfl
@[simp] theorem State.modRouter_blocks (s : State) (n : Nat) (f : Router → Router) : (s.modRouter n f).blocks = s.blocks := rfl
@[simp] theorem State.modRouter_droves (s : State) (n : Nat) (f : Router → Router) : (s.modRouter n f).droves = s.droves := rfl
@[simp] theorem State.modRouter_links (s : State) (n : Nat) (f : Router → Router) : (s.modRouter n f).links = s.links := rfl
@[simp] theorem State.modRouter_proxies (s : State) (n : Nat) (f : Router → Router) : (s.modRouter n f).proxies = s.proxies := rfl
@[simp] theorem State.modRouter_penProxies (s : State) (n : Nat) (f : Router → Router) : (s.modRouter n f).penProxies = s.penProxies := rfl
@[simp] theorem State.modRouter_hbm (s : State) (n : Nat) (f : Router → Router) : (s.modRouter n f).hbm = s.hbm := rfl
@[simp] theorem State.modRouter_intake (s : State) (n : Nat) (f : Router → Router) : (s.modRouter n f).intake = s.intake := rfl
@[simp] theorem State.modRouter_cqStore (s : State) (n : Nat) (f : Router → Router) : (s.modRouter n f).cqStore = s.cqStore := rfl
@[simp] theorem State.modRouter_fetched (s : State) (n : Nat) (f : Router → Router) : (s.modRouter n f).fetched = s.fetched := rfl
@[simp] theorem State.modRouter_jbe (s : State) (n : Nat) (f : Router → Router) : (s.modRouter n f).jbe = s.jbe := rfl
@[simp] theorem State.modRouter_sqLast (s : State) (n : Nat) (f : Router → Router) : (s.modRouter n f).sqLast = s.sqLast := rfl
@[simp] theorem State.modRouter_cqRaised (s : State) (n : Nat) (f : Router → Router) : (s.modRouter n f).cqRaised = s.cqRaised := rfl
@[simp] theorem State.modRouter_endpoints (s : State) (n : Nat) (f : Router → Router) : (s.modRouter n f).endpoints = s.endpoints := rfl
@[simp] theorem State.modRouter_joins (s : State) (n : Nat) (f : Router → Router) : (s.modRouter n f).joins = s.joins := rfl
@[simp] theorem State.modRouter_idLocked (s : State) (n : Nat) (f : Router → Router) : (s.modRouter n f).idLocked = s.idLocked := rfl
@[simp] theorem State.modRouter_earlyJoins (s : State) (n : Nat) (f : Router → Router) : (s.modRouter n f).earlyJoins = s.earlyJoins := rfl
@[simp] theorem State.modRouter_tasks (s : State) (n : Nat) (f : Router → Router) : (s.modRouter n f).tasks = s.tasks := rfl
@[simp] theorem State.modRouter_taskRefusals (s : State) (n : Nat) (f : Router → Router) : (s.modRouter n f).taskRefusals = s.taskRefusals := rfl
@[simp] theorem State.modRouter_reports (s : State) (n : Nat) (f : Router → Router) : (s.modRouter n f).reports = s.reports := rfl
@[simp] theorem State.modRouter_log (s : State) (n : Nat) (f : Router → Router) : (s.modRouter n f).log = s.log := rfl
@[simp] theorem State.modRouter_events (s : State) (n : Nat) (f : Router → Router) : (s.modRouter n f).events = s.events := rfl
@[simp] theorem State.modRouter_rings (s : State) (n : Nat) (f : Router → Router) : (s.modRouter n f).rings = s.rings := rfl
@[simp] theorem State.modRouter_probes (s : State) (n : Nat) (f : Router → Router) : (s.modRouter n f).probes = s.probes := rfl
@[simp] theorem State.modRouter_retiring (s : State) (n : Nat) (f : Router → Router) : (s.modRouter n f).retiring = s.retiring := rfl
@[simp] theorem State.modRouter_detected (s : State) (n : Nat) (f : Router → Router) : (s.modRouter n f).detected = s.detected := rfl
@[simp] theorem State.modRouter_heldBack (s : State) (n : Nat) (f : Router → Router) : (s.modRouter n f).heldBack = s.heldBack := rfl
@[simp] theorem State.modRouter_asks (s : State) (n : Nat) (f : Router → Router) : (s.modRouter n f).asks = s.asks := rfl
@[simp] theorem State.modRouter_assists (s : State) (n : Nat) (f : Router → Router) : (s.modRouter n f).assists = s.assists := rfl
@[simp] theorem State.modRouter_acks (s : State) (n : Nat) (f : Router → Router) : (s.modRouter n f).acks = s.acks := rfl
@[simp] theorem State.modRouter_suspects (s : State) (n : Nat) (f : Router → Router) : (s.modRouter n f).suspects = s.suspects := rfl
@[simp] theorem State.modRouter_outbox (s : State) (n : Nat) (f : Router → Router) : (s.modRouter n f).outbox = s.outbox := rfl
@[simp] theorem State.modRouter_power (s : State) (n : Nat) (f : Router → Router) : (s.modRouter n f).power = s.power := rfl
@[simp] theorem State.modRouter_plant (s : State) (n : Nat) (f : Router → Router) : (s.modRouter n f).plant = s.plant := rfl
@[simp] theorem State.modRouter_tray (s : State) (n : Nat) (f : Router → Router) : (s.modRouter n f).tray = s.tray := rfl
@[simp] theorem State.modRouter_drains (s : State) (n : Nat) (f : Router → Router) : (s.modRouter n f).drains = s.drains := rfl
@[simp] theorem State.modRouter_pending (s : State) (n : Nat) (f : Router → Router) : (s.modRouter n f).pending = s.pending := rfl

/-! `State.setLane` changes `lanes` alone. -/

@[simp] theorem State.setLane_now (s : State) (node port lane : Nat) (l : FlitLane) : (s.setLane node port lane l).now = s.now := rfl
@[simp] theorem State.setLane_regs (s : State) (node port lane : Nat) (l : FlitLane) : (s.setLane node port lane l).regs = s.regs := rfl
@[simp] theorem State.setLane_mem (s : State) (node port lane : Nat) (l : FlitLane) : (s.setLane node port lane l).mem = s.mem := rfl
@[simp] theorem State.setLane_freeCount (s : State) (node port lane : Nat) (l : FlitLane) : (s.setLane node port lane l).freeCount = s.freeCount := rfl
@[simp] theorem State.setLane_master (s : State) (node port lane : Nat) (l : FlitLane) : (s.setLane node port lane l).master = s.master := rfl
@[simp] theorem State.setLane_fabricTime (s : State) (node port lane : Nat) (l : FlitLane) : (s.setLane node port lane l).fabricTime = s.fabricTime := rfl
@[simp] theorem State.setLane_fabric (s : State) (node port lane : Nat) (l : FlitLane) : (s.setLane node port lane l).fabric = s.fabric := rfl
@[simp] theorem State.setLane_outstanding (s : State) (node port lane : Nat) (l : FlitLane) : (s.setLane node port lane l).outstanding = s.outstanding := rfl
@[simp] theorem State.setLane_nextTxn (s : State) (node port lane : Nat) (l : FlitLane) : (s.setLane node port lane l).nextTxn = s.nextTxn := rfl
@[simp] theorem State.setLane_routers (s : State) (node port lane : Nat) (l : FlitLane) : (s.setLane node port lane l).routers = s.routers := rfl
@[simp] theorem State.setLane_bridges (s : State) (node port lane : Nat) (l : FlitLane) : (s.setLane node port lane l).bridges = s.bridges := rfl
@[simp] theorem State.setLane_changes (s : State) (node port lane : Nat) (l : FlitLane) : (s.setLane node port lane l).changes = s.changes := rfl
@[simp] theorem State.setLane_switching (s : State) (node port lane : Nat) (l : FlitLane) : (s.setLane node port lane l).switching = s.switching := rfl
@[simp] theorem State.setLane_pens (s : State) (node port lane : Nat) (l : FlitLane) : (s.setLane node port lane l).pens = s.pens := rfl
@[simp] theorem State.setLane_hefts (s : State) (node port lane : Nat) (l : FlitLane) : (s.setLane node port lane l).hefts = s.hefts := rfl
@[simp] theorem State.setLane_queues (s : State) (node port lane : Nat) (l : FlitLane) : (s.setLane node port lane l).queues = s.queues := rfl
@[simp] theorem State.setLane_forecasts (s : State) (node port lane : Nat) (l : FlitLane) : (s.setLane node port lane l).forecasts = s.forecasts := rfl
@[simp] theorem State.setLane_jobs (s : State) (node port lane : Nat) (l : FlitLane) : (s.setLane node port lane l).jobs = s.jobs := rfl
@[simp] theorem State.setLane_blocks (s : State) (node port lane : Nat) (l : FlitLane) : (s.setLane node port lane l).blocks = s.blocks := rfl
@[simp] theorem State.setLane_droves (s : State) (node port lane : Nat) (l : FlitLane) : (s.setLane node port lane l).droves = s.droves := rfl
@[simp] theorem State.setLane_links (s : State) (node port lane : Nat) (l : FlitLane) : (s.setLane node port lane l).links = s.links := rfl
@[simp] theorem State.setLane_proxies (s : State) (node port lane : Nat) (l : FlitLane) : (s.setLane node port lane l).proxies = s.proxies := rfl
@[simp] theorem State.setLane_penProxies (s : State) (node port lane : Nat) (l : FlitLane) : (s.setLane node port lane l).penProxies = s.penProxies := rfl
@[simp] theorem State.setLane_hbm (s : State) (node port lane : Nat) (l : FlitLane) : (s.setLane node port lane l).hbm = s.hbm := rfl
@[simp] theorem State.setLane_intake (s : State) (node port lane : Nat) (l : FlitLane) : (s.setLane node port lane l).intake = s.intake := rfl
@[simp] theorem State.setLane_cqStore (s : State) (node port lane : Nat) (l : FlitLane) : (s.setLane node port lane l).cqStore = s.cqStore := rfl
@[simp] theorem State.setLane_fetched (s : State) (node port lane : Nat) (l : FlitLane) : (s.setLane node port lane l).fetched = s.fetched := rfl
@[simp] theorem State.setLane_jbe (s : State) (node port lane : Nat) (l : FlitLane) : (s.setLane node port lane l).jbe = s.jbe := rfl
@[simp] theorem State.setLane_sqLast (s : State) (node port lane : Nat) (l : FlitLane) : (s.setLane node port lane l).sqLast = s.sqLast := rfl
@[simp] theorem State.setLane_cqRaised (s : State) (node port lane : Nat) (l : FlitLane) : (s.setLane node port lane l).cqRaised = s.cqRaised := rfl
@[simp] theorem State.setLane_endpoints (s : State) (node port lane : Nat) (l : FlitLane) : (s.setLane node port lane l).endpoints = s.endpoints := rfl
@[simp] theorem State.setLane_joins (s : State) (node port lane : Nat) (l : FlitLane) : (s.setLane node port lane l).joins = s.joins := rfl
@[simp] theorem State.setLane_idLocked (s : State) (node port lane : Nat) (l : FlitLane) : (s.setLane node port lane l).idLocked = s.idLocked := rfl
@[simp] theorem State.setLane_earlyJoins (s : State) (node port lane : Nat) (l : FlitLane) : (s.setLane node port lane l).earlyJoins = s.earlyJoins := rfl
@[simp] theorem State.setLane_tasks (s : State) (node port lane : Nat) (l : FlitLane) : (s.setLane node port lane l).tasks = s.tasks := rfl
@[simp] theorem State.setLane_taskRefusals (s : State) (node port lane : Nat) (l : FlitLane) : (s.setLane node port lane l).taskRefusals = s.taskRefusals := rfl
@[simp] theorem State.setLane_reports (s : State) (node port lane : Nat) (l : FlitLane) : (s.setLane node port lane l).reports = s.reports := rfl
@[simp] theorem State.setLane_log (s : State) (node port lane : Nat) (l : FlitLane) : (s.setLane node port lane l).log = s.log := rfl
@[simp] theorem State.setLane_events (s : State) (node port lane : Nat) (l : FlitLane) : (s.setLane node port lane l).events = s.events := rfl
@[simp] theorem State.setLane_rings (s : State) (node port lane : Nat) (l : FlitLane) : (s.setLane node port lane l).rings = s.rings := rfl
@[simp] theorem State.setLane_probes (s : State) (node port lane : Nat) (l : FlitLane) : (s.setLane node port lane l).probes = s.probes := rfl
@[simp] theorem State.setLane_retiring (s : State) (node port lane : Nat) (l : FlitLane) : (s.setLane node port lane l).retiring = s.retiring := rfl
@[simp] theorem State.setLane_detected (s : State) (node port lane : Nat) (l : FlitLane) : (s.setLane node port lane l).detected = s.detected := rfl
@[simp] theorem State.setLane_heldBack (s : State) (node port lane : Nat) (l : FlitLane) : (s.setLane node port lane l).heldBack = s.heldBack := rfl
@[simp] theorem State.setLane_asks (s : State) (node port lane : Nat) (l : FlitLane) : (s.setLane node port lane l).asks = s.asks := rfl
@[simp] theorem State.setLane_assists (s : State) (node port lane : Nat) (l : FlitLane) : (s.setLane node port lane l).assists = s.assists := rfl
@[simp] theorem State.setLane_acks (s : State) (node port lane : Nat) (l : FlitLane) : (s.setLane node port lane l).acks = s.acks := rfl
@[simp] theorem State.setLane_suspects (s : State) (node port lane : Nat) (l : FlitLane) : (s.setLane node port lane l).suspects = s.suspects := rfl
@[simp] theorem State.setLane_outbox (s : State) (node port lane : Nat) (l : FlitLane) : (s.setLane node port lane l).outbox = s.outbox := rfl
@[simp] theorem State.setLane_power (s : State) (node port lane : Nat) (l : FlitLane) : (s.setLane node port lane l).power = s.power := rfl
@[simp] theorem State.setLane_plant (s : State) (node port lane : Nat) (l : FlitLane) : (s.setLane node port lane l).plant = s.plant := rfl
@[simp] theorem State.setLane_tray (s : State) (node port lane : Nat) (l : FlitLane) : (s.setLane node port lane l).tray = s.tray := rfl
@[simp] theorem State.setLane_drains (s : State) (node port lane : Nat) (l : FlitLane) : (s.setLane node port lane l).drains = s.drains := rfl
@[simp] theorem State.setLane_pending (s : State) (node port lane : Nat) (l : FlitLane) : (s.setLane node port lane l).pending = s.pending := rfl

/-! `State.setBridge` changes `bridges` alone. -/

@[simp] theorem State.setBridge_now (s : State) (node port : Nat) (b : BridgeDir) : (s.setBridge node port b).now = s.now := rfl
@[simp] theorem State.setBridge_regs (s : State) (node port : Nat) (b : BridgeDir) : (s.setBridge node port b).regs = s.regs := rfl
@[simp] theorem State.setBridge_mem (s : State) (node port : Nat) (b : BridgeDir) : (s.setBridge node port b).mem = s.mem := rfl
@[simp] theorem State.setBridge_freeCount (s : State) (node port : Nat) (b : BridgeDir) : (s.setBridge node port b).freeCount = s.freeCount := rfl
@[simp] theorem State.setBridge_master (s : State) (node port : Nat) (b : BridgeDir) : (s.setBridge node port b).master = s.master := rfl
@[simp] theorem State.setBridge_fabricTime (s : State) (node port : Nat) (b : BridgeDir) : (s.setBridge node port b).fabricTime = s.fabricTime := rfl
@[simp] theorem State.setBridge_fabric (s : State) (node port : Nat) (b : BridgeDir) : (s.setBridge node port b).fabric = s.fabric := rfl
@[simp] theorem State.setBridge_outstanding (s : State) (node port : Nat) (b : BridgeDir) : (s.setBridge node port b).outstanding = s.outstanding := rfl
@[simp] theorem State.setBridge_nextTxn (s : State) (node port : Nat) (b : BridgeDir) : (s.setBridge node port b).nextTxn = s.nextTxn := rfl
@[simp] theorem State.setBridge_routers (s : State) (node port : Nat) (b : BridgeDir) : (s.setBridge node port b).routers = s.routers := rfl
@[simp] theorem State.setBridge_lanes (s : State) (node port : Nat) (b : BridgeDir) : (s.setBridge node port b).lanes = s.lanes := rfl
@[simp] theorem State.setBridge_changes (s : State) (node port : Nat) (b : BridgeDir) : (s.setBridge node port b).changes = s.changes := rfl
@[simp] theorem State.setBridge_switching (s : State) (node port : Nat) (b : BridgeDir) : (s.setBridge node port b).switching = s.switching := rfl
@[simp] theorem State.setBridge_pens (s : State) (node port : Nat) (b : BridgeDir) : (s.setBridge node port b).pens = s.pens := rfl
@[simp] theorem State.setBridge_hefts (s : State) (node port : Nat) (b : BridgeDir) : (s.setBridge node port b).hefts = s.hefts := rfl
@[simp] theorem State.setBridge_queues (s : State) (node port : Nat) (b : BridgeDir) : (s.setBridge node port b).queues = s.queues := rfl
@[simp] theorem State.setBridge_forecasts (s : State) (node port : Nat) (b : BridgeDir) : (s.setBridge node port b).forecasts = s.forecasts := rfl
@[simp] theorem State.setBridge_jobs (s : State) (node port : Nat) (b : BridgeDir) : (s.setBridge node port b).jobs = s.jobs := rfl
@[simp] theorem State.setBridge_blocks (s : State) (node port : Nat) (b : BridgeDir) : (s.setBridge node port b).blocks = s.blocks := rfl
@[simp] theorem State.setBridge_droves (s : State) (node port : Nat) (b : BridgeDir) : (s.setBridge node port b).droves = s.droves := rfl
@[simp] theorem State.setBridge_links (s : State) (node port : Nat) (b : BridgeDir) : (s.setBridge node port b).links = s.links := rfl
@[simp] theorem State.setBridge_proxies (s : State) (node port : Nat) (b : BridgeDir) : (s.setBridge node port b).proxies = s.proxies := rfl
@[simp] theorem State.setBridge_penProxies (s : State) (node port : Nat) (b : BridgeDir) : (s.setBridge node port b).penProxies = s.penProxies := rfl
@[simp] theorem State.setBridge_hbm (s : State) (node port : Nat) (b : BridgeDir) : (s.setBridge node port b).hbm = s.hbm := rfl
@[simp] theorem State.setBridge_intake (s : State) (node port : Nat) (b : BridgeDir) : (s.setBridge node port b).intake = s.intake := rfl
@[simp] theorem State.setBridge_cqStore (s : State) (node port : Nat) (b : BridgeDir) : (s.setBridge node port b).cqStore = s.cqStore := rfl
@[simp] theorem State.setBridge_fetched (s : State) (node port : Nat) (b : BridgeDir) : (s.setBridge node port b).fetched = s.fetched := rfl
@[simp] theorem State.setBridge_jbe (s : State) (node port : Nat) (b : BridgeDir) : (s.setBridge node port b).jbe = s.jbe := rfl
@[simp] theorem State.setBridge_sqLast (s : State) (node port : Nat) (b : BridgeDir) : (s.setBridge node port b).sqLast = s.sqLast := rfl
@[simp] theorem State.setBridge_cqRaised (s : State) (node port : Nat) (b : BridgeDir) : (s.setBridge node port b).cqRaised = s.cqRaised := rfl
@[simp] theorem State.setBridge_endpoints (s : State) (node port : Nat) (b : BridgeDir) : (s.setBridge node port b).endpoints = s.endpoints := rfl
@[simp] theorem State.setBridge_joins (s : State) (node port : Nat) (b : BridgeDir) : (s.setBridge node port b).joins = s.joins := rfl
@[simp] theorem State.setBridge_idLocked (s : State) (node port : Nat) (b : BridgeDir) : (s.setBridge node port b).idLocked = s.idLocked := rfl
@[simp] theorem State.setBridge_earlyJoins (s : State) (node port : Nat) (b : BridgeDir) : (s.setBridge node port b).earlyJoins = s.earlyJoins := rfl
@[simp] theorem State.setBridge_tasks (s : State) (node port : Nat) (b : BridgeDir) : (s.setBridge node port b).tasks = s.tasks := rfl
@[simp] theorem State.setBridge_taskRefusals (s : State) (node port : Nat) (b : BridgeDir) : (s.setBridge node port b).taskRefusals = s.taskRefusals := rfl
@[simp] theorem State.setBridge_reports (s : State) (node port : Nat) (b : BridgeDir) : (s.setBridge node port b).reports = s.reports := rfl
@[simp] theorem State.setBridge_log (s : State) (node port : Nat) (b : BridgeDir) : (s.setBridge node port b).log = s.log := rfl
@[simp] theorem State.setBridge_events (s : State) (node port : Nat) (b : BridgeDir) : (s.setBridge node port b).events = s.events := rfl
@[simp] theorem State.setBridge_rings (s : State) (node port : Nat) (b : BridgeDir) : (s.setBridge node port b).rings = s.rings := rfl
@[simp] theorem State.setBridge_probes (s : State) (node port : Nat) (b : BridgeDir) : (s.setBridge node port b).probes = s.probes := rfl
@[simp] theorem State.setBridge_retiring (s : State) (node port : Nat) (b : BridgeDir) : (s.setBridge node port b).retiring = s.retiring := rfl
@[simp] theorem State.setBridge_detected (s : State) (node port : Nat) (b : BridgeDir) : (s.setBridge node port b).detected = s.detected := rfl
@[simp] theorem State.setBridge_heldBack (s : State) (node port : Nat) (b : BridgeDir) : (s.setBridge node port b).heldBack = s.heldBack := rfl
@[simp] theorem State.setBridge_asks (s : State) (node port : Nat) (b : BridgeDir) : (s.setBridge node port b).asks = s.asks := rfl
@[simp] theorem State.setBridge_assists (s : State) (node port : Nat) (b : BridgeDir) : (s.setBridge node port b).assists = s.assists := rfl
@[simp] theorem State.setBridge_acks (s : State) (node port : Nat) (b : BridgeDir) : (s.setBridge node port b).acks = s.acks := rfl
@[simp] theorem State.setBridge_suspects (s : State) (node port : Nat) (b : BridgeDir) : (s.setBridge node port b).suspects = s.suspects := rfl
@[simp] theorem State.setBridge_outbox (s : State) (node port : Nat) (b : BridgeDir) : (s.setBridge node port b).outbox = s.outbox := rfl
@[simp] theorem State.setBridge_power (s : State) (node port : Nat) (b : BridgeDir) : (s.setBridge node port b).power = s.power := rfl
@[simp] theorem State.setBridge_plant (s : State) (node port : Nat) (b : BridgeDir) : (s.setBridge node port b).plant = s.plant := rfl
@[simp] theorem State.setBridge_tray (s : State) (node port : Nat) (b : BridgeDir) : (s.setBridge node port b).tray = s.tray := rfl
@[simp] theorem State.setBridge_drains (s : State) (node port : Nat) (b : BridgeDir) : (s.setBridge node port b).drains = s.drains := rfl
@[simp] theorem State.setBridge_pending (s : State) (node port : Nat) (b : BridgeDir) : (s.setBridge node port b).pending = s.pending := rfl

/-! `State.send` changes `routers` alone. -/

@[simp] theorem State.send_now (s : State) (p : Packet) : (s.send p).now = s.now := rfl
@[simp] theorem State.send_regs (s : State) (p : Packet) : (s.send p).regs = s.regs := rfl
@[simp] theorem State.send_mem (s : State) (p : Packet) : (s.send p).mem = s.mem := rfl
@[simp] theorem State.send_freeCount (s : State) (p : Packet) : (s.send p).freeCount = s.freeCount := rfl
@[simp] theorem State.send_master (s : State) (p : Packet) : (s.send p).master = s.master := rfl
@[simp] theorem State.send_fabricTime (s : State) (p : Packet) : (s.send p).fabricTime = s.fabricTime := rfl
@[simp] theorem State.send_fabric (s : State) (p : Packet) : (s.send p).fabric = s.fabric := rfl
@[simp] theorem State.send_outstanding (s : State) (p : Packet) : (s.send p).outstanding = s.outstanding := rfl
@[simp] theorem State.send_nextTxn (s : State) (p : Packet) : (s.send p).nextTxn = s.nextTxn := rfl
@[simp] theorem State.send_bridges (s : State) (p : Packet) : (s.send p).bridges = s.bridges := rfl
@[simp] theorem State.send_lanes (s : State) (p : Packet) : (s.send p).lanes = s.lanes := rfl
@[simp] theorem State.send_changes (s : State) (p : Packet) : (s.send p).changes = s.changes := rfl
@[simp] theorem State.send_switching (s : State) (p : Packet) : (s.send p).switching = s.switching := rfl
@[simp] theorem State.send_pens (s : State) (p : Packet) : (s.send p).pens = s.pens := rfl
@[simp] theorem State.send_hefts (s : State) (p : Packet) : (s.send p).hefts = s.hefts := rfl
@[simp] theorem State.send_queues (s : State) (p : Packet) : (s.send p).queues = s.queues := rfl
@[simp] theorem State.send_forecasts (s : State) (p : Packet) : (s.send p).forecasts = s.forecasts := rfl
@[simp] theorem State.send_jobs (s : State) (p : Packet) : (s.send p).jobs = s.jobs := rfl
@[simp] theorem State.send_blocks (s : State) (p : Packet) : (s.send p).blocks = s.blocks := rfl
@[simp] theorem State.send_droves (s : State) (p : Packet) : (s.send p).droves = s.droves := rfl
@[simp] theorem State.send_links (s : State) (p : Packet) : (s.send p).links = s.links := rfl
@[simp] theorem State.send_proxies (s : State) (p : Packet) : (s.send p).proxies = s.proxies := rfl
@[simp] theorem State.send_penProxies (s : State) (p : Packet) : (s.send p).penProxies = s.penProxies := rfl
@[simp] theorem State.send_hbm (s : State) (p : Packet) : (s.send p).hbm = s.hbm := rfl
@[simp] theorem State.send_intake (s : State) (p : Packet) : (s.send p).intake = s.intake := rfl
@[simp] theorem State.send_cqStore (s : State) (p : Packet) : (s.send p).cqStore = s.cqStore := rfl
@[simp] theorem State.send_fetched (s : State) (p : Packet) : (s.send p).fetched = s.fetched := rfl
@[simp] theorem State.send_jbe (s : State) (p : Packet) : (s.send p).jbe = s.jbe := rfl
@[simp] theorem State.send_sqLast (s : State) (p : Packet) : (s.send p).sqLast = s.sqLast := rfl
@[simp] theorem State.send_cqRaised (s : State) (p : Packet) : (s.send p).cqRaised = s.cqRaised := rfl
@[simp] theorem State.send_endpoints (s : State) (p : Packet) : (s.send p).endpoints = s.endpoints := rfl
@[simp] theorem State.send_joins (s : State) (p : Packet) : (s.send p).joins = s.joins := rfl
@[simp] theorem State.send_idLocked (s : State) (p : Packet) : (s.send p).idLocked = s.idLocked := rfl
@[simp] theorem State.send_earlyJoins (s : State) (p : Packet) : (s.send p).earlyJoins = s.earlyJoins := rfl
@[simp] theorem State.send_tasks (s : State) (p : Packet) : (s.send p).tasks = s.tasks := rfl
@[simp] theorem State.send_taskRefusals (s : State) (p : Packet) : (s.send p).taskRefusals = s.taskRefusals := rfl
@[simp] theorem State.send_reports (s : State) (p : Packet) : (s.send p).reports = s.reports := rfl
@[simp] theorem State.send_log (s : State) (p : Packet) : (s.send p).log = s.log := rfl
@[simp] theorem State.send_events (s : State) (p : Packet) : (s.send p).events = s.events := rfl
@[simp] theorem State.send_rings (s : State) (p : Packet) : (s.send p).rings = s.rings := rfl
@[simp] theorem State.send_probes (s : State) (p : Packet) : (s.send p).probes = s.probes := rfl
@[simp] theorem State.send_retiring (s : State) (p : Packet) : (s.send p).retiring = s.retiring := rfl
@[simp] theorem State.send_detected (s : State) (p : Packet) : (s.send p).detected = s.detected := rfl
@[simp] theorem State.send_heldBack (s : State) (p : Packet) : (s.send p).heldBack = s.heldBack := rfl
@[simp] theorem State.send_asks (s : State) (p : Packet) : (s.send p).asks = s.asks := rfl
@[simp] theorem State.send_assists (s : State) (p : Packet) : (s.send p).assists = s.assists := rfl
@[simp] theorem State.send_acks (s : State) (p : Packet) : (s.send p).acks = s.acks := rfl
@[simp] theorem State.send_suspects (s : State) (p : Packet) : (s.send p).suspects = s.suspects := rfl
@[simp] theorem State.send_outbox (s : State) (p : Packet) : (s.send p).outbox = s.outbox := rfl
@[simp] theorem State.send_power (s : State) (p : Packet) : (s.send p).power = s.power := rfl
@[simp] theorem State.send_plant (s : State) (p : Packet) : (s.send p).plant = s.plant := rfl
@[simp] theorem State.send_tray (s : State) (p : Packet) : (s.send p).tray = s.tray := rfl
@[simp] theorem State.send_drains (s : State) (p : Packet) : (s.send p).drains = s.drains := rfl
@[simp] theorem State.send_pending (s : State) (p : Packet) : (s.send p).pending = s.pending := rfl

/-! `State.deliver` changes `fabric` alone. -/

@[simp] theorem State.deliver_now (s : State) (p : Packet) : (s.deliver p).now = s.now := rfl
@[simp] theorem State.deliver_regs (s : State) (p : Packet) : (s.deliver p).regs = s.regs := rfl
@[simp] theorem State.deliver_mem (s : State) (p : Packet) : (s.deliver p).mem = s.mem := rfl
@[simp] theorem State.deliver_freeCount (s : State) (p : Packet) : (s.deliver p).freeCount = s.freeCount := rfl
@[simp] theorem State.deliver_master (s : State) (p : Packet) : (s.deliver p).master = s.master := rfl
@[simp] theorem State.deliver_fabricTime (s : State) (p : Packet) : (s.deliver p).fabricTime = s.fabricTime := rfl
@[simp] theorem State.deliver_outstanding (s : State) (p : Packet) : (s.deliver p).outstanding = s.outstanding := rfl
@[simp] theorem State.deliver_nextTxn (s : State) (p : Packet) : (s.deliver p).nextTxn = s.nextTxn := rfl
@[simp] theorem State.deliver_routers (s : State) (p : Packet) : (s.deliver p).routers = s.routers := rfl
@[simp] theorem State.deliver_bridges (s : State) (p : Packet) : (s.deliver p).bridges = s.bridges := rfl
@[simp] theorem State.deliver_lanes (s : State) (p : Packet) : (s.deliver p).lanes = s.lanes := rfl
@[simp] theorem State.deliver_changes (s : State) (p : Packet) : (s.deliver p).changes = s.changes := rfl
@[simp] theorem State.deliver_switching (s : State) (p : Packet) : (s.deliver p).switching = s.switching := rfl
@[simp] theorem State.deliver_pens (s : State) (p : Packet) : (s.deliver p).pens = s.pens := rfl
@[simp] theorem State.deliver_hefts (s : State) (p : Packet) : (s.deliver p).hefts = s.hefts := rfl
@[simp] theorem State.deliver_queues (s : State) (p : Packet) : (s.deliver p).queues = s.queues := rfl
@[simp] theorem State.deliver_forecasts (s : State) (p : Packet) : (s.deliver p).forecasts = s.forecasts := rfl
@[simp] theorem State.deliver_jobs (s : State) (p : Packet) : (s.deliver p).jobs = s.jobs := rfl
@[simp] theorem State.deliver_blocks (s : State) (p : Packet) : (s.deliver p).blocks = s.blocks := rfl
@[simp] theorem State.deliver_droves (s : State) (p : Packet) : (s.deliver p).droves = s.droves := rfl
@[simp] theorem State.deliver_links (s : State) (p : Packet) : (s.deliver p).links = s.links := rfl
@[simp] theorem State.deliver_proxies (s : State) (p : Packet) : (s.deliver p).proxies = s.proxies := rfl
@[simp] theorem State.deliver_penProxies (s : State) (p : Packet) : (s.deliver p).penProxies = s.penProxies := rfl
@[simp] theorem State.deliver_hbm (s : State) (p : Packet) : (s.deliver p).hbm = s.hbm := rfl
@[simp] theorem State.deliver_intake (s : State) (p : Packet) : (s.deliver p).intake = s.intake := rfl
@[simp] theorem State.deliver_cqStore (s : State) (p : Packet) : (s.deliver p).cqStore = s.cqStore := rfl
@[simp] theorem State.deliver_fetched (s : State) (p : Packet) : (s.deliver p).fetched = s.fetched := rfl
@[simp] theorem State.deliver_jbe (s : State) (p : Packet) : (s.deliver p).jbe = s.jbe := rfl
@[simp] theorem State.deliver_sqLast (s : State) (p : Packet) : (s.deliver p).sqLast = s.sqLast := rfl
@[simp] theorem State.deliver_cqRaised (s : State) (p : Packet) : (s.deliver p).cqRaised = s.cqRaised := rfl
@[simp] theorem State.deliver_endpoints (s : State) (p : Packet) : (s.deliver p).endpoints = s.endpoints := rfl
@[simp] theorem State.deliver_joins (s : State) (p : Packet) : (s.deliver p).joins = s.joins := rfl
@[simp] theorem State.deliver_idLocked (s : State) (p : Packet) : (s.deliver p).idLocked = s.idLocked := rfl
@[simp] theorem State.deliver_earlyJoins (s : State) (p : Packet) : (s.deliver p).earlyJoins = s.earlyJoins := rfl
@[simp] theorem State.deliver_tasks (s : State) (p : Packet) : (s.deliver p).tasks = s.tasks := rfl
@[simp] theorem State.deliver_taskRefusals (s : State) (p : Packet) : (s.deliver p).taskRefusals = s.taskRefusals := rfl
@[simp] theorem State.deliver_reports (s : State) (p : Packet) : (s.deliver p).reports = s.reports := rfl
@[simp] theorem State.deliver_log (s : State) (p : Packet) : (s.deliver p).log = s.log := rfl
@[simp] theorem State.deliver_events (s : State) (p : Packet) : (s.deliver p).events = s.events := rfl
@[simp] theorem State.deliver_rings (s : State) (p : Packet) : (s.deliver p).rings = s.rings := rfl
@[simp] theorem State.deliver_probes (s : State) (p : Packet) : (s.deliver p).probes = s.probes := rfl
@[simp] theorem State.deliver_retiring (s : State) (p : Packet) : (s.deliver p).retiring = s.retiring := rfl
@[simp] theorem State.deliver_detected (s : State) (p : Packet) : (s.deliver p).detected = s.detected := rfl
@[simp] theorem State.deliver_heldBack (s : State) (p : Packet) : (s.deliver p).heldBack = s.heldBack := rfl
@[simp] theorem State.deliver_asks (s : State) (p : Packet) : (s.deliver p).asks = s.asks := rfl
@[simp] theorem State.deliver_assists (s : State) (p : Packet) : (s.deliver p).assists = s.assists := rfl
@[simp] theorem State.deliver_acks (s : State) (p : Packet) : (s.deliver p).acks = s.acks := rfl
@[simp] theorem State.deliver_suspects (s : State) (p : Packet) : (s.deliver p).suspects = s.suspects := rfl
@[simp] theorem State.deliver_outbox (s : State) (p : Packet) : (s.deliver p).outbox = s.outbox := rfl
@[simp] theorem State.deliver_power (s : State) (p : Packet) : (s.deliver p).power = s.power := rfl
@[simp] theorem State.deliver_plant (s : State) (p : Packet) : (s.deliver p).plant = s.plant := rfl
@[simp] theorem State.deliver_tray (s : State) (p : Packet) : (s.deliver p).tray = s.tray := rfl
@[simp] theorem State.deliver_drains (s : State) (p : Packet) : (s.deliver p).drains = s.drains := rfl
@[simp] theorem State.deliver_pending (s : State) (p : Packet) : (s.deliver p).pending = s.pending := rfl

/-! `State.take` changes `fabric` alone. -/

@[simp] theorem State.take_now (s : State) (p : Packet) : (s.take p).now = s.now := rfl
@[simp] theorem State.take_regs (s : State) (p : Packet) : (s.take p).regs = s.regs := rfl
@[simp] theorem State.take_mem (s : State) (p : Packet) : (s.take p).mem = s.mem := rfl
@[simp] theorem State.take_freeCount (s : State) (p : Packet) : (s.take p).freeCount = s.freeCount := rfl
@[simp] theorem State.take_master (s : State) (p : Packet) : (s.take p).master = s.master := rfl
@[simp] theorem State.take_fabricTime (s : State) (p : Packet) : (s.take p).fabricTime = s.fabricTime := rfl
@[simp] theorem State.take_outstanding (s : State) (p : Packet) : (s.take p).outstanding = s.outstanding := rfl
@[simp] theorem State.take_nextTxn (s : State) (p : Packet) : (s.take p).nextTxn = s.nextTxn := rfl
@[simp] theorem State.take_routers (s : State) (p : Packet) : (s.take p).routers = s.routers := rfl
@[simp] theorem State.take_bridges (s : State) (p : Packet) : (s.take p).bridges = s.bridges := rfl
@[simp] theorem State.take_lanes (s : State) (p : Packet) : (s.take p).lanes = s.lanes := rfl
@[simp] theorem State.take_changes (s : State) (p : Packet) : (s.take p).changes = s.changes := rfl
@[simp] theorem State.take_switching (s : State) (p : Packet) : (s.take p).switching = s.switching := rfl
@[simp] theorem State.take_pens (s : State) (p : Packet) : (s.take p).pens = s.pens := rfl
@[simp] theorem State.take_hefts (s : State) (p : Packet) : (s.take p).hefts = s.hefts := rfl
@[simp] theorem State.take_queues (s : State) (p : Packet) : (s.take p).queues = s.queues := rfl
@[simp] theorem State.take_forecasts (s : State) (p : Packet) : (s.take p).forecasts = s.forecasts := rfl
@[simp] theorem State.take_jobs (s : State) (p : Packet) : (s.take p).jobs = s.jobs := rfl
@[simp] theorem State.take_blocks (s : State) (p : Packet) : (s.take p).blocks = s.blocks := rfl
@[simp] theorem State.take_droves (s : State) (p : Packet) : (s.take p).droves = s.droves := rfl
@[simp] theorem State.take_links (s : State) (p : Packet) : (s.take p).links = s.links := rfl
@[simp] theorem State.take_proxies (s : State) (p : Packet) : (s.take p).proxies = s.proxies := rfl
@[simp] theorem State.take_penProxies (s : State) (p : Packet) : (s.take p).penProxies = s.penProxies := rfl
@[simp] theorem State.take_hbm (s : State) (p : Packet) : (s.take p).hbm = s.hbm := rfl
@[simp] theorem State.take_intake (s : State) (p : Packet) : (s.take p).intake = s.intake := rfl
@[simp] theorem State.take_cqStore (s : State) (p : Packet) : (s.take p).cqStore = s.cqStore := rfl
@[simp] theorem State.take_fetched (s : State) (p : Packet) : (s.take p).fetched = s.fetched := rfl
@[simp] theorem State.take_jbe (s : State) (p : Packet) : (s.take p).jbe = s.jbe := rfl
@[simp] theorem State.take_sqLast (s : State) (p : Packet) : (s.take p).sqLast = s.sqLast := rfl
@[simp] theorem State.take_cqRaised (s : State) (p : Packet) : (s.take p).cqRaised = s.cqRaised := rfl
@[simp] theorem State.take_endpoints (s : State) (p : Packet) : (s.take p).endpoints = s.endpoints := rfl
@[simp] theorem State.take_joins (s : State) (p : Packet) : (s.take p).joins = s.joins := rfl
@[simp] theorem State.take_idLocked (s : State) (p : Packet) : (s.take p).idLocked = s.idLocked := rfl
@[simp] theorem State.take_earlyJoins (s : State) (p : Packet) : (s.take p).earlyJoins = s.earlyJoins := rfl
@[simp] theorem State.take_tasks (s : State) (p : Packet) : (s.take p).tasks = s.tasks := rfl
@[simp] theorem State.take_taskRefusals (s : State) (p : Packet) : (s.take p).taskRefusals = s.taskRefusals := rfl
@[simp] theorem State.take_reports (s : State) (p : Packet) : (s.take p).reports = s.reports := rfl
@[simp] theorem State.take_log (s : State) (p : Packet) : (s.take p).log = s.log := rfl
@[simp] theorem State.take_events (s : State) (p : Packet) : (s.take p).events = s.events := rfl
@[simp] theorem State.take_rings (s : State) (p : Packet) : (s.take p).rings = s.rings := rfl
@[simp] theorem State.take_probes (s : State) (p : Packet) : (s.take p).probes = s.probes := rfl
@[simp] theorem State.take_retiring (s : State) (p : Packet) : (s.take p).retiring = s.retiring := rfl
@[simp] theorem State.take_detected (s : State) (p : Packet) : (s.take p).detected = s.detected := rfl
@[simp] theorem State.take_heldBack (s : State) (p : Packet) : (s.take p).heldBack = s.heldBack := rfl
@[simp] theorem State.take_asks (s : State) (p : Packet) : (s.take p).asks = s.asks := rfl
@[simp] theorem State.take_assists (s : State) (p : Packet) : (s.take p).assists = s.assists := rfl
@[simp] theorem State.take_acks (s : State) (p : Packet) : (s.take p).acks = s.acks := rfl
@[simp] theorem State.take_suspects (s : State) (p : Packet) : (s.take p).suspects = s.suspects := rfl
@[simp] theorem State.take_outbox (s : State) (p : Packet) : (s.take p).outbox = s.outbox := rfl
@[simp] theorem State.take_power (s : State) (p : Packet) : (s.take p).power = s.power := rfl
@[simp] theorem State.take_plant (s : State) (p : Packet) : (s.take p).plant = s.plant := rfl
@[simp] theorem State.take_tray (s : State) (p : Packet) : (s.take p).tray = s.tray := rfl
@[simp] theorem State.take_drains (s : State) (p : Packet) : (s.take p).drains = s.drains := rfl
@[simp] theorem State.take_pending (s : State) (p : Packet) : (s.take p).pending = s.pending := rfl

/-! `State.modEndpoint` changes `endpoints` alone. -/

@[simp] theorem State.modEndpoint_now (s : State) (hub : Nat) (f : Endpoint → Endpoint) : (s.modEndpoint hub f).now = s.now := rfl
@[simp] theorem State.modEndpoint_regs (s : State) (hub : Nat) (f : Endpoint → Endpoint) : (s.modEndpoint hub f).regs = s.regs := rfl
@[simp] theorem State.modEndpoint_mem (s : State) (hub : Nat) (f : Endpoint → Endpoint) : (s.modEndpoint hub f).mem = s.mem := rfl
@[simp] theorem State.modEndpoint_freeCount (s : State) (hub : Nat) (f : Endpoint → Endpoint) : (s.modEndpoint hub f).freeCount = s.freeCount := rfl
@[simp] theorem State.modEndpoint_master (s : State) (hub : Nat) (f : Endpoint → Endpoint) : (s.modEndpoint hub f).master = s.master := rfl
@[simp] theorem State.modEndpoint_fabricTime (s : State) (hub : Nat) (f : Endpoint → Endpoint) : (s.modEndpoint hub f).fabricTime = s.fabricTime := rfl
@[simp] theorem State.modEndpoint_fabric (s : State) (hub : Nat) (f : Endpoint → Endpoint) : (s.modEndpoint hub f).fabric = s.fabric := rfl
@[simp] theorem State.modEndpoint_outstanding (s : State) (hub : Nat) (f : Endpoint → Endpoint) : (s.modEndpoint hub f).outstanding = s.outstanding := rfl
@[simp] theorem State.modEndpoint_nextTxn (s : State) (hub : Nat) (f : Endpoint → Endpoint) : (s.modEndpoint hub f).nextTxn = s.nextTxn := rfl
@[simp] theorem State.modEndpoint_routers (s : State) (hub : Nat) (f : Endpoint → Endpoint) : (s.modEndpoint hub f).routers = s.routers := rfl
@[simp] theorem State.modEndpoint_bridges (s : State) (hub : Nat) (f : Endpoint → Endpoint) : (s.modEndpoint hub f).bridges = s.bridges := rfl
@[simp] theorem State.modEndpoint_lanes (s : State) (hub : Nat) (f : Endpoint → Endpoint) : (s.modEndpoint hub f).lanes = s.lanes := rfl
@[simp] theorem State.modEndpoint_changes (s : State) (hub : Nat) (f : Endpoint → Endpoint) : (s.modEndpoint hub f).changes = s.changes := rfl
@[simp] theorem State.modEndpoint_switching (s : State) (hub : Nat) (f : Endpoint → Endpoint) : (s.modEndpoint hub f).switching = s.switching := rfl
@[simp] theorem State.modEndpoint_pens (s : State) (hub : Nat) (f : Endpoint → Endpoint) : (s.modEndpoint hub f).pens = s.pens := rfl
@[simp] theorem State.modEndpoint_hefts (s : State) (hub : Nat) (f : Endpoint → Endpoint) : (s.modEndpoint hub f).hefts = s.hefts := rfl
@[simp] theorem State.modEndpoint_queues (s : State) (hub : Nat) (f : Endpoint → Endpoint) : (s.modEndpoint hub f).queues = s.queues := rfl
@[simp] theorem State.modEndpoint_forecasts (s : State) (hub : Nat) (f : Endpoint → Endpoint) : (s.modEndpoint hub f).forecasts = s.forecasts := rfl
@[simp] theorem State.modEndpoint_jobs (s : State) (hub : Nat) (f : Endpoint → Endpoint) : (s.modEndpoint hub f).jobs = s.jobs := rfl
@[simp] theorem State.modEndpoint_blocks (s : State) (hub : Nat) (f : Endpoint → Endpoint) : (s.modEndpoint hub f).blocks = s.blocks := rfl
@[simp] theorem State.modEndpoint_droves (s : State) (hub : Nat) (f : Endpoint → Endpoint) : (s.modEndpoint hub f).droves = s.droves := rfl
@[simp] theorem State.modEndpoint_links (s : State) (hub : Nat) (f : Endpoint → Endpoint) : (s.modEndpoint hub f).links = s.links := rfl
@[simp] theorem State.modEndpoint_proxies (s : State) (hub : Nat) (f : Endpoint → Endpoint) : (s.modEndpoint hub f).proxies = s.proxies := rfl
@[simp] theorem State.modEndpoint_penProxies (s : State) (hub : Nat) (f : Endpoint → Endpoint) : (s.modEndpoint hub f).penProxies = s.penProxies := rfl
@[simp] theorem State.modEndpoint_hbm (s : State) (hub : Nat) (f : Endpoint → Endpoint) : (s.modEndpoint hub f).hbm = s.hbm := rfl
@[simp] theorem State.modEndpoint_intake (s : State) (hub : Nat) (f : Endpoint → Endpoint) : (s.modEndpoint hub f).intake = s.intake := rfl
@[simp] theorem State.modEndpoint_cqStore (s : State) (hub : Nat) (f : Endpoint → Endpoint) : (s.modEndpoint hub f).cqStore = s.cqStore := rfl
@[simp] theorem State.modEndpoint_fetched (s : State) (hub : Nat) (f : Endpoint → Endpoint) : (s.modEndpoint hub f).fetched = s.fetched := rfl
@[simp] theorem State.modEndpoint_jbe (s : State) (hub : Nat) (f : Endpoint → Endpoint) : (s.modEndpoint hub f).jbe = s.jbe := rfl
@[simp] theorem State.modEndpoint_sqLast (s : State) (hub : Nat) (f : Endpoint → Endpoint) : (s.modEndpoint hub f).sqLast = s.sqLast := rfl
@[simp] theorem State.modEndpoint_cqRaised (s : State) (hub : Nat) (f : Endpoint → Endpoint) : (s.modEndpoint hub f).cqRaised = s.cqRaised := rfl
@[simp] theorem State.modEndpoint_joins (s : State) (hub : Nat) (f : Endpoint → Endpoint) : (s.modEndpoint hub f).joins = s.joins := rfl
@[simp] theorem State.modEndpoint_idLocked (s : State) (hub : Nat) (f : Endpoint → Endpoint) : (s.modEndpoint hub f).idLocked = s.idLocked := rfl
@[simp] theorem State.modEndpoint_earlyJoins (s : State) (hub : Nat) (f : Endpoint → Endpoint) : (s.modEndpoint hub f).earlyJoins = s.earlyJoins := rfl
@[simp] theorem State.modEndpoint_tasks (s : State) (hub : Nat) (f : Endpoint → Endpoint) : (s.modEndpoint hub f).tasks = s.tasks := rfl
@[simp] theorem State.modEndpoint_taskRefusals (s : State) (hub : Nat) (f : Endpoint → Endpoint) : (s.modEndpoint hub f).taskRefusals = s.taskRefusals := rfl
@[simp] theorem State.modEndpoint_reports (s : State) (hub : Nat) (f : Endpoint → Endpoint) : (s.modEndpoint hub f).reports = s.reports := rfl
@[simp] theorem State.modEndpoint_log (s : State) (hub : Nat) (f : Endpoint → Endpoint) : (s.modEndpoint hub f).log = s.log := rfl
@[simp] theorem State.modEndpoint_events (s : State) (hub : Nat) (f : Endpoint → Endpoint) : (s.modEndpoint hub f).events = s.events := rfl
@[simp] theorem State.modEndpoint_rings (s : State) (hub : Nat) (f : Endpoint → Endpoint) : (s.modEndpoint hub f).rings = s.rings := rfl
@[simp] theorem State.modEndpoint_probes (s : State) (hub : Nat) (f : Endpoint → Endpoint) : (s.modEndpoint hub f).probes = s.probes := rfl
@[simp] theorem State.modEndpoint_retiring (s : State) (hub : Nat) (f : Endpoint → Endpoint) : (s.modEndpoint hub f).retiring = s.retiring := rfl
@[simp] theorem State.modEndpoint_detected (s : State) (hub : Nat) (f : Endpoint → Endpoint) : (s.modEndpoint hub f).detected = s.detected := rfl
@[simp] theorem State.modEndpoint_heldBack (s : State) (hub : Nat) (f : Endpoint → Endpoint) : (s.modEndpoint hub f).heldBack = s.heldBack := rfl
@[simp] theorem State.modEndpoint_asks (s : State) (hub : Nat) (f : Endpoint → Endpoint) : (s.modEndpoint hub f).asks = s.asks := rfl
@[simp] theorem State.modEndpoint_assists (s : State) (hub : Nat) (f : Endpoint → Endpoint) : (s.modEndpoint hub f).assists = s.assists := rfl
@[simp] theorem State.modEndpoint_acks (s : State) (hub : Nat) (f : Endpoint → Endpoint) : (s.modEndpoint hub f).acks = s.acks := rfl
@[simp] theorem State.modEndpoint_suspects (s : State) (hub : Nat) (f : Endpoint → Endpoint) : (s.modEndpoint hub f).suspects = s.suspects := rfl
@[simp] theorem State.modEndpoint_outbox (s : State) (hub : Nat) (f : Endpoint → Endpoint) : (s.modEndpoint hub f).outbox = s.outbox := rfl
@[simp] theorem State.modEndpoint_power (s : State) (hub : Nat) (f : Endpoint → Endpoint) : (s.modEndpoint hub f).power = s.power := rfl
@[simp] theorem State.modEndpoint_plant (s : State) (hub : Nat) (f : Endpoint → Endpoint) : (s.modEndpoint hub f).plant = s.plant := rfl
@[simp] theorem State.modEndpoint_tray (s : State) (hub : Nat) (f : Endpoint → Endpoint) : (s.modEndpoint hub f).tray = s.tray := rfl
@[simp] theorem State.modEndpoint_drains (s : State) (hub : Nat) (f : Endpoint → Endpoint) : (s.modEndpoint hub f).drains = s.drains := rfl
@[simp] theorem State.modEndpoint_pending (s : State) (hub : Nat) (f : Endpoint → Endpoint) : (s.modEndpoint hub f).pending = s.pending := rfl

/-! `State.setStack` changes `hbm` alone. -/

@[simp] theorem State.setStack_now (s : State) (st : Nat) (x : Stack) : (s.setStack st x).now = s.now := rfl
@[simp] theorem State.setStack_regs (s : State) (st : Nat) (x : Stack) : (s.setStack st x).regs = s.regs := rfl
@[simp] theorem State.setStack_mem (s : State) (st : Nat) (x : Stack) : (s.setStack st x).mem = s.mem := rfl
@[simp] theorem State.setStack_freeCount (s : State) (st : Nat) (x : Stack) : (s.setStack st x).freeCount = s.freeCount := rfl
@[simp] theorem State.setStack_master (s : State) (st : Nat) (x : Stack) : (s.setStack st x).master = s.master := rfl
@[simp] theorem State.setStack_fabricTime (s : State) (st : Nat) (x : Stack) : (s.setStack st x).fabricTime = s.fabricTime := rfl
@[simp] theorem State.setStack_fabric (s : State) (st : Nat) (x : Stack) : (s.setStack st x).fabric = s.fabric := rfl
@[simp] theorem State.setStack_outstanding (s : State) (st : Nat) (x : Stack) : (s.setStack st x).outstanding = s.outstanding := rfl
@[simp] theorem State.setStack_nextTxn (s : State) (st : Nat) (x : Stack) : (s.setStack st x).nextTxn = s.nextTxn := rfl
@[simp] theorem State.setStack_routers (s : State) (st : Nat) (x : Stack) : (s.setStack st x).routers = s.routers := rfl
@[simp] theorem State.setStack_bridges (s : State) (st : Nat) (x : Stack) : (s.setStack st x).bridges = s.bridges := rfl
@[simp] theorem State.setStack_lanes (s : State) (st : Nat) (x : Stack) : (s.setStack st x).lanes = s.lanes := rfl
@[simp] theorem State.setStack_changes (s : State) (st : Nat) (x : Stack) : (s.setStack st x).changes = s.changes := rfl
@[simp] theorem State.setStack_switching (s : State) (st : Nat) (x : Stack) : (s.setStack st x).switching = s.switching := rfl
@[simp] theorem State.setStack_pens (s : State) (st : Nat) (x : Stack) : (s.setStack st x).pens = s.pens := rfl
@[simp] theorem State.setStack_hefts (s : State) (st : Nat) (x : Stack) : (s.setStack st x).hefts = s.hefts := rfl
@[simp] theorem State.setStack_queues (s : State) (st : Nat) (x : Stack) : (s.setStack st x).queues = s.queues := rfl
@[simp] theorem State.setStack_forecasts (s : State) (st : Nat) (x : Stack) : (s.setStack st x).forecasts = s.forecasts := rfl
@[simp] theorem State.setStack_jobs (s : State) (st : Nat) (x : Stack) : (s.setStack st x).jobs = s.jobs := rfl
@[simp] theorem State.setStack_blocks (s : State) (st : Nat) (x : Stack) : (s.setStack st x).blocks = s.blocks := rfl
@[simp] theorem State.setStack_droves (s : State) (st : Nat) (x : Stack) : (s.setStack st x).droves = s.droves := rfl
@[simp] theorem State.setStack_links (s : State) (st : Nat) (x : Stack) : (s.setStack st x).links = s.links := rfl
@[simp] theorem State.setStack_proxies (s : State) (st : Nat) (x : Stack) : (s.setStack st x).proxies = s.proxies := rfl
@[simp] theorem State.setStack_penProxies (s : State) (st : Nat) (x : Stack) : (s.setStack st x).penProxies = s.penProxies := rfl
@[simp] theorem State.setStack_intake (s : State) (st : Nat) (x : Stack) : (s.setStack st x).intake = s.intake := rfl
@[simp] theorem State.setStack_cqStore (s : State) (st : Nat) (x : Stack) : (s.setStack st x).cqStore = s.cqStore := rfl
@[simp] theorem State.setStack_fetched (s : State) (st : Nat) (x : Stack) : (s.setStack st x).fetched = s.fetched := rfl
@[simp] theorem State.setStack_jbe (s : State) (st : Nat) (x : Stack) : (s.setStack st x).jbe = s.jbe := rfl
@[simp] theorem State.setStack_sqLast (s : State) (st : Nat) (x : Stack) : (s.setStack st x).sqLast = s.sqLast := rfl
@[simp] theorem State.setStack_cqRaised (s : State) (st : Nat) (x : Stack) : (s.setStack st x).cqRaised = s.cqRaised := rfl
@[simp] theorem State.setStack_endpoints (s : State) (st : Nat) (x : Stack) : (s.setStack st x).endpoints = s.endpoints := rfl
@[simp] theorem State.setStack_joins (s : State) (st : Nat) (x : Stack) : (s.setStack st x).joins = s.joins := rfl
@[simp] theorem State.setStack_idLocked (s : State) (st : Nat) (x : Stack) : (s.setStack st x).idLocked = s.idLocked := rfl
@[simp] theorem State.setStack_earlyJoins (s : State) (st : Nat) (x : Stack) : (s.setStack st x).earlyJoins = s.earlyJoins := rfl
@[simp] theorem State.setStack_tasks (s : State) (st : Nat) (x : Stack) : (s.setStack st x).tasks = s.tasks := rfl
@[simp] theorem State.setStack_taskRefusals (s : State) (st : Nat) (x : Stack) : (s.setStack st x).taskRefusals = s.taskRefusals := rfl
@[simp] theorem State.setStack_reports (s : State) (st : Nat) (x : Stack) : (s.setStack st x).reports = s.reports := rfl
@[simp] theorem State.setStack_log (s : State) (st : Nat) (x : Stack) : (s.setStack st x).log = s.log := rfl
@[simp] theorem State.setStack_events (s : State) (st : Nat) (x : Stack) : (s.setStack st x).events = s.events := rfl
@[simp] theorem State.setStack_rings (s : State) (st : Nat) (x : Stack) : (s.setStack st x).rings = s.rings := rfl
@[simp] theorem State.setStack_probes (s : State) (st : Nat) (x : Stack) : (s.setStack st x).probes = s.probes := rfl
@[simp] theorem State.setStack_retiring (s : State) (st : Nat) (x : Stack) : (s.setStack st x).retiring = s.retiring := rfl
@[simp] theorem State.setStack_detected (s : State) (st : Nat) (x : Stack) : (s.setStack st x).detected = s.detected := rfl
@[simp] theorem State.setStack_heldBack (s : State) (st : Nat) (x : Stack) : (s.setStack st x).heldBack = s.heldBack := rfl
@[simp] theorem State.setStack_asks (s : State) (st : Nat) (x : Stack) : (s.setStack st x).asks = s.asks := rfl
@[simp] theorem State.setStack_assists (s : State) (st : Nat) (x : Stack) : (s.setStack st x).assists = s.assists := rfl
@[simp] theorem State.setStack_acks (s : State) (st : Nat) (x : Stack) : (s.setStack st x).acks = s.acks := rfl
@[simp] theorem State.setStack_suspects (s : State) (st : Nat) (x : Stack) : (s.setStack st x).suspects = s.suspects := rfl
@[simp] theorem State.setStack_outbox (s : State) (st : Nat) (x : Stack) : (s.setStack st x).outbox = s.outbox := rfl
@[simp] theorem State.setStack_power (s : State) (st : Nat) (x : Stack) : (s.setStack st x).power = s.power := rfl
@[simp] theorem State.setStack_plant (s : State) (st : Nat) (x : Stack) : (s.setStack st x).plant = s.plant := rfl
@[simp] theorem State.setStack_tray (s : State) (st : Nat) (x : Stack) : (s.setStack st x).tray = s.tray := rfl
@[simp] theorem State.setStack_drains (s : State) (st : Nat) (x : Stack) : (s.setStack st x).drains = s.drains := rfl
@[simp] theorem State.setStack_pending (s : State) (st : Nat) (x : Stack) : (s.setStack st x).pending = s.pending := rfl

/-! `State.modPow` changes `power` alone. -/

@[simp] theorem State.modPow_now (s : State) (node : Nat) (f : RegionPower → RegionPower) : (s.modPow node f).now = s.now := rfl
@[simp] theorem State.modPow_regs (s : State) (node : Nat) (f : RegionPower → RegionPower) : (s.modPow node f).regs = s.regs := rfl
@[simp] theorem State.modPow_mem (s : State) (node : Nat) (f : RegionPower → RegionPower) : (s.modPow node f).mem = s.mem := rfl
@[simp] theorem State.modPow_freeCount (s : State) (node : Nat) (f : RegionPower → RegionPower) : (s.modPow node f).freeCount = s.freeCount := rfl
@[simp] theorem State.modPow_master (s : State) (node : Nat) (f : RegionPower → RegionPower) : (s.modPow node f).master = s.master := rfl
@[simp] theorem State.modPow_fabricTime (s : State) (node : Nat) (f : RegionPower → RegionPower) : (s.modPow node f).fabricTime = s.fabricTime := rfl
@[simp] theorem State.modPow_fabric (s : State) (node : Nat) (f : RegionPower → RegionPower) : (s.modPow node f).fabric = s.fabric := rfl
@[simp] theorem State.modPow_outstanding (s : State) (node : Nat) (f : RegionPower → RegionPower) : (s.modPow node f).outstanding = s.outstanding := rfl
@[simp] theorem State.modPow_nextTxn (s : State) (node : Nat) (f : RegionPower → RegionPower) : (s.modPow node f).nextTxn = s.nextTxn := rfl
@[simp] theorem State.modPow_routers (s : State) (node : Nat) (f : RegionPower → RegionPower) : (s.modPow node f).routers = s.routers := rfl
@[simp] theorem State.modPow_bridges (s : State) (node : Nat) (f : RegionPower → RegionPower) : (s.modPow node f).bridges = s.bridges := rfl
@[simp] theorem State.modPow_lanes (s : State) (node : Nat) (f : RegionPower → RegionPower) : (s.modPow node f).lanes = s.lanes := rfl
@[simp] theorem State.modPow_changes (s : State) (node : Nat) (f : RegionPower → RegionPower) : (s.modPow node f).changes = s.changes := rfl
@[simp] theorem State.modPow_switching (s : State) (node : Nat) (f : RegionPower → RegionPower) : (s.modPow node f).switching = s.switching := rfl
@[simp] theorem State.modPow_pens (s : State) (node : Nat) (f : RegionPower → RegionPower) : (s.modPow node f).pens = s.pens := rfl
@[simp] theorem State.modPow_hefts (s : State) (node : Nat) (f : RegionPower → RegionPower) : (s.modPow node f).hefts = s.hefts := rfl
@[simp] theorem State.modPow_queues (s : State) (node : Nat) (f : RegionPower → RegionPower) : (s.modPow node f).queues = s.queues := rfl
@[simp] theorem State.modPow_forecasts (s : State) (node : Nat) (f : RegionPower → RegionPower) : (s.modPow node f).forecasts = s.forecasts := rfl
@[simp] theorem State.modPow_jobs (s : State) (node : Nat) (f : RegionPower → RegionPower) : (s.modPow node f).jobs = s.jobs := rfl
@[simp] theorem State.modPow_blocks (s : State) (node : Nat) (f : RegionPower → RegionPower) : (s.modPow node f).blocks = s.blocks := rfl
@[simp] theorem State.modPow_droves (s : State) (node : Nat) (f : RegionPower → RegionPower) : (s.modPow node f).droves = s.droves := rfl
@[simp] theorem State.modPow_links (s : State) (node : Nat) (f : RegionPower → RegionPower) : (s.modPow node f).links = s.links := rfl
@[simp] theorem State.modPow_proxies (s : State) (node : Nat) (f : RegionPower → RegionPower) : (s.modPow node f).proxies = s.proxies := rfl
@[simp] theorem State.modPow_penProxies (s : State) (node : Nat) (f : RegionPower → RegionPower) : (s.modPow node f).penProxies = s.penProxies := rfl
@[simp] theorem State.modPow_hbm (s : State) (node : Nat) (f : RegionPower → RegionPower) : (s.modPow node f).hbm = s.hbm := rfl
@[simp] theorem State.modPow_intake (s : State) (node : Nat) (f : RegionPower → RegionPower) : (s.modPow node f).intake = s.intake := rfl
@[simp] theorem State.modPow_cqStore (s : State) (node : Nat) (f : RegionPower → RegionPower) : (s.modPow node f).cqStore = s.cqStore := rfl
@[simp] theorem State.modPow_fetched (s : State) (node : Nat) (f : RegionPower → RegionPower) : (s.modPow node f).fetched = s.fetched := rfl
@[simp] theorem State.modPow_jbe (s : State) (node : Nat) (f : RegionPower → RegionPower) : (s.modPow node f).jbe = s.jbe := rfl
@[simp] theorem State.modPow_sqLast (s : State) (node : Nat) (f : RegionPower → RegionPower) : (s.modPow node f).sqLast = s.sqLast := rfl
@[simp] theorem State.modPow_cqRaised (s : State) (node : Nat) (f : RegionPower → RegionPower) : (s.modPow node f).cqRaised = s.cqRaised := rfl
@[simp] theorem State.modPow_endpoints (s : State) (node : Nat) (f : RegionPower → RegionPower) : (s.modPow node f).endpoints = s.endpoints := rfl
@[simp] theorem State.modPow_joins (s : State) (node : Nat) (f : RegionPower → RegionPower) : (s.modPow node f).joins = s.joins := rfl
@[simp] theorem State.modPow_idLocked (s : State) (node : Nat) (f : RegionPower → RegionPower) : (s.modPow node f).idLocked = s.idLocked := rfl
@[simp] theorem State.modPow_earlyJoins (s : State) (node : Nat) (f : RegionPower → RegionPower) : (s.modPow node f).earlyJoins = s.earlyJoins := rfl
@[simp] theorem State.modPow_tasks (s : State) (node : Nat) (f : RegionPower → RegionPower) : (s.modPow node f).tasks = s.tasks := rfl
@[simp] theorem State.modPow_taskRefusals (s : State) (node : Nat) (f : RegionPower → RegionPower) : (s.modPow node f).taskRefusals = s.taskRefusals := rfl
@[simp] theorem State.modPow_reports (s : State) (node : Nat) (f : RegionPower → RegionPower) : (s.modPow node f).reports = s.reports := rfl
@[simp] theorem State.modPow_log (s : State) (node : Nat) (f : RegionPower → RegionPower) : (s.modPow node f).log = s.log := rfl
@[simp] theorem State.modPow_events (s : State) (node : Nat) (f : RegionPower → RegionPower) : (s.modPow node f).events = s.events := rfl
@[simp] theorem State.modPow_rings (s : State) (node : Nat) (f : RegionPower → RegionPower) : (s.modPow node f).rings = s.rings := rfl
@[simp] theorem State.modPow_probes (s : State) (node : Nat) (f : RegionPower → RegionPower) : (s.modPow node f).probes = s.probes := rfl
@[simp] theorem State.modPow_retiring (s : State) (node : Nat) (f : RegionPower → RegionPower) : (s.modPow node f).retiring = s.retiring := rfl
@[simp] theorem State.modPow_detected (s : State) (node : Nat) (f : RegionPower → RegionPower) : (s.modPow node f).detected = s.detected := rfl
@[simp] theorem State.modPow_heldBack (s : State) (node : Nat) (f : RegionPower → RegionPower) : (s.modPow node f).heldBack = s.heldBack := rfl
@[simp] theorem State.modPow_asks (s : State) (node : Nat) (f : RegionPower → RegionPower) : (s.modPow node f).asks = s.asks := rfl
@[simp] theorem State.modPow_assists (s : State) (node : Nat) (f : RegionPower → RegionPower) : (s.modPow node f).assists = s.assists := rfl
@[simp] theorem State.modPow_acks (s : State) (node : Nat) (f : RegionPower → RegionPower) : (s.modPow node f).acks = s.acks := rfl
@[simp] theorem State.modPow_suspects (s : State) (node : Nat) (f : RegionPower → RegionPower) : (s.modPow node f).suspects = s.suspects := rfl
@[simp] theorem State.modPow_outbox (s : State) (node : Nat) (f : RegionPower → RegionPower) : (s.modPow node f).outbox = s.outbox := rfl
@[simp] theorem State.modPow_plant (s : State) (node : Nat) (f : RegionPower → RegionPower) : (s.modPow node f).plant = s.plant := rfl
@[simp] theorem State.modPow_tray (s : State) (node : Nat) (f : RegionPower → RegionPower) : (s.modPow node f).tray = s.tray := rfl
@[simp] theorem State.modPow_drains (s : State) (node : Nat) (f : RegionPower → RegionPower) : (s.modPow node f).drains = s.drains := rfl
@[simp] theorem State.modPow_pending (s : State) (node : Nat) (f : RegionPower → RegionPower) : (s.modPow node f).pending = s.pending := rfl

/-! `State.modPlant` changes `plant` alone. -/

@[simp] theorem State.modPlant_now (s : State) (f : Plant → Plant) : (s.modPlant f).now = s.now := rfl
@[simp] theorem State.modPlant_regs (s : State) (f : Plant → Plant) : (s.modPlant f).regs = s.regs := rfl
@[simp] theorem State.modPlant_mem (s : State) (f : Plant → Plant) : (s.modPlant f).mem = s.mem := rfl
@[simp] theorem State.modPlant_freeCount (s : State) (f : Plant → Plant) : (s.modPlant f).freeCount = s.freeCount := rfl
@[simp] theorem State.modPlant_master (s : State) (f : Plant → Plant) : (s.modPlant f).master = s.master := rfl
@[simp] theorem State.modPlant_fabricTime (s : State) (f : Plant → Plant) : (s.modPlant f).fabricTime = s.fabricTime := rfl
@[simp] theorem State.modPlant_fabric (s : State) (f : Plant → Plant) : (s.modPlant f).fabric = s.fabric := rfl
@[simp] theorem State.modPlant_outstanding (s : State) (f : Plant → Plant) : (s.modPlant f).outstanding = s.outstanding := rfl
@[simp] theorem State.modPlant_nextTxn (s : State) (f : Plant → Plant) : (s.modPlant f).nextTxn = s.nextTxn := rfl
@[simp] theorem State.modPlant_routers (s : State) (f : Plant → Plant) : (s.modPlant f).routers = s.routers := rfl
@[simp] theorem State.modPlant_bridges (s : State) (f : Plant → Plant) : (s.modPlant f).bridges = s.bridges := rfl
@[simp] theorem State.modPlant_lanes (s : State) (f : Plant → Plant) : (s.modPlant f).lanes = s.lanes := rfl
@[simp] theorem State.modPlant_changes (s : State) (f : Plant → Plant) : (s.modPlant f).changes = s.changes := rfl
@[simp] theorem State.modPlant_switching (s : State) (f : Plant → Plant) : (s.modPlant f).switching = s.switching := rfl
@[simp] theorem State.modPlant_pens (s : State) (f : Plant → Plant) : (s.modPlant f).pens = s.pens := rfl
@[simp] theorem State.modPlant_hefts (s : State) (f : Plant → Plant) : (s.modPlant f).hefts = s.hefts := rfl
@[simp] theorem State.modPlant_queues (s : State) (f : Plant → Plant) : (s.modPlant f).queues = s.queues := rfl
@[simp] theorem State.modPlant_forecasts (s : State) (f : Plant → Plant) : (s.modPlant f).forecasts = s.forecasts := rfl
@[simp] theorem State.modPlant_jobs (s : State) (f : Plant → Plant) : (s.modPlant f).jobs = s.jobs := rfl
@[simp] theorem State.modPlant_blocks (s : State) (f : Plant → Plant) : (s.modPlant f).blocks = s.blocks := rfl
@[simp] theorem State.modPlant_droves (s : State) (f : Plant → Plant) : (s.modPlant f).droves = s.droves := rfl
@[simp] theorem State.modPlant_links (s : State) (f : Plant → Plant) : (s.modPlant f).links = s.links := rfl
@[simp] theorem State.modPlant_proxies (s : State) (f : Plant → Plant) : (s.modPlant f).proxies = s.proxies := rfl
@[simp] theorem State.modPlant_penProxies (s : State) (f : Plant → Plant) : (s.modPlant f).penProxies = s.penProxies := rfl
@[simp] theorem State.modPlant_hbm (s : State) (f : Plant → Plant) : (s.modPlant f).hbm = s.hbm := rfl
@[simp] theorem State.modPlant_intake (s : State) (f : Plant → Plant) : (s.modPlant f).intake = s.intake := rfl
@[simp] theorem State.modPlant_cqStore (s : State) (f : Plant → Plant) : (s.modPlant f).cqStore = s.cqStore := rfl
@[simp] theorem State.modPlant_fetched (s : State) (f : Plant → Plant) : (s.modPlant f).fetched = s.fetched := rfl
@[simp] theorem State.modPlant_jbe (s : State) (f : Plant → Plant) : (s.modPlant f).jbe = s.jbe := rfl
@[simp] theorem State.modPlant_sqLast (s : State) (f : Plant → Plant) : (s.modPlant f).sqLast = s.sqLast := rfl
@[simp] theorem State.modPlant_cqRaised (s : State) (f : Plant → Plant) : (s.modPlant f).cqRaised = s.cqRaised := rfl
@[simp] theorem State.modPlant_endpoints (s : State) (f : Plant → Plant) : (s.modPlant f).endpoints = s.endpoints := rfl
@[simp] theorem State.modPlant_joins (s : State) (f : Plant → Plant) : (s.modPlant f).joins = s.joins := rfl
@[simp] theorem State.modPlant_idLocked (s : State) (f : Plant → Plant) : (s.modPlant f).idLocked = s.idLocked := rfl
@[simp] theorem State.modPlant_earlyJoins (s : State) (f : Plant → Plant) : (s.modPlant f).earlyJoins = s.earlyJoins := rfl
@[simp] theorem State.modPlant_tasks (s : State) (f : Plant → Plant) : (s.modPlant f).tasks = s.tasks := rfl
@[simp] theorem State.modPlant_taskRefusals (s : State) (f : Plant → Plant) : (s.modPlant f).taskRefusals = s.taskRefusals := rfl
@[simp] theorem State.modPlant_reports (s : State) (f : Plant → Plant) : (s.modPlant f).reports = s.reports := rfl
@[simp] theorem State.modPlant_log (s : State) (f : Plant → Plant) : (s.modPlant f).log = s.log := rfl
@[simp] theorem State.modPlant_events (s : State) (f : Plant → Plant) : (s.modPlant f).events = s.events := rfl
@[simp] theorem State.modPlant_rings (s : State) (f : Plant → Plant) : (s.modPlant f).rings = s.rings := rfl
@[simp] theorem State.modPlant_probes (s : State) (f : Plant → Plant) : (s.modPlant f).probes = s.probes := rfl
@[simp] theorem State.modPlant_retiring (s : State) (f : Plant → Plant) : (s.modPlant f).retiring = s.retiring := rfl
@[simp] theorem State.modPlant_detected (s : State) (f : Plant → Plant) : (s.modPlant f).detected = s.detected := rfl
@[simp] theorem State.modPlant_heldBack (s : State) (f : Plant → Plant) : (s.modPlant f).heldBack = s.heldBack := rfl
@[simp] theorem State.modPlant_asks (s : State) (f : Plant → Plant) : (s.modPlant f).asks = s.asks := rfl
@[simp] theorem State.modPlant_assists (s : State) (f : Plant → Plant) : (s.modPlant f).assists = s.assists := rfl
@[simp] theorem State.modPlant_acks (s : State) (f : Plant → Plant) : (s.modPlant f).acks = s.acks := rfl
@[simp] theorem State.modPlant_suspects (s : State) (f : Plant → Plant) : (s.modPlant f).suspects = s.suspects := rfl
@[simp] theorem State.modPlant_outbox (s : State) (f : Plant → Plant) : (s.modPlant f).outbox = s.outbox := rfl
@[simp] theorem State.modPlant_power (s : State) (f : Plant → Plant) : (s.modPlant f).power = s.power := rfl
@[simp] theorem State.modPlant_tray (s : State) (f : Plant → Plant) : (s.modPlant f).tray = s.tray := rfl
@[simp] theorem State.modPlant_drains (s : State) (f : Plant → Plant) : (s.modPlant f).drains = s.drains := rfl
@[simp] theorem State.modPlant_pending (s : State) (f : Plant → Plant) : (s.modPlant f).pending = s.pending := rfl

@[simp] theorem State.modPlant_plant (s : State) (f : Plant → Plant) : (s.modPlant f).plant = f s.plant := rfl
@[simp] theorem State.deliver_fabric (s : State) (p : Packet) : (s.deliver p).fabric = s.fabric ++ [p] := rfl

end Sys2Proof.Machine
end

