-- ==== Sys2Proof/Laws/Packets.lean ====
section
/-!
SUPPORT. What the arrival of a packet comes to where the packet lands.
-/
namespace Sys2Proof.Machine

/-- A packet that lands is handed on whole, and is taken out of those delivered. -/
theorem Lands.arrive {s : State} {p : Packet} (h : Lands s p) : s.arrive p.dest p = (some p, s.take p) := by
  have hd : ((s.take p).router p.dest).fenced ≠ some p.src := h.heard
  simp [State.arrive, hd, h.header, h.fresh, h.whole]

/-- A packet that lands is dealt with by the command's own work. -/
theorem Lands.onArrival {s : State} {p : Packet} (h : Lands s p) (f : Packet → State → State) : s.onArrival p f = f p (s.take p) := by
  simp [State.onArrival, h.arrive, h.here]

end Sys2Proof.Machine
end

