-- ==== Sys2Proof/Laws/Sparse.lean ====
section
/-!
SUPPORT. What reading a sparse table gives after each of its updates, and that every update keeps its keys strictly rising.
-/
namespace Sys2Proof.Machine

@[simp] theorem Sparse.find?_nil {α : Type} (k : Nat) : Sparse.find? ([] : Sparse α) k = none := rfl

theorem Sparse.find?_set {α : Type} (m : Sparse α) (k : Nat) (v : α) (j : Nat) :
    Sparse.find? (Sparse.set m k v) j = if j = k then some v else Sparse.find? m j := by
  induction m with
  | nil => simp [Sparse.set, Sparse.find?]
  | cons e rest ih =>
    obtain ⟨i, w⟩ := e
    simp only [Sparse.set]
    split
    · simp [Sparse.find?]
    · split
      · subst_vars; simp only [Sparse.find?]; split <;> simp_all
      · simp only [Sparse.find?, ih]; split <;> split <;> simp_all

@[simp] theorem Sparse.find?_set_same {α : Type} (m : Sparse α) (k : Nat) (v : α) : Sparse.find? (Sparse.set m k v) k = some v := by
  simp [Sparse.find?_set]

theorem Sparse.find?_set_other {α : Type} (m : Sparse α) (k : Nat) (v : α) {j : Nat} (h : j ≠ k) :
    Sparse.find? (Sparse.set m k v) j = Sparse.find? m j := by simp [Sparse.find?_set, h]

theorem Sparse.get_set {α : Type} (d : α) (m : Sparse α) (k : Nat) (v : α) (j : Nat) :
    Sparse.get d (Sparse.set m k v) j = if j = k then v else Sparse.get d m j := by
  simp only [Sparse.get, Sparse.find?_set]; split <;> rfl

@[simp] theorem Sparse.get_set_same {α : Type} (d : α) (m : Sparse α) (k : Nat) (v : α) : Sparse.get d (Sparse.set m k v) k = v := by
  simp [Sparse.get_set]

theorem Sparse.get_set_other {α : Type} (d : α) (m : Sparse α) (k : Nat) (v : α) {j : Nat} (h : j ≠ k) :
    Sparse.get d (Sparse.set m k v) j = Sparse.get d m j := by simp [Sparse.get_set, h]

theorem Sparse.get_upd {α : Type} (d : α) (m : Sparse α) (k : Nat) (f : α → α) (j : Nat) :
    Sparse.get d (Sparse.upd d m k f) j = if j = k then f (Sparse.get d m k) else Sparse.get d m j := by
  simp only [Sparse.upd, Sparse.get_set]

@[simp] theorem Sparse.get_upd_same {α : Type} (d : α) (m : Sparse α) (k : Nat) (f : α → α) :
    Sparse.get d (Sparse.upd d m k f) k = f (Sparse.get d m k) := by simp [Sparse.get_upd]

/-- The keys are above any bound that a sorted table's keys respect. -/
theorem Sparse.sortedFrom_mono {α : Type} {lo lo' : Nat} (m : Sparse α) (h : lo' ≤ lo) (w : Sparse.sortedFrom lo m = true) :
    Sparse.sortedFrom lo' m = true := by
  cases m with
  | nil => rfl
  | cons e rest => simp only [Sparse.sortedFrom, Bool.and_eq_true, decide_eq_true_eq] at *; exact ⟨by omega, w.2⟩

theorem Sparse.find?_below {α : Type} {lo : Nat} (m : Sparse α) (w : Sparse.sortedFrom lo m = true) {k : Nat} (h : k < lo) :
    Sparse.find? m k = none := by
  induction m generalizing lo with
  | nil => rfl
  | cons e rest ih =>
    simp only [Sparse.sortedFrom, Bool.and_eq_true, decide_eq_true_eq] at w
    simp only [Sparse.find?]
    rw [if_neg (by omega)]
    exact ih w.2 (by omega)

theorem Sparse.sortedFrom_set {α : Type} {lo : Nat} (m : Sparse α) (w : Sparse.sortedFrom lo m = true) {k : Nat} (h : lo ≤ k) (v : α) :
    Sparse.sortedFrom lo (Sparse.set m k v) = true := by
  induction m generalizing lo with
  | nil => simp [Sparse.set, Sparse.sortedFrom, h]
  | cons e rest ih =>
    obtain ⟨j, x⟩ := e
    simp only [Sparse.sortedFrom, Bool.and_eq_true, decide_eq_true_eq] at w
    simp only [Sparse.set]
    split
    · simp only [Sparse.sortedFrom, Bool.and_eq_true, decide_eq_true_eq]; exact ⟨h, by omega, w.2⟩
    · split
      · subst_vars; simp only [Sparse.sortedFrom, Bool.and_eq_true, decide_eq_true_eq]; exact ⟨w.1, w.2⟩
      · simp only [Sparse.sortedFrom, Bool.and_eq_true, decide_eq_true_eq]; exact ⟨w.1, ih w.2 (by omega)⟩

/-- Setting a key keeps the keys strictly rising. -/
theorem Sparse.sorted_set {α : Type} (m : Sparse α) (w : m.sorted = true) (k : Nat) (v : α) : (Sparse.set m k v).sorted = true :=
  Sparse.sortedFrom_set m w (Nat.zero_le k) v

theorem Sparse.sortedFrom_del {α : Type} {lo : Nat} (m : Sparse α) (w : Sparse.sortedFrom lo m = true) (k : Nat) :
    Sparse.sortedFrom lo (Sparse.del m k) = true := by
  induction m generalizing lo with
  | nil => rfl
  | cons e rest ih =>
    obtain ⟨j, x⟩ := e
    simp only [Sparse.sortedFrom, Bool.and_eq_true, decide_eq_true_eq] at w
    simp only [Sparse.del]
    split
    · exact Sparse.sortedFrom_mono rest (by omega) w.2
    · simp only [Sparse.sortedFrom, Bool.and_eq_true, decide_eq_true_eq]; exact ⟨w.1, ih w.2⟩

/-- Unlisting a key keeps the keys strictly rising. -/
theorem Sparse.sorted_del {α : Type} (m : Sparse α) (w : m.sorted = true) (k : Nat) : (Sparse.del m k).sorted = true :=
  Sparse.sortedFrom_del m w k

/-- In a sorted table an unlisted key is not found, and the others are as before. -/
theorem Sparse.find?_del {α : Type} (m : Sparse α) (w : m.sorted = true) (k j : Nat) :
    Sparse.find? (Sparse.del m k) j = if j = k then none else Sparse.find? m j := by
  suffices h : ∀ lo, Sparse.sortedFrom lo m = true → Sparse.find? (Sparse.del m k) j = if j = k then none else Sparse.find? m j from h 0 w
  clear w
  induction m with
  | nil => intro lo _; simp [Sparse.del, Sparse.find?]
  | cons e rest ih =>
    obtain ⟨i, x⟩ := e
    intro lo w
    simp only [Sparse.sortedFrom, Bool.and_eq_true, decide_eq_true_eq] at w
    have ih := ih _ w.2
    simp only [Sparse.del]
    split
    · rename_i hk
      rw [hk]
      by_cases hj : j = i
      · rw [if_pos hj, hj, Sparse.find?_below rest w.2 (Nat.lt_succ_self i)]
      · rw [if_neg hj]; simp [Sparse.find?, hj]
    · simp only [Sparse.find?, ih]; split <;> split <;> simp_all

end Sys2Proof.Machine
end

