-- ==== Sys2Proof/Laws/Writes.lean ====
section
/-!
SUPPORT. What a granted register write does, whichever row brings it (R411, R421).
-/
namespace Sys2Proof.Machine

/-- A granted write reaches its page and is applied (R411, R414). -/
theorem Grants.accessWrite {s : State} {a : RegAccess} {w : RegWr} (h : Grants s a w) : s.accessWrite a = (some .done, s.applyWrite w) := by
  obtain ⟨path, guest, served, booted, ⟨notP, gOnly⟩, page, width, aligned, ⟨r, b, i, hn, hw⟩, allowed⟩ := h
  obtain ⟨⟨k, c⟩, hk⟩ := Option.isSome_iff_exists.mp page
  have hg : (a.o == Origin.G && s.guestShut a.node) = false := by
    by_cases ho : a.o = .G
    · simp [guest ho]
    · simp [ho]
  have hn8 : a.n ≤ 8 := by omega
  simp only [State.accessWrite, hg, path, served, State.writePage, hn8, if_true, State.writeReg, hk]
  have h1 : ¬ (a.o = .P ∨ (a.o = .G ∧ k ≠ .mailbox)) := by
    rintro (h | ⟨h, h'⟩)
    · exact notP h
    · have := gOnly h; simp [hk] at this; exact h' this
  have h2 : ¬ (a.o = .H ∧ s.fld F.hubBoot_step 180 ≤ 4) := by
    rintro ⟨h, h'⟩; have := booted h; omega
  have h3 : (!(a.n == 1 || a.n == 2 || a.n == 4 || a.n == 8) || a.off % a.n != 0) = false := by
    rcases width with h | h <;> simp [h] <;> (rw [h] at aligned; exact aligned)
  have h4 : ¬ a.n < 4 := by omega
  have h3' : ¬ (((¬a.n = 1 ∧ ¬a.n = 2) ∧ ¬a.n = 4) ∧ ¬a.n = 8 ∨ ¬a.off % a.n = 0) := by
    rintro (h | h)
    · omega
    · exact h aligned
  simp [h1, h2, h3', h4, hn, ← hw, allowed]

/-- The write as it acts names the register, the copy and the node of the access. -/
theorem Grants.names_kept {s : State} {a : RegAccess} {w : RegWr} (h : Grants s a w) :
    ∃ b i, namedAt a.node a.page (a.off / 8 * 8) = .reg w.r b i ∧ w.node = a.node ∧ w.b = b ∧ w.i = i := by
  obtain ⟨r, b, i, hn, hw⟩ := h.names
  refine ⟨b, i, ?_⟩
  subst hw
  rw [hn]
  unfold State.settle
  split <;> (try split) <;> (try split) <;> simp_all

/-- The bytes of a write act as written where its register has no rule of its own (R398, R405, R408, R453). -/
theorem State.settle_raw (s : State) (w : RegWr) (h : w.r ≠ .hubBudget) (h2 : w.r ≠ .dutyMode) (h3 : w.r ≠ .unitCtrl) : (s.settle w).raw = w.raw := by
  unfold State.settle
  split <;> (try split) <;> simp_all

/-- A write row's write names one of the row's fields, and puts a number other than 0 into it where it is one that is written to ask for something. -/
theorem Takes.field {s : State} {a : RegAccess} {w : RegWr} {fs : List Field} (h : Takes s a w fs) :
    ∃ f ∈ fs, f.reg = w.r ∧ (f.type = .wo → w.r.numeric = false → w.r ≠ .hubBudget → w.r ≠ .dutyMode → w.r ≠ .unitCtrl → bits w.raw f.lo f.width ≠ 0) := by
  obtain ⟨r, b, i, hn, hw⟩ := h.grants.names
  have hr : w.r = r := by
    obtain ⟨b', i', hn', -⟩ := h.grants.names_kept
    rw [hn] at hn'; cases hn'; rfl
  have ht := h.reaches
  simp only [RegAccess.touches, hn, List.any_eq_true, Bool.and_eq_true, beq_iff_eq] at ht
  obtain ⟨f, hf, hfr, ht⟩ := ht
  refine ⟨f, hf, by rw [hr]; exact hfr, fun hwo hnum h1 h2 h3 => ?_⟩
  rw [hr] at hnum h1 h2 h3
  rw [hw, State.settle_raw _ _ h1 h2 h3]
  simpa [hwo, hnum] using ht

/-- A write row applies its write. -/
theorem Takes.fieldRow {s : State} {a : RegAccess} {w : RegWr} {fs : List Field} (h : Takes s a w fs) : Sys2Proof.Machine.fieldRow fs a s = .next (s.applyWrite w) := by
  simp [Sys2Proof.Machine.fieldRow, need, h.reaches, h.grants.accessWrite]

/-- A write of any register but RTR_FLIP_AT is stored and then has its effect. -/
theorem State.applyWrite_eq {s : State} {w : RegWr} (h : w.r ≠ .rtrFlipAt) : s.applyWrite w = (s.storeWrite w).afterWrite w := by
  simp [State.applyWrite, h]

/-- The register of a row of one field. -/
theorem Takes.reg {s : State} {a : RegAccess} {w : RegWr} {f : Field} (h : Takes s a w [f]) : w.r = f.reg := by
  obtain ⟨g, hg, hr, -⟩ := h.field
  simp at hg; subst hg; exact hr.symm

/-- What storing a write's word does: that register takes it, and storage, the queues, the blocks and the jobs stay. -/
theorem State.storeWrite_eq (s : State) (w : RegWr) : (s.storeWrite w).regs = Sparse.set s.regs (w.r.key w.node w.b w.i) (BitVec.ofNat 64 w.stored) ∧
  (s.storeWrite w).mem = s.mem ∧ (s.storeWrite w).queues = s.queues ∧ (s.storeWrite w).blocks = s.blocks ∧ (s.storeWrite w).jobs = s.jobs := by
  unfold State.storeWrite
  split <;> simp [State.setWord, State.change, State.report]

end Sys2Proof.Machine
end

