-- ==== Sys2Proof/WellFormed.lean ====
section
/-!
DEFINITION. Well-formed commands: every operand fits what the spec gives it. A meaning refuses by itself what names nothing that exists.
-/
namespace Sys2Proof

open Machine

/-- The operands of a command fit. -/
def Instr.wf (i : Instr) : Bool :=
  match i with
  | .write p => p.fits
  | .readReq p => p.fits
  | .readData p => p.fits
  | .completion p => p.fits
  | .penReq p => p.fits
  | .penGrant p => p.fits
  | .penPut p => p.fits
  | .penRelease p => p.fits
  | .atomicAdd p => p.fits
  | .tallyAtomicAdd p => p.fits
  | .droveTile p => p.fits
  | .foldPart p => p.fits
  | .hurdleArrive p => p.fits
  | .hurdleRelease p => p.fits
  | .control p => p.fits
  | .bufFree p => p.fits
  | .commitNotice p => p.fits
  | .cancelNotice p => p.fits
  | .decisionAck p => p.fits
  | .mgmt p => p.fits
  | .mgmtReply p => p.fits
  | .packetInject node p _ => decide (node < 182) && p.fits
  | .flitCrcError node port lane _ _ => decide (node < 182) && decide (port < 7) && decide (lane < 16)
  | .nakResend node port lane => decide (node < 182) && decide (port < 7) && decide (lane < 16)
  | .resentFlitGood node port lane => decide (node < 182) && decide (port < 7) && decide (lane < 16)
  | .bridgeRetrainDone node port _ => decide (node < 182) && decide (port < 7)
  | .requestTimeout node unit txn => decide (node < 182) && decide (unit < 256) && decide (txn < 65536)
  | .suspectMark node => decide (node < 182)
  | .bankSeal a => a.fits
  | .flipAtWrite a => a.fits
  | .epochFlip node => decide (node < 182)
  | .epochDrainEnd node => decide (node < 182)
  | .mapSwitch _ => true
  | .mxeBindHeft q => q.fits
  | .mxeGemm q _ => q.fits
  | .mxeGemmT q _ => q.fits
  | .mxeLocal q _ => q.fits
  | .mxeCodebook q => q.fits
  | .mxeDrain q => q.fits
  | .recomputeDone node blk _ => decide (node < 182) && decide (blk < 4)
  | .roundsRotation node blk => decide (node < 182) && decide (blk < 4)
  | .roundsTestDone node blk _ _ => decide (node < 182) && decide (blk < 4)
  | .roundsWindowEnd node blk => decide (node < 182) && decide (blk < 4)
  | .sliceWindowOpen node blk => decide (node < 182) && decide (blk < 4)
  | .roundsCtrlWrite a => a.fits
  | .vxeLaunch q => q.fits
  | .vxeLaunchChecked q => q.fits
  | .groupPlace q => q.fits
  | .vadd t => t.fits
  | .vsub t => t.fits
  | .vmul t => t.fits
  | .vfma t => t.fits
  | .vmin t => t.fits
  | .vmax t => t.fits
  | .vrcp t => t.fits
  | .vrsq t => t.fits
  | .vand t => t.fits
  | .vor t => t.fits
  | .vxor t => t.fits
  | .vsh t => t.fits
  | .vcmpf t => t.fits
  | .vcmpi t => t.fits
  | .vsel t => t.fits
  | .vperm t => t.fits
  | .vcvt t => t.fits
  | .vqnt t => t.fits
  | .vdqnt t => t.fits
  | .vcrv t => t.fits
  | .vred t => t.fits
  | .vscan t => t.fits
  | .vzbm t => t.fits
  | .vbcs t => t.fits
  | .vgsc t _ => t.fits
  | .vgrd t => t.fits
  | .plog t => t.fits
  | .vidx t => t.fits
  | .sop t => t.fits
  | .smovv t => t.fits
  | .srd t => t.fits
  | .saddi t => t.fits
  | .sandi t => t.fits
  | .sori t => t.fits
  | .sshi t => t.fits
  | .sshin t => t.fits
  | .vbci t => t.fits
  | .vaddi t => t.fits
  | .vld t => t.fits
  | .vst t _ => t.fits
  | .vldx t => t.fits
  | .vstx t _ => t.fits
  | .sld t => t.fits
  | .sst t _ => t.fits
  | .vldr t => t.fits
  | .vstr t _ => t.fits
  | .vput t _ => t.fits
  | .vatom t _ => t.fits
  | .satomr t _ => t.fits
  | .vcld t _ => t.fits
  | .bra t => t.fits
  | .beq t => t.fits
  | .bne t => t.fits
  | .blt t => t.fits
  | .bge t => t.fits
  | .bpany t => t.fits
  | .bpall t => t.fits
  | .yield t => t.fits
  | .yieldEnd t => t.fits
  | .harv t _ => t.fits
  | .hwait t _ => t.fits
  | .exit t _ => t.fits
  | .checkSkewTimeout t => t.fits
  | .launchEnd q => q.fits
  | .vectorRoundsTest node blk => decide (node < 182) && decide (blk < 4)
  | .vectorTestDone node blk _ => decide (node < 182) && decide (blk < 4)
  | .sxHarrive node blk => decide (node < 182) && decide (blk < 4)
  | .sxHwaitc node blk => decide (node < 182) && decide (blk < 4)
  | .sxEcall node blk => decide (node < 182) && decide (blk < 4)
  | .sxTrap node blk => decide (node < 182) && decide (blk < 4)
  | .sxRoundsTest node blk _ => decide (node < 182) && decide (blk < 4)
  | .lockstepMismatch node blk => decide (node < 182) && decide (blk < 4)
  | .taskPost hub poster tag _ => (hub == 180 || hub == 181) && poster.all (·.fits) && decide (tag < 64)
  | .taskDone hub core _ _ => (hub == 180 || hub == 181) && decide (core < 8)
  | .fbRunWrite a => a.fits
  | .scrubSlot node blk => decide (node < 182) && decide (blk < 4)
  | .penUnitZeroed node blk => decide (node < 182) && decide (blk < 4)
  | .penWaitExpiry node blk _ txn => decide (node < 182) && decide (blk < 4) && decide (txn < 65536)
  | .holderWaitExpiry node unit => decide (node < 182) && decide (unit < 256)
  | .penRevoke node blk => decide (node < 182) && decide (blk < 4)
  | .revokeNotice p => p.fits
  | .poolUnitsWrite a => a.fits
  | .penCountClear a => a.fits
  | .mveCopy q => q.fits
  | .mvePenReq q => q.fits
  | .mvePenPut q => q.fits
  | .mvePenRelease q => q.fits
  | .mveBcast q => q.fits
  | .mveFold q => q.fits
  | .mveDigest q => q.fits
  | .gteSelect q => q.fits
  | .gteDispatch q => q.fits
  | .gteCombine q => q.fits
  | .gteTally q => q.fits
  | .ctlHurdle q => q.fits
  | .ctlWait q => q.fits
  | .ctlWaitPoll q => q.fits
  | .ctlWaitLimit q => q.fits
  | .ctlJump q => q.fits
  | .ctlCall q => q.fits
  | .ctlRet q => q.fits
  | .ctlPredicate q => q.fits
  | .ctlPhase q => q.fits
  | .ctlTallyFlush q => q.fits
  | .ctlBreak q => q.fits
  | .ctlNop q => q.fits
  | .commandComplete q => q.fits
  | .dveStream q => q.fits
  | .dveStreamLink q => q.fits
  | .dveExperts q => q.fits
  | .dveCommit q => q.fits
  | .dveCancel q => q.fits
  | .streamStallTimeout node _ => decide (node < 182)
  | .linkReadFail p => p.fits
  | .tallyTableFinal node => decide (node < 182)
  | .jbeSubmit => true
  | .jbeAbort => true
  | .jbeQuery => true
  | .tallyRecord => true
  | .counterClear a => a.fits
  | .memcfgWrite a => a.fits
  | .mirrorWrite p => p.fits
  | .stackTempRead st _ => decide (st < 24)
  | .stackScrubPass st => decide (st < 24)
  | .scrubAtRisk st _ => decide (st < 24)
  | .stackFail st _ => decide (st < 24)
  | .stackTrainFallback st _ => decide (st < 24)
  | .linkEnable a => a.fits
  | .linkModeWrite a => a.fits
  | .reenable a => a.fits
  | .fullTrain a => a.fits
  | .linkWakeEvent node b _ => decide (node < 182) && decide (b < 5)
  | .trainingDone node b _ => decide (node < 182) && decide (b < 5)
  | .alignDone node b _ => decide (node < 182) && decide (b < 5)
  | .exchange node b _ _ _ _ _ _ => decide (node < 182) && decide (b < 5)
  | .linkDown node b _ => decide (node < 182) && decide (b < 5)
  | .laneRetire node b lane => decide (node < 182) && decide (b < 5) && decide (lane < 16)
  | .lingerExpiry node b => decide (node < 182) && decide (b < 5)
  | .dataFrame node b f => decide (node < 182) && decide (b < 5) && f.fits
  | .idleFrame node b f => decide (node < 182) && decide (b < 5) && f.fits
  | .hurdleFrame node b f => decide (node < 182) && decide (b < 5) && f.fits
  | .paceFrame node b f => decide (node < 182) && decide (b < 5) && f.fits
  | .timeFrame node b f => decide (node < 182) && decide (b < 5) && f.fits
  | .downFrame node b f => decide (node < 182) && decide (b < 5) && f.fits
  | .frameNak node b f => decide (node < 182) && decide (b < 5) && f.fits
  | .ackTimeout node b => decide (node < 182) && decide (b < 5)
  | .ethDatagram node b _ _ => decide (node < 182) && decide (b < 5)
  | .knockSend node b => decide (node < 182) && decide (b < 5)
  | .wakeLimitExpiry node b => decide (node < 182) && decide (b < 5)
  | .peerRequest node b cls => decide (node < 182) && decide (b < 5) && decide (1 ≤ cls) && decide (cls ≤ 5)
  | .peerPenReq node b => decide (node < 182) && decide (b < 5)
  | .transitPacket node b cls => decide (node < 182) && decide (b < 5) && decide (1 ≤ cls) && decide (cls ≤ 5)
  | .cascadeJoin tag panel => decide (tag < 64) && decide (panel < 4096)
  | .joinExpiry tag => decide (tag < 64)
  | .paceReport tag => decide (tag < 64)
  | .paceApply tag => decide (tag < 64)
  | .memberLost tag panel => decide (tag < 64) && decide (panel < 4096)
  | .timeExchange node b _ _ _ _ => decide (node < 182) && decide (b < 5)
  | .flr hub => (hub == 180 || hub == 181)
  | .perst hub => (hub == 180 || hub == 181)
  | .bar2Access hub tag off n _ => (hub == 180 || hub == 181) && decide (tag ≤ 1023) && decide (off + n ≤ 2 ^ 36)
  | .bar2WinWrite a => a.fits
  | .hostCompletionTimeout hub tag => (hub == 180 || hub == 181) && decide (tag < 64)
  | .sqDoorbell hub tag off n _ => (hub == 180 || hub == 181) && decide (tag ≤ 1023) && decide (off + n ≤ 0x10000)
  | .cqDoorbell hub tag off n _ => (hub == 180 || hub == 181) && decide (tag ≤ 1023) && decide (0x10000 ≤ off) && decide (off + n ≤ 2 ^ 20)
  | .sqFetch hub => (hub == 180 || hub == 181)
  | .sqDescriptor => true
  | .cqEntryWrite hub _ => (hub == 180 || hub == 181)
  | .sqCfgWrite a => a.fits
  | .hostcfgWrite a => a.fits
  | .guestPacket hub p _ => (hub == 180 || hub == 181) && p.fits
  | .guestLinkDown hub => (hub == 180 || hub == 181)
  | .guestDoorbell hub => (hub == 180 || hub == 181)
  | .guestInterrupt hub _ => (hub == 180 || hub == 181)
  | .registerWrite a => a.fits
  | .unitEnable a => a.fits
  | .resetReq a => a.fits
  | .quiesce a => a.fits
  | .drainComplete node page => decide (node < 182) && decide (page < 64)
  | .selfTestDone node page _ => decide (node < 182) && decide (page < 64)
  | .errInject a => a.fits
  | .lock a => a.fits
  | .assistPost _ => true
  | .assistReply a => a.fits
  | .assistDeadline _ => true
  | .mctpRegRead payload _ => decide (payload.length ≤ 1024)
  | .mctpRegWrite payload _ => decide (payload.length ≤ 1024)
  | .getState payload _ => decide (payload.length ≤ 1024)
  | .setBudget payload _ => decide (payload.length ≤ 1024)
  | .getEnergy payload _ => decide (payload.length ≤ 1024)
  | .logRead payload _ => decide (payload.length ≤ 1024)
  | .mctpAssistReply payload _ => decide (payload.length ≤ 1024)
  | .mctpControl _ cmd payload => decide (cmd < 256) && decide (payload.length ≤ 1024)
  | .pldmRequest _ _ cmd payload => decide (cmd < 256) && decide (payload.length ≤ 1024)
  | .platformEvent sensor => decide (1 ≤ sensor) && decide (sensor ≤ 30)
  | .dynamicAddress _ => true
  | .refclkLoss _ => true
  | .freqChangeStart node => decide (node < 182)
  | .pllLock node => decide (node < 182)
  | .pllLockFail node _ => decide (node < 182)
  | .targetRecompute node _ _ => decide (node < 182)
  | .droopCrossing node => decide (node < 182)
  | .droopRecovery node => decide (node < 182)
  | .beaconSend => true
  | .beaconReceive node _ => decide (node < 182)
  | .timeStep _ => true
  | .ppsEdge _ => true
  | .timRateWrite a => a.fits
  | .railFault node _ => decide (node < 182)
  | .vinCoreLoss _ _ => true
  | .contactMeasure node _ => decide (node < 182)
  | .efficiencyLoop node _ _ => decide (node < 182)
  | .budgetLoop _ _ => true
  | .budgetGuard _ => true
  | .shareWrite a => a.fits
  | .budgetWrite a => a.fits
  | .throttleAssert => true
  | .throttleRelease => true
  | .thermalSample node _ _ _ _ => decide (node < 182)
  | .regionThermalRestart node => decide (node < 182)
  | .panelStop _ => true
  | .airflowLoss => true
  | .panelResume => true
  | .forecast _ _ => true
  | .fcHostWrite a => a.fits
  | .energyInterval node _ _ => decide (node < 182)
  | .regionIdleEntry node => decide (node < 182)
  | .regionIdleExit node => decide (node < 182)
  | .napEntry node _ => decide (node < 182)
  | .napExit node => decide (node < 182)
  | .standbyReq a _ => a.fits
  | .panelWake => true
  | .wakeN => true
  | .wakeTimer => true
  | .probeFinding node => decide (node < 182)
  | .probeAttempt node _ _ => decide (node < 182)
  | .loopbackTest node _ => decide (node < 182)
  | .regionRetire node => decide (node < 182)
  | .sparePowered node => decide (node < 182)
  | .spareKatDone node _ => decide (node < 182)
  | .unitReset node _ => decide (node < 182)
  | .heartbeat hub _ _ => (hub == 180 || hub == 181)
  | .heartbeatLoss hub => (hub == 180 || hub == 181)
  | .handoverMaster => true
  | .beaconAbsent => true
  | .logReport => true
  | .logSpill _ => true
  | .logScrub _ _ => true
  | .logHringHead a => a.fits
  | .panelResetRelease _ => true
  | .panelResetAssert => true
  | .pwrEnDeassert => true
  | .computeReset a => a.fits
  | .panelReset a => a.fits
  | .update a => a.fits
  | .forceFullWrite a => a.fits
  | .resume a => a.fits
  | .step a => a.fits
  | .freeze a => a.fits
  | .thaw a => a.fits
  | .debugModeWrite a => a.fits
  | .dbgAccGo a => a.fits
  | .rebase a _ => a.fits
  | .railFrame _ _ => true
  | .ctlWaitTimePassed q => q.fits
  | .holdupCharged => true
  | .vaonPresent => true
  | .perstRelease hub => (hub == 180 || hub == 181)
  | .sxInstruction node blk => decide (node < 182) && decide (blk < 4)

end Sys2Proof
end

