-- ==== Sys2Proof/Tests/Slice0.lean ====
section
/-!
SUPPORT. Tests: an ill-formed command for each check of WellFormed, worked examples of the spec, and for every statement a state and operands that
meet its hypotheses. Each `decide` evaluates a Boolean form of the hypotheses on a small state.
-/
namespace Sys2Proof.Tests

set_option Elab.async false
open Sys2Proof.Machine

/-! ## Well-formed commands -/

/-- A packet whose fields all fit. -/
def pkt : Packet := { op := .readReq, cls := 2 }
def que : QueueRef := ⟨0, 0, 0, 0⟩
def acc : RegAccess := ⟨.H, 0, 0, 0, 8, 0⟩

/-- A bad packet, queue, thread or access makes its command ill-formed. -/
theorem test_wf_refuses_a_packet_field :
    [{ pkt with cls := 8 }, { pkt with vch := 2 }, { pkt with epoch := 2 }, { pkt with len := 9 }, { pkt with dest := 256 }, { pkt with src := 256 },
      { pkt with jobTag := 65 }, { pkt with prio := 4 }, { pkt with srcUnit := 256 }, { pkt with txn := 65536 }, { pkt with addr := 2 ^ 48 },
      { pkt with status := 16 }, { pkt with mcMask := 2 ^ 13 }, { pkt with mcAxis := 2 }, { pkt with mcDir := 2 }, { pkt with hops := 256 },
      { pkt with oparg0 := 2 ^ 64 }, { pkt with oparg1 := 2 ^ 64 }, { pkt with injTime := 2 ^ 64 }, { pkt with byteMask := 2 ^ 64 },
      { pkt with len := 1 }].all (fun p => !(Instr.readReq p).wf) = true ∧ (Instr.readReq pkt).wf = true := by decide +kernel

theorem test_wf_refuses_a_queue :
    [QueueRef.mk 0 0 0 4, ⟨156, 0, 0, 0⟩, ⟨0, 4, 0, 0⟩, ⟨0, 0, 5, 0⟩, ⟨156, 1, 5, 0⟩, ⟨180, 0, 5, 0⟩].all (fun q => !(Instr.ctlNop q).wf) = true ∧
      (Instr.ctlNop que).wf = true ∧ (Instr.dveCommit ⟨156, 0, 5, 3⟩).wf = true := by decide +kernel

theorem test_wf_refuses_a_thread :
    [ThreadRef.mk 156 0 0 0, ⟨0, 4, 0, 0⟩, ⟨0, 0, 14, 0⟩, ⟨0, 0, 0, 256⟩].all (fun t => !(Instr.vadd t).wf) = true ∧
      (Instr.vadd ⟨155, 3, 13, 255⟩).wf = true := by decide +kernel

theorem test_wf_refuses_an_access :
    [{ acc with node := 182 }, { acc with page := 64 }, { acc with n := 0 }, { acc with off := 4089 }, { acc with v := 2 ^ 64 }].all
      (fun a => !(Instr.registerWrite a).wf) = true ∧ (Instr.registerWrite acc).wf = true := by decide +kernel

theorem test_wf_refuses_a_frame :
    [Frame.mk 8 0 false 0 0 true .idle, ⟨0, 64, false, 0, 0, true, .idle⟩, ⟨0, 0, false, 2 ^ 24, 0, true, .idle⟩,
      ⟨0, 0, false, 0, 2 ^ 24, true, .idle⟩].all (fun f => !(Instr.idleFrame 156 0 f).wf) = true ∧
      (Instr.idleFrame 156 0 {}).wf = true := by decide +kernel

/-- Every bound of an operand that stands by itself refuses the first value outside it. -/
theorem test_wf_refuses_an_operand :
    [Instr.packetInject 182 pkt 0, .flitCrcError 182 0 0 0 0, .flitCrcError 0 7 0 0 0, .flitCrcError 0 0 16 0 0, .requestTimeout 0 256 0,
      .requestTimeout 0 0 65536, .suspectMark 182, .roundsRotation 0 4, .roundsRotation 182 0, .taskPost 179 none 0 0, .taskPost 180 none 64 0,
      .taskPost 180 (some ⟨0, 4, 0, 0⟩) 0 0, .taskDone 180 8 0 0, .penWaitExpiry 0 0 0 65536, .holderWaitExpiry 0 256].all (fun i => !i.wf) = true ∧
    [Instr.stackTempRead 24 0, .stackScrubPass 24, .linkWakeEvent 156 5 .signal, .peerRequest 156 0 0, .peerRequest 156 0 6, .cascadeJoin 64 0,
      .cascadeJoin 0 4096, .joinExpiry 64, .flr 182, .bar2Access 180 1024 0 4 none, .bar2Access 180 0 (2 ^ 36) 4 none].all (fun i => !i.wf) = true ∧
    [Instr.sqDoorbell 180 0 0xFFFE 4 none, .cqDoorbell 180 0 0xFFFF 4 none, .cqDoorbell 180 0 0xFFFFE 4 none, .drainComplete 0 64,
      .getState (List.replicate 1025 0) 0, .mctpControl 0 256 [], .pldmRequest 0 0 256 [], .platformEvent 0, .platformEvent 31,
      .epochFlip 182, .heartbeat 0 true true, .sxInstruction 0 4].all (fun i => !i.wf) = true := by decide +kernel

/-! ## Vector threads -/

/-- Eight columns; node 0 is logical region 0. -/
def mapped : State :=
  (((State.reset.put F.hubGeometry_lcols 180 0 0 8).put F.rgnSite_lnum 0 0 0 0).setWord .rtrMap0 0 0 0 0).setWord .rtrMap0 180 0 0 0

/-- Region 0 runs, with block 0. -/
def upRegion : State := ((mapped.put F.rgnSite_role 0 0 0 0).setUnit 0 0 .running).setUnit 0 (pageOf .blk 0 0) .running

def t0 : ThreadRef := ⟨0, 0, 0, 0⟩

/-- A launch whose program is one word. -/
def launch0 (w : Nat) : Launch :=
  { id := 0, q := ⟨0, 0, 1, 0⟩, tag := 1, image := [w], imageAddr := 0, instrs := 1, regs := 16, threads := 1, groups := 1, lmem := 0,
    ctRead := 0, ctWrite := 0xFFFF, arg := 0, checked := false, started := true, placed := 1 }

/-- Its thread: s1 and s2 name partial sums and activations of the own block, s3 host memory, s4 a count of 64. -/
def thread0 : Thread :=
  { launch := 0, group := 0, index := 0, s := [0, 0x100001000000, 0x100000000000, 0x300000000000, 64] ++ List.replicate 11 0 }

/-- The thread stands at the instruction `w`. -/
def vec0 (w : Nat) : State := upRegion.modBlock 0 0 fun b => { b with launches := [launch0 w], threads := [(t0.key, thread0)] }

/-- A word of an opcode: registers `d`, `a`, `b` where the opcode has such a field, else 0. -/
def word (op pg fn d a b : Nat) (imm : Int := 0) : Nat :=
  match insSpec op with
  | none => 0
  | some sp =>
    let i : Ins := ⟨op, sp.fmt, pg, fn, d, a, b, imm⟩
    let f := fun (k x : Nat) => if i.roles[k]? = some .u then 0 else x
    encodeIns { i with d := f 0 d, a := f 1 a, b := f 2 b }

/-- The hypotheses on a thread's instruction, as a Boolean. -/
def issues (s : State) (op : Nat) (ok : VCtx → Bool := fun _ => true) : Bool :=
  match s.vecCtx t0 with
  | some c => c.i.op == op && !c.i.illegal && c.i.vregs.all (fun r => decide (r < c.l.regs)) && ok c
  | none => false

theorem issues_of {s : State} {op : Nat} {ok : VCtx → Bool} (h : issues s op ok = true) : ∃ c, Issues s t0 op c ∧ ok c = true := by
  unfold issues at h
  split at h
  · next c hc =>
    simp only [Bool.and_eq_true, beq_iff_eq, Bool.not_eq_true', List.all_eq_true, decide_eq_true_eq] at h
    exact ⟨c, ⟨by decide, by decide, hc, h.1.1.1, h.1.1.2, fun r hr => h.1.2 r hr⟩, h.2⟩
  · cases h

/-- VectorRegisterRows: every row issues, VSH with a clean count. -/
theorem test_lane_rows_issue : ∀ r ∈ laneRows, ∃ w c, Issues (vec0 w) t0 r.op c ∧ (r.op = 0x0B → c.badVec c.i.b = false) := by
  have h : laneRows.all (fun r => issues (vec0 (word r.op 4 0 1 2 3)) r.op fun c => r.op != 0x0B || c.badVec c.i.b == false) = true := by decide +kernel
  intro r hr
  obtain ⟨c, hc, ho⟩ := issues_of (List.all_eq_true.mp h r hr)
  exact ⟨_, c, hc, fun e => by simpa [e] using ho⟩

/-- ScalarAndPredicateRows, BranchesAndIllegalInstructions: every row issues. -/
theorem test_scalar_rows_issue : ∀ r ∈ scalarRows, ∃ w c, Issues (vec0 w) t0 r.op c := fun r hr =>
  have h : scalarRows.all (fun r => issues (vec0 (word r.op 0 0 1 2 3)) r.op) = true := by decide +kernel
  (issues_of (List.all_eq_true.mp h r hr)).elim fun c hc => ⟨_, c, hc.1⟩
theorem test_mask_rows_issue : ∀ r ∈ maskRows, ∃ w c, Issues (vec0 w) t0 r.op c := fun r hr =>
  have h : maskRows.all (fun r => issues (vec0 (word r.op 0 0 1 2 3)) r.op) = true := by decide +kernel
  (issues_of (List.all_eq_true.mp h r hr)).elim fun c hc => ⟨_, c, hc.1⟩
theorem test_branch_rows_issue : ∀ r ∈ branchRows, ∃ w c, Issues (vec0 w) t0 r.op c := fun r hr =>
  have h : branchRows.all (fun r => issues (vec0 (word r.op 0 0 1 2 3)) r.op) = true := by decide +kernel
  (issues_of (List.all_eq_true.mp h r hr)).elim fun c hc => ⟨_, c, hc.1⟩

/-- The thread with a poisoned scalar. -/
def vec1 (w : Nat) : State :=
  upRegion.modBlock 0 0 fun b => { b with launches := [launch0 w], threads := [(t0.key, { thread0 with badS := [5] })] }

/-- ScalarAndQuantisationRowsWithFreeValues, clause by clause: VRED; SOP on whole counts, at 63 and at 64, with a poisoned count; SRD of each source. -/
theorem test_scalar_free_rows_issue :
    (∃ w c, Issues (vec0 w) t0 0x14 c) ∧
    (∃ w c, Issues (vec0 w) t0 0x1C c ∧ (6 ≤ c.i.fn → c.badScalar c.i.b = false ∧ c.th.scalar c.i.b < 64)) ∧
    (∃ w c, Issues (vec0 w) t0 0x1C c ∧ 6 ≤ c.i.fn ∧ c.badScalar c.i.b = false ∧ 64 ≤ c.th.scalar c.i.b) ∧
    (∃ w c, Issues (vec1 w) t0 0x1C c ∧ 6 ≤ c.i.fn ∧ c.badScalar c.i.b = true) ∧
    (∃ w c, Issues (vec0 w) t0 0x1E c ∧ c.i.fn ≠ 1) ∧ (∃ w c, Issues (vec0 w) t0 0x1E c ∧ c.i.fn = 1) := by
  have h : issues (vec0 (word 0x14 0 0 1 2 0)) 0x14 = true ∧
      issues (vec0 (word 0x1C 0 6 1 2 5)) 0x1C (fun c => c.badScalar c.i.b == false && decide (c.th.scalar c.i.b < 64)) = true ∧
      issues (vec0 (word 0x1C 0 7 1 2 4)) 0x1C (fun c => decide (6 ≤ c.i.fn) && c.badScalar c.i.b == false && decide (64 ≤ c.th.scalar c.i.b)) = true ∧
      issues (vec1 (word 0x1C 0 6 1 2 5)) 0x1C (fun c => decide (6 ≤ c.i.fn) && c.badScalar c.i.b) = true ∧
      issues (vec0 (word 0x1E 0 4 1 0 0)) 0x1E (fun c => c.i.fn != 1) = true ∧
      issues (vec0 (word 0x1E 0 1 1 0 0)) 0x1E (fun c => c.i.fn == 1) = true := by decide +kernel
  obtain ⟨h1, h2, h3, h4, h5, h6⟩ := h
  obtain ⟨c1, k1, -⟩ := issues_of h1
  obtain ⟨c2, k2, o2⟩ := issues_of h2
  obtain ⟨c3, k3, o3⟩ := issues_of h3
  obtain ⟨c4, k4, o4⟩ := issues_of h4
  obtain ⟨c5, k5, o5⟩ := issues_of h5
  obtain ⟨c6, k6, o6⟩ := issues_of h6
  simp only [Bool.and_eq_true, beq_iff_eq, decide_eq_true_eq, bne_iff_ne] at o2 o3 o4 o5 o6
  exact ⟨⟨_, c1, k1⟩, ⟨_, c2, k2, fun _ => o2⟩, ⟨_, c3, k3, o3.1.1, o3.1.2, o3.2⟩, ⟨_, c4, k4, o4⟩, ⟨_, c5, k5, o5⟩, ⟨_, c6, k6, o6⟩⟩

/-- ScalarAndQuantisationRowsWithFreeValues: VQNT of T5 with a seed, VDQNT of T5 and of FP8. -/
theorem test_quantisation_rows_issue :
    (∃ w c, Issues (vec0 w) t0 0x11 c ∧ c.i.fn = 6) ∧ (∃ w c, Issues (vec0 w) t0 0x12 c ∧ c.i.fn = 6) ∧
    (∃ w c, Issues (vec0 w) t0 0x12 c ∧ c.i.fn = 0) := by
  have h : issues (vec0 (word 0x11 0 6 1 2 3)) 0x11 (fun c => c.i.fn == 6) = true ∧
      issues (vec0 (word 0x12 0 6 1 2 3)) 0x12 (fun c => c.i.fn == 6) = true ∧
      issues (vec0 (word 0x12 0 0 1 2 3)) 0x12 (fun c => c.i.fn == 0) = true := by decide +kernel
  obtain ⟨c1, k1, o1⟩ := issues_of h.1
  obtain ⟨c2, k2, o2⟩ := issues_of h.2.1
  obtain ⟨c3, k3, o3⟩ := issues_of h.2.2
  exact ⟨⟨_, c1, k1, by simpa using o1⟩, ⟨_, c2, k2, by simpa using o2⟩, ⟨_, c3, k3, by simpa using o3⟩⟩
/-- A ready thread at an instruction, legal or not. -/
def stands (s : State) (ok : VCtx → Bool) : Bool := match s.vecCtx t0 with | some c => ok c | none => false

theorem stands_of {s : State} {ok : VCtx → Bool} (h : stands s ok = true) : ∃ c, s.vecCtx t0 = some c ∧ ok c = true := by
  unfold stands at h
  split at h
  · next c hc => exact ⟨c, hc, h⟩
  · cases h

/-- BranchesAndIllegalInstructions: a ready thread at an unassigned opcode, at an illegal VADD, at a VADD that names v16 of 16 registers, at an illegal
branch. -/
theorem test_illegal_instructions_are_met :
    (∃ w c, (vec0 w).vecCtx t0 = some c ∧ (insSpec c.i.op).isNone = true) ∧
    (∃ w c, (vec0 w).vecCtx t0 = some c ∧ c.i.op = 0x00 ∧ c.i.illegal = true) ∧
    (∃ w c, (vec0 w).vecCtx t0 = some c ∧ c.i.op = 0x00 ∧ c.i.illegal = false ∧ ∃ q ∈ c.i.vregs, c.l.regs ≤ q) ∧
    (∃ w c, (vec0 w).vecCtx t0 = some c ∧ c.i.op = 0x34 ∧ c.i.illegal = true) := by
  have h : stands (vec0 0xFC) (fun c => (insSpec c.i.op).isNone) = true ∧
      stands (vec0 3) (fun c => c.i.op == 0x00 && c.i.illegal) = true ∧
      stands (vec0 (encodeIns ⟨0, 0, 0, 0, 16, 0, 0, 0⟩)) (fun c => c.i.op == 0x00 && c.i.illegal == false && c.i.vregs.any fun q => decide (c.l.regs ≤ q)) = true ∧
      stands (vec0 (encodeIns ⟨0x34, 0, 0, 0, 0, 0, 0, 0⟩)) (fun c => c.i.op == 0x34 && c.i.illegal) = true := by decide +kernel
  obtain ⟨c0, k0, o0⟩ := stands_of h.1
  obtain ⟨c1, k1, o1⟩ := stands_of h.2.1
  obtain ⟨c2, k2, o2⟩ := stands_of h.2.2.1
  obtain ⟨c3, k3, o3⟩ := stands_of h.2.2.2
  simp only [Bool.and_eq_true, beq_iff_eq, List.any_eq_true, decide_eq_true_eq] at o1 o2 o3
  exact ⟨⟨_, c0, k0, o0⟩, ⟨_, c1, k1, o1⟩, ⟨_, c2, k2, o2.1.1, o2.1.2, o2.2⟩, ⟨_, c3, k3, o3⟩⟩

/-- The offsets, where every lane is reached. -/
def reached (e : Except Nat (List (Nat × Nat))) : Bool := match e with | .ok _ => true | .error _ => false

theorem of_reached {e : Except Nat (List (Nat × Nat))} (h : reached e = true) : ∃ offs, e = .ok offs := by
  cases e with
  | ok offs => exact ⟨offs, rfl⟩
  | error _ => cases h

/-- LocalLoads: VLD of words from partial sums, VLDX, SLD. -/
theorem test_local_loads_issue :
    (∃ s c offs, Issues s t0 0x28 c ∧ c.badScalar c.i.a = false ∧ c.addr 128 % elemSize c.i.fn = 0 ∧
      s.reachAll c .load (elemSize c.i.fn) (c.lanesAt fun i => c.addr 128 + i * elemSize c.i.fn) = .ok offs) ∧
    (∃ s c offs, Issues s t0 0x2A c ∧ c.badScalar c.i.a = false ∧ c.badVec c.i.d = false ∧
      s.reachAll c .load 4 (c.lanesAt fun i => c.th.scalar c.i.a + c.lane c.i.d i) = .ok offs) ∧
    (∃ s c off, Issues s t0 0x2C c ∧ c.badScalar c.i.a = false ∧ c.addr 8 % 8 = 0 ∧ s.ownLoc c .load (c.addr 8) 8 = some off) := by
  have h : (let s := vec0 (word 0x28 0 0 1 1 0); issues s 0x28 fun c => c.badScalar c.i.a == false && c.addr 128 % elemSize c.i.fn == 0 &&
        reached (s.reachAll c .load (elemSize c.i.fn) (c.lanesAt fun i => c.addr 128 + i * elemSize c.i.fn))) = true ∧
      (let s := vec0 (word 0x2A 0 0 1 1 0); issues s 0x2A fun c => c.badScalar c.i.a == false && c.badVec c.i.d == false &&
        reached (s.reachAll c .load 4 (c.lanesAt fun i => c.th.scalar c.i.a + c.lane c.i.d i))) = true ∧
      (let s := vec0 (word 0x2C 0 0 1 1 0); issues s 0x2C fun c => c.badScalar c.i.a == false && c.addr 8 % 8 == 0 &&
        (s.ownLoc c .load (c.addr 8) 8).isSome) = true := by decide +kernel
  obtain ⟨c1, k1, o1⟩ := issues_of h.1
  obtain ⟨c2, k2, o2⟩ := issues_of h.2.1
  obtain ⟨c3, k3, o3⟩ := issues_of h.2.2
  simp only [Bool.and_eq_true, beq_iff_eq] at o1 o2 o3
  obtain ⟨x1, e1⟩ := of_reached o1.2
  obtain ⟨x2, e2⟩ := of_reached o2.2
  obtain ⟨x3, e3⟩ := Option.isSome_iff_exists.mp o3.2
  exact ⟨⟨_, c1, x1, k1, o1.1.1, o1.1.2, e1⟩, ⟨_, c2, x2, k2, o2.1.1, o2.1.2, e2⟩, ⟨_, c3, x3, k3, o3.1.1, o3.1.2, e3⟩⟩

/-- LocalStores, into partial sums; an empty mask stores nothing. -/
theorem test_local_stores_issue :
    (∃ s c off, Issues s t0 0x2D c ∧ c.badScalar c.i.a = false ∧ c.addr 8 % 8 = 0 ∧ s.ownLoc c .store (c.addr 8) 8 = some off) ∧
    (∃ s c offs, Issues s t0 0x29 c ∧ c.badScalar c.i.a = false ∧ c.addr 128 % elemSize c.i.fn = 0 ∧
      s.reachAll c .store (elemSize c.i.fn) (c.lanesAt fun i => c.addr 128 + i * elemSize c.i.fn) = .ok offs) ∧
    (∃ s c offs, Issues s t0 0x2B c ∧ c.badScalar c.i.a = false ∧ c.badVec c.i.d = false ∧
      s.reachAll c .store (elemSize c.i.fn) (c.lanesAt fun i => c.th.scalar c.i.a + c.lane c.i.d i) = .ok offs) ∧
    (∃ s c offs, Issues s t0 0x31 c ∧ c.badScalar c.i.a = false ∧ c.badVec c.i.d = false ∧
      s.reachAll c .store 4 (c.lanesAt fun i => c.th.scalar c.i.a + c.lane c.i.d i) = .ok offs) := by
  have h : (let s := vec0 (word 0x2D 0 0 1 1 0); issues s 0x2D fun c => c.badScalar c.i.a == false && c.addr 8 % 8 == 0 &&
        (s.ownLoc c .store (c.addr 8) 8).isSome) = true ∧
      (let s := vec0 (word 0x29 0 2 1 1 0); issues s 0x29 fun c => c.badScalar c.i.a == false && c.addr 128 % elemSize c.i.fn == 0 &&
        reached (s.reachAll c .store (elemSize c.i.fn) (c.lanesAt fun i => c.addr 128 + i * elemSize c.i.fn))) = true ∧
      (let s := vec0 (word 0x2B 0 0 1 1 0); issues s 0x2B fun c => c.badScalar c.i.a == false && c.badVec c.i.d == false &&
        reached (s.reachAll c .store (elemSize c.i.fn) (c.lanesAt fun i => c.th.scalar c.i.a + c.lane c.i.d i))) = true ∧
      (let s := vec0 (word 0x31 0 3 1 1 0); issues s 0x31 fun c => c.badScalar c.i.a == false && c.badVec c.i.d == false &&
        reached (s.reachAll c .store 4 (c.lanesAt fun i => c.th.scalar c.i.a + c.lane c.i.d i))) = true := by decide +kernel
  obtain ⟨c0, k0, o0⟩ := issues_of h.1
  obtain ⟨c1, k1, o1⟩ := issues_of h.2.1
  obtain ⟨c2, k2, o2⟩ := issues_of h.2.2.1
  obtain ⟨c3, k3, o3⟩ := issues_of h.2.2.2
  simp only [Bool.and_eq_true, beq_iff_eq] at o0 o1 o2 o3
  obtain ⟨x0, e0⟩ := Option.isSome_iff_exists.mp o0.2
  obtain ⟨x1, e1⟩ := of_reached o1.2
  obtain ⟨x2, e2⟩ := of_reached o2.2
  obtain ⟨x3, e3⟩ := of_reached o3.2
  exact ⟨⟨_, c0, x0, k0, o0.1.1, o0.1.2, e0⟩, ⟨_, c1, x1, k1, o1.1.1, o1.1.2, e1⟩, ⟨_, c2, x2, k2, o2.1.1, o2.1.2, e2⟩,
    ⟨_, c3, x3, k3, o3.1.1, o3.1.2, e3⟩⟩

/-- The block holds a pen over the first activations of block 1 of its region. -/
def vecPen (w : Nat) : State :=
  (vec0 w).updPens 0 0 { holders := [{ txn := 0, unit := 0, tag := 1, dest := 0, units := 1, base := 0x100000000000, granted := true }] }

/-- RemoteAccesses: host memory, or a held pen. -/
theorem test_remote_accesses_issue :
    (∃ s c, Issues s t0 0x2E c ∧ c.badScalar c.i.a = false ∧ c.addr 128 % 4 = 0 ∧ s.remoteRead c (c.addr 128) = true ∧ s.replySlots t0 < 64) ∧
    (∃ s c, Issues s t0 0x32 c ∧ c.badScalar c.i.a = false ∧ c.badScalar c.i.d = false ∧ c.addr 8 % 4 = 0 ∧ s.remoteAt c (c.addr 8) 4 = .plain) ∧
    (∃ s c, Issues s t0 0x32 c ∧ c.badScalar c.i.a = false ∧ c.badScalar c.i.d = false ∧ c.addr 8 % 4 = 0 ∧ s.remoteAt c (c.addr 8) 4 = .pen) ∧
    (∃ s c, Issues s t0 0x2F c ∧ c.badScalar c.i.a = false ∧ c.addr 128 % 4 = 0 ∧ s.remoteAt c (c.addr 128) 128 = .plain) ∧
    (∃ s c, Issues s t0 0x30 c ∧ c.badScalar c.i.a = false ∧ c.addr 128 % 4 = 0 ∧ s.remoteAt c (c.addr 128) 128 = .pen) := by
  have h : (let s := vec0 (word 0x2E 0 0 1 3 0); issues s 0x2E fun c => c.badScalar c.i.a == false && c.addr 128 % 4 == 0 &&
        s.remoteRead c (c.addr 128) && decide (s.replySlots t0 < 64)) = true ∧
      (let s := vec0 (word 0x32 0 0 1 3 0); issues s 0x32 fun c => c.badScalar c.i.a == false && c.badScalar c.i.d == false && c.addr 8 % 4 == 0 &&
        s.remoteAt c (c.addr 8) 4 == .plain) = true ∧
      (let s := vecPen (word 0x32 0 0 1 2 0); issues s 0x32 fun c => c.badScalar c.i.a == false && c.badScalar c.i.d == false && c.addr 8 % 4 == 0 &&
        s.remoteAt c (c.addr 8) 4 == .pen) = true ∧
      (let s := vec0 (word 0x2F 0 0 1 3 0); issues s 0x2F fun c => c.badScalar c.i.a == false && c.addr 128 % 4 == 0 &&
        s.remoteAt c (c.addr 128) 128 == .plain) = true ∧
      (let s := vecPen (word 0x30 0 0 1 2 0); issues s 0x30 fun c => c.badScalar c.i.a == false && c.addr 128 % 4 == 0 &&
        s.remoteAt c (c.addr 128) 128 == .pen) = true := by decide +kernel
  obtain ⟨c0, k0, o0⟩ := issues_of h.1
  obtain ⟨c1, k1, o1⟩ := issues_of h.2.1
  obtain ⟨c2, k2, o2⟩ := issues_of h.2.2.1
  obtain ⟨c3, k3, o3⟩ := issues_of h.2.2.2.1
  obtain ⟨c4, k4, o4⟩ := issues_of h.2.2.2.2
  simp only [Bool.and_eq_true, beq_iff_eq, decide_eq_true_eq] at o0 o1 o2 o3 o4
  exact ⟨⟨_, c0, k0, o0.1.1.1, o0.1.1.2, o0.1.2, o0.2⟩, ⟨_, c1, k1, o1.1.1.1, o1.1.1.2, o1.1.2, o1.2⟩, ⟨_, c2, k2, o2.1.1.1, o2.1.1.2, o2.1.2, o2.2⟩,
    ⟨_, c3, k3, o3.1.1, o3.1.2, o3.2⟩, ⟨_, c4, k4, o4.1.1, o4.1.2, o4.2⟩⟩

/-- A block whose gate unit remembers a select of one token. -/
def vecGate (w : Nat) : State := (vec0 w).modBlock 0 0 fun b => { b with selects := [⟨0, 0x1000, 1, 1, 8⟩] }

/-- CurveGateAndControlRows: a table of zeros, a token's first and its last expert, the record of token 0. -/
theorem test_curve_and_gate_rows_issue :
    (∃ s c off, Issues s t0 0x33 c ∧ c.badScalar c.i.a = false ∧ bit c.l.ctWrite c.i.d = true ∧ c.addr 16 % 16 = 0 ∧
      s.ownLoc c .table (c.addr 16) 1040 = some off ∧ bits (leNat (s.mem.read (blkKeyAt c.t.node c.t.blk off) 1040)) 64 8 ≤ 1) ∧
    (∃ s c, Issues s t0 0x18 c ∧ s.selecting 0 0 true = false ∧ c.badScalar c.i.d = false ∧ c.badScalar c.i.b = false ∧ c.th.scalar c.i.d ≤ 4095 ∧
      ∀ i ∈ setBits 32 c.mask, (c.th.scalar c.i.b + i) % 2 ^ 64 ≤ 1023) ∧
    (∃ s c x rest, Issues s t0 0x19 c ∧ s.selecting 0 0 false = false ∧ c.badScalar c.i.a = false ∧ (s.block 0 0).selects = x :: rest ∧
      c.th.scalar c.i.a < x.tokens ∧ s.mayReadAS c.who 0 0 (x.recOff + 64 * c.th.scalar c.i.a) 64 = true ∧
      s.mayReadAS c.who 0 0 (x.statusOff + 2 * c.th.scalar c.i.a) 2 = true) := by
  have h : (let s := vec0 (word 0x33 0 0 1 2 0); issues s 0x33 fun c => c.badScalar c.i.a == false && bit c.l.ctWrite c.i.d && c.addr 16 % 16 == 0 &&
        (match s.ownLoc c .table (c.addr 16) 1040 with
          | some off => decide (bits (leNat (s.mem.read (blkKeyAt c.t.node c.t.blk off) 1040)) 64 8 ≤ 1) | none => false)) = true ∧
      (let s := vec0 (word 0x18 0 0 5 1 4); issues s 0x18 fun c => s.selecting 0 0 true == false && c.badScalar c.i.d == false &&
        c.badScalar c.i.b == false && decide (c.th.scalar c.i.d ≤ 4095) && (setBits 32 c.mask).all fun i => decide ((c.th.scalar c.i.b + i) % 2 ^ 64 ≤ 1023)) = true ∧
      (let s := vecGate (word 0x19 0 0 1 5 0); issues s 0x19 fun c => s.selecting 0 0 false == false && c.badScalar c.i.a == false &&
        (match (s.block 0 0).selects with
          | x :: _ => decide (c.th.scalar c.i.a < x.tokens) && s.mayReadAS c.who 0 0 (x.recOff + 64 * c.th.scalar c.i.a) 64 &&
            s.mayReadAS c.who 0 0 (x.statusOff + 2 * c.th.scalar c.i.a) 2
          | [] => false)) = true := by decide +kernel
  obtain ⟨c0, k0, o0⟩ := issues_of h.1
  obtain ⟨c1, k1, o1⟩ := issues_of h.2.1
  obtain ⟨c2, k2, o2⟩ := issues_of h.2.2
  simp only [Bool.and_eq_true, beq_iff_eq, decide_eq_true_eq, List.all_eq_true] at o0 o1 o2
  refine ⟨?_, ⟨_, c1, k1, o1.1.1.1.1, o1.1.1.1.2, o1.1.1.2, o1.1.2, o1.2⟩, ?_⟩
  · have := o0.2
    split at this
    · next off ho => exact ⟨_, c0, off, k0, o0.1.1.1, o0.1.1.2, o0.1.2, ho, by simpa using this⟩
    · cases this
  · have := o2.2
    split at this
    · next x rest hx =>
      simp only [Bool.and_eq_true, decide_eq_true_eq] at this
      exact ⟨_, c2, x, rest, k2, o2.1.1, o2.1.2, hx, this.1.1, this.1.2, this.2⟩
    · cases this

/-- A job with a panel hurdle that awaits one arrival. -/
def job0 : Job := { hurdles := [{ id := 0xA000, inst := 0, blk := 0, need := 1 }], lists := [{ q := ⟨0, 0, 1, 0⟩, addr := 0, started := true }] }
def vecHurdle (w : Nat) : State := (vec0 w).setJob 1 job0

/-- A thread that has yielded; a thread of a checked launch. -/
def vecYield (w : Nat) : State :=
  upRegion.modBlock 0 0 fun b => { b with launches := [launch0 w], threads := [(t0.key, { thread0 with park := .yield })] }
def vecPair (w : Nat) : State :=
  upRegion.modBlock 0 0 fun b => { b with launches := [{ launch0 w with checked := true }], threads := [(t0.key, thread0)] }

/-- CurveGateAndControlRows, clause by clause: YIELD to EXIT, and a checked pair at EXIT, at the group barrier and at a store. -/
theorem test_thread_control_issues :
    (∃ s c, Issues s t0 0x3B c) ∧
    (Sparse.find? ((vecYield 0).block 0 0).threads t0.key = some { thread0 with park := .yield } ∧ (vecYield 0).vecRuns 0 0 = true) ∧
    (∃ s c, Issues s t0 0x3C c ∧ c.th.writes = 0 ∧ hurdleOk false c.i.imm.toNat = true ∧ s.hurdleKnown 0 0 c.l.tag c.i.imm.toNat = true ∧
      s.judgeArrival 0 0 c.l.tag c.i.imm.toNat (c.gen false c.i.imm.toNat) = .admitted) ∧
    (∃ s c, Issues s t0 0x3D c ∧ c.th.writes = 0 ∧ c.i.imm.toNat = 0) ∧
    (∃ s c, Issues s t0 0x3D c ∧ c.th.writes = 0 ∧ c.i.imm.toNat ≠ 0 ∧ hurdleOk false c.i.imm.toNat = true ∧
      s.hurdleKnown 0 0 c.l.tag c.i.imm.toNat = true) ∧
    (∃ s c, Issues s t0 0x3E c ∧ c.th.writes = 0) ∧
    (∃ s c, Issues s t0 0x3E c ∧ c.l.checked = true ∧ c.th.writes = 0) ∧
    (∃ s c, Issues s t0 0x3D c ∧ c.l.checked = true ∧ c.th.writes = 0 ∧ c.i.imm.toNat = 0) ∧
    (∃ s c, Issues s t0 0x29 c ∧ c.l.checked = true) := by
  have h : issues (vec0 (word 0x3B 0 0 0 0 0)) 0x3B = true ∧
      (let s := vecHurdle (word 0x3C 0 0 0 0 0 0xA000); issues s 0x3C fun c => c.th.writes == 0 && hurdleOk false c.i.imm.toNat &&
        s.hurdleKnown 0 0 c.l.tag c.i.imm.toNat && s.judgeArrival 0 0 c.l.tag c.i.imm.toNat (c.gen false c.i.imm.toNat) == .admitted) = true ∧
      (issues (vec0 (word 0x3D 0 0 0 0 0)) 0x3D fun c => c.th.writes == 0 && c.i.imm.toNat == 0) = true ∧
      (let s := vecHurdle (word 0x3D 0 0 0 0 0 0xA000); issues s 0x3D fun c => c.th.writes == 0 && c.i.imm.toNat != 0 && hurdleOk false c.i.imm.toNat &&
        s.hurdleKnown 0 0 c.l.tag c.i.imm.toNat) = true ∧
      (issues (vec0 (word 0x3E 0 0 0 0 0)) 0x3E fun c => c.th.writes == 0) = true ∧
      (issues (vecPair (word 0x3E 0 0 0 0 0)) 0x3E fun c => c.l.checked && c.th.writes == 0) = true ∧
      (issues (vecPair (word 0x3D 0 0 0 0 0)) 0x3D fun c => c.l.checked && c.th.writes == 0 && c.i.imm.toNat == 0) = true ∧
      (issues (vecPair (word 0x29 0 0 1 1 0)) 0x29 fun c => c.l.checked) = true := by decide +kernel
  obtain ⟨h0, h1, h2, h3, h4, h6, h7, h5⟩ := h
  obtain ⟨c0, k0, -⟩ := issues_of h0
  obtain ⟨c1, k1, o1⟩ := issues_of h1
  obtain ⟨c2, k2, o2⟩ := issues_of h2
  obtain ⟨c3, k3, o3⟩ := issues_of h3
  obtain ⟨c4, k4, o4⟩ := issues_of h4
  obtain ⟨c5, k5, o5⟩ := issues_of h5
  obtain ⟨c6, k6, o6⟩ := issues_of h6
  obtain ⟨c7, k7, o7⟩ := issues_of h7
  simp only [Bool.and_eq_true, beq_iff_eq, bne_iff_ne] at o1 o2 o3 o4 o5 o6 o7
  exact ⟨⟨_, c0, k0⟩, by decide +kernel, ⟨_, c1, k1, o1.1.1.1, o1.1.1.2, o1.1.2, o1.2⟩, ⟨_, c2, k2, o2⟩, ⟨_, c3, k3, o3.1.1.1, o3.1.1.2, o3.1.2, o3.2⟩,
    ⟨_, c4, k4, o4⟩, ⟨_, c6, k6, o6⟩, ⟨_, c7, k7, o7.1.1, o7.1.2, o7.2⟩, ⟨_, c5, k5, o5⟩⟩

/-! ## Packets -/

/-- The region, two edge dies of a mirrored pair with their stacks and drove engines, the master hub; bank 0 of every router is active. -/
def net : State :=
  [0, 156, 174, 180].foldl (fun s n => s.put F.rtrEpoch_bank0State n 0 0 2)
    ([156, 174].foldl (fun s n => ((s.setUnit n (pageOf .hbm n 0) .running).setUnit n (pageOf .drv n 0) .running).put F.hbmStat_state n 0 0 2)
      (upRegion.setWord .rtrStackMap0 156 0 0 156))

/-- The hypotheses on a packet that lands, as a Boolean. -/
def lands (s : State) (p : Packet) : Bool :=
  decide (p.dest < 182) && s.ahead p == false && (s.router p.dest).fenced != some p.src && p.hdrOk && (s.take p).stale p.dest p == false && p.e2eOk &&
    ((s.take p).towardsPeer p).isNone

theorem lands_of {s : State} {p : Packet} (h : lands s p = true) : Lands s p := by
  simp only [lands, Bool.and_eq_true, decide_eq_true_eq, bne_iff_ne, beq_iff_eq, Option.isNone_iff_eq_none] at h
  exact ⟨h.1.1.1.1.1.1, h.1.1.1.1.1.2, h.1.1.1.1.2, h.1.1.1.2, h.1.1.2, h.1.2, h.2⟩

/-- A WRITE of four bytes to an address; a READ_REQ. -/
def writeTo (dest addr src unit : Nat) : Packet :=
  { op := .write, cls := 2, len := 1, dest := dest, src := src, srcUnit := unit, jobTag := 1, addr := addr, byteMask := 15, payload := List.replicate 64 7 }
def readOf (dest addr n : Nat) : Packet := { op := .readReq, cls := 2, dest := dest, src := 180, jobTag := 1, addr := addr, oparg0 := n }

/-- The access lies at a node's location. -/
def lies (e : Except Status (Nat × Loc)) (d : Nat) (l : Loc) : Bool := match e with | .ok x => x == (d, l) | .error _ => false

/-- StorageRequestsComplete: writes to a register page, to partial sums, to the last word of a stack that serves, to host memory. -/
theorem test_writes_land :
    ([(writeTo 0 0x200000000020 180 0x11, 0, Loc.reg 0 0 0x20), (writeTo 0 0x100001000000 0 0, 0, .scratch 0 0 0x1000000),
      (writeTo 156 0x5FFFFFFFC 0 0, 156, .stack 0 0x5FFFFFFFC), (writeTo 180 0x300000000000 0 0, 180, .host 0)].all fun (p, d, l) =>
        let s := net
        lands s p && mirrorSource p == none && lies ((s.take p).locate p.dest p.epoch p.addr (max 1 p.extent)) d l &&
          (s.take p).heldAt p.requester d l == false && (s.take p).barred p.requester d l == none && (s.take p).mayWrite p.requester l p.named.length &&
          (l.key.isSome || l == .reg 0 0 0x20)) = true := by decide +kernel

/-- StorageRequestsComplete: reads of 1 byte and of 512, and of lengths the destination refuses. -/
theorem test_reads_land :
    ([1, 512].all fun n => let p := readOf 180 0x300000000000 n
      lands net p && lies ((net.take p).locate 180 0 p.addr n) 180 (.host 0) && (net.take p).heldAt p.requester 180 (.host 0) == false &&
        ((net.take p).readLoc p.requester 180 (.host 0) n).1 == .done) = true ∧
    ([0, 513].all fun n => lands net (readOf 180 0x300000000000 n)) = true := by decide +kernel

/-- An ATOMIC_ADD of 1. -/
def addTo (dest addr src unit kind : Nat) : Packet :=
  { op := .atomicAdd, cls := 2, dest := dest, src := src, srcUnit := unit, jobTag := 1, addr := addr, oparg0 := 1, oparg1 := kind }

/-- The network with a pen of unit 0 of node 0 over the first pool unit of block 0. -/
def netPen : State := net.updPens 0 0 { pens := [⟨0, 1, 0, 0, 1, 0x100000000000⟩] }

/-- AtomicAddsComplete: host memory by each kind, a stack, a scratchpad under a pen up to its last word. -/
theorem test_atomics_land :
    ([0, 1, 2].all fun k => let p := addTo 180 0x300000000000 0 0 k
      lands net p && (isEdge p.dest && p.addr == tallyAddr p.dest) == false && lies ((net.take p).locate 180 0 p.addr p.extent) 180 (.host 0) &&
        p.addr % p.extent == 0) = true ∧
    (let p := addTo 156 0x100 0 0 0
     lands net p && (isEdge p.dest && p.addr == tallyAddr p.dest) == false &&
      (match (net.take p).locate 156 0 p.addr p.extent with
        | .ok (d, l) => l == .stack 0 0x100 && (net.take p).heldAt p.requester d l == false && (net.take p).barred p.requester d l == none
        | .error _ => false) && net.mem.latent.isEmpty) = true ∧
    ([0, 4092].all fun a => let p := addTo 0 (0x100000000000 + a) 0 0 1
      lands netPen p && (isEdge p.dest && p.addr == tallyAddr p.dest) == false && lies ((netPen.take p).locate 0 0 p.addr 4) 0 (.scratch 0 0 a) &&
        (netPen.take p).heldAt p.requester 0 (.scratch 0 0 a) == false && (netPen.take p).atomicScratch p 0 0 a 4 == .done) = true := by decide +kernel

/-- A reply to transaction 5 of unit 0, and the request it answers. -/
def replyTo (op : PktOp) (dest : Nat) : Packet := { op := op, cls := op.cls, dest := dest, src := 180, srcUnit := 0, txn := 5 }
def asked (node : Nat) (u : Purpose) (s : State := net) : State := { s with outstanding := [⟨node, 5, u, .readReq, 180, 0, 1, 0, 0⟩] }

/-- The network with a launch whose thread runs in block 0. -/
def netVec : State := net.modBlock 0 0 fun b => { b with launches := [launch0 0], threads := [(t0.key, thread0)] }

/-- RepliesComplete: the reply finds its request, or none. -/
theorem test_replies_land :
    ([PktOp.readData, .completion, .penGrant, .mgmtReply].all fun o => let p := replyTo o 0
      lands (asked 0 .plain) p && ((asked 0 .plain).asked p).isSome && (asked 0 .plain).ownRow p == false &&
        lands net p && (net.asked p).isNone && net.ownRow p == false && (net.answered p).foldCmd? p == none) = true := by decide +kernel

/-- RepliesComplete, what the request waits for: a thread's read and its write, a hub's pen, the DBG_ window. -/
theorem test_answers_land :
    ([(PktOp.readData, Purpose.threadRead t0 0 1), (.completion, .threadWrite t0 0 0)].all fun x => let p := replyTo x.1 0
      let s := asked 0 x.2 netVec
      lands s p && (s.asked p).isSome && s.ownRow p == false && ((s.answered p).threadOf t0 0).isSome && p.outcome == .done) = true ∧
    (let p := replyTo .penGrant 180
     lands (asked 180 (.penHub 180)) p && ((asked 180 (.penHub 180)).asked p).isSome) = true ∧
    (let p := { replyTo .mgmtReply 0 with len := 1, payload := List.replicate 64 0 }
     lands (asked 0 (.mgmt 0)) p && ((asked 0 (.mgmt 0)).asked p).isSome && p.outcome == .done && p.len != 0) = true := by decide +kernel

/-- NoticesTalliesAndFoldsComplete: a revocation, by retirement and by reset, of a pen that block 0 holds and of one it does not; a mirror write of stack 0 at its
partner; a failing link read. -/
theorem test_notices_land :
    ([(4, 0), (5, 4096)].all fun x => let p : Packet := { replyTo .completion 0 with status := x.1, oparg0 := 0x100000000000 + x.2 }
     let s := net.updPens 0 0 { holders := [{ txn := 0, unit := 0, tag := 1, dest := 0, units := 1, base := 0x100000000000, granted := true }] }
     lands s p && isEdge p.dest == false &&
      ((s.holderUnit 0 0).holders.find? (fun e => e.granted && !e.revoked && e.base == p.oparg0)).isSome == decide (x.2 = 0)) = true ∧
    (let p := writeTo 174 0x300000000000 156 mirrorUnit
     lands net p && mirrorSource p == some 0 && partner 0 == 18 && (net.take p).stackAnswer (partner 0) == .serves && net.mem.latent.isEmpty) = true ∧
    (let p : Packet := { replyTo .completion 156 with status := 12 }
     let s := asked 156 (.drove 0 1 0)
     lands s p && isEdge p.dest && (match s.asked p with | some r => r.purpose == .drove 0 1 0 | none => false)) = true := by
  decide +kernel

/-- NoticesTalliesAndFoldsComplete: a tally at a drove engine with room, with the table of its fold, with one of another hurdle; a partial that is the first
of its fold, the second, and one at a block that adds nothing. -/
theorem test_tallies_and_folds_land :
    ([([], true), ([⟨1, 0, 0xA000, 0, []⟩], true), ([⟨1, 0, 0xA001, 0, []⟩], false)].all fun x : List TallyTable × Bool =>
     let p : Packet := { addTo 156 (tallyAddr 156) 180 0x14 1 with oparg0 := 0xA000 * 65536 }
     let s := net.modDrove 156 fun d => { d with tables := x.1 }
     lands s p && isEdge p.dest && s.goesOn 156 (pageOf .drv 156 0) &&
      (match (s.drove 156).tables.find? (fun t => t.tag == 1 && t.fold == 0) with
        | some t => t.hurdle == 0xA000 | none => decide ((s.drove 156).tables.length < 4)) == x.2) = true ∧
    (let p : Packet := { op := .foldPart, cls := 4, dest := 0, src := 180, srcUnit := 0 }
     [([], 0), ([p], 0), ([], 1)].all fun x : List Packet × Nat =>
     let s := (net.put F.rgnSite_role 0 0 0 (3 * x.2)).modRouter 0 fun r => { r with foldBufs := x.1 }
     lands s p && isRegion p.dest && s.addsNothing 0 0 == decide (x.2 = 1) && decide (x.1.length < 2) && decide (foldsHeld x.1 < 16)) = true := by decide +kernel

/-- PenPacketsComplete: a request of 1 unit, of the whole pool and of one more; a release of a pen that stands and of one revoked; a put at the pen's last byte. -/
theorem test_pen_packets_land :
    ([1, 256, 257].all fun n => let p : Packet := { op := .penReq, cls := 2, dest := 0, src := 180, jobTag := 1, addr := 0x100000000000, oparg0 := n }
      let s := net.put F.blkPenCfg_poolUnits 0 0 0 256
      lands s p && s.blockOf p == some (0, 0) && s.regionAnswer 0 0 == .serves && decide ((s.penUnit 0 0).pending.length < 128) &&
        decide (0 < penUnits p) && decide (penUnits p ≤ s.fld F.blkPenCfg_poolUnits 0 0) == decide (n ≤ 256)) = true ∧
    (let p : Packet := { op := .penRelease, cls := 2, dest := 0, src := 0, srcUnit := 0, jobTag := 1, addr := 0x100000000000 }
     let mine := fun (q : Pen) => q.base == p.addr && q.node == p.src && q.unit == p.srcUnit
     let gone := net.updPens 0 0 { revoked := [⟨0, 1, 0, 0, 1, 0x100000000000⟩] }
     lands netPen p && netPen.blockOf p == some (0, 0) && netPen.regionAnswer 0 0 == .serves && ((netPen.penUnit 0 0).pens.find? mine).isSome &&
      lands gone p && gone.blockOf p == some (0, 0) && gone.regionAnswer 0 0 == .serves && ((gone.penUnit 0 0).pens.find? mine).isNone &&
      (gone.penUnit 0 0).revoked.any mine) = true ∧
    (let p : Packet := { writeTo 0 0x100000000FFF 0 0 with op := .penPut, byteMask := 1 }
     lands netPen p && lies (netPen.locate 0 0 p.addr (max 1 p.extent)) 0 (.scratch 0 0 0xFFF) && netPen.regionAnswer 0 0 == .serves &&
      (penFor (netPen.penUnit 0 0).pens p 0xFFF p.extent).isSome && netPen.mem.latent.isEmpty) = true := by decide +kernel

/-- DrovePacketsComplete: a line at a region that has a block that works, and one that has none; the four notices, of a stream no block knows; a report of a suspect
node, and another control packet. -/
theorem test_drove_packets_land :
    (let p : Packet := { op := .droveTile, cls := 3, dest := 0, src := 156 }
     let idle := net.setUnit 0 (pageOf .blk 0 0) .off
     lands net p && isRegion p.dest && isEdge p.src && net.coreGated 0 == false && net.works 0 0 &&
      lands idle p && idle.coreGated 0 == false && [0, 1, 2, 3].all fun b => idle.works 0 b == false) = true ∧
    ([(Notice.commit, 0), (.cancel, 0), (.bufFree, 156), (.ack, 156)].all fun x =>
      let p : Packet := { op := .control, cls := 0, dest := x.2, src := 180, oparg1 := x.1.code }
      lands net p && (!isRegion x.2 || ((List.range 4).all fun b => (((net.block x.2 b).half 0).feed? 0).isNone))) = true ∧
    ([(Notice.suspect.code, 5), (0, 0)].all fun x => let p : Packet := { op := .control, cls := 0, dest := 180, src := 0, oparg0 := x.2, oparg1 := x.1 }
     lands net p && ([Notice.bufFree, .commit, .cancel, .ack].map Notice.code).contains p.oparg1 == false && net.master == 180 && net.probes.isEmpty) = true := by
  decide +kernel

/-- HurdleAndMgmtPacketsComplete: an arrival and a release of the job's hurdle, a MGMT access of a page, a packet that a live node injects. -/
theorem test_hurdle_and_mgmt_packets_land :
    (let s := net.setJob 1 job0
     ([PktOp.hurdleArrive, .hurdleRelease].all fun o => lands s { op := o, cls := 0, dest := 180, src := 0, jobTag := 1, oparg0 := 0xA000, oparg1 := 1 }) &&
      (match s.job? 1 with | some j => (j.hurdle? 0xA000 (0, 0)).isSome | none => false)) = true ∧
    ([8, 512].all fun n => let p : Packet := { op := .mgmt, cls := 5, dest := 0, src := 180, srcUnit := 0x11, addr := 0x200000000000, oparg0 := n }
     lands net p && lies (net.locate 0 0 p.addr n) 0 (.reg 0 0 0) && net.pageAnswer p.requester.origin 0 0 == .serves) = true ∧
    net.live 0 = true := by decide +kernel

/-! ## Commands -/

/-- Hypotheses of a command at the head of its queue, as a Boolean. -/
def starts (s : State) (q : QueueRef) (ops : List Nat) (ok : State → Nat → Bool) : Bool :=
  match (s.queue q).walk, (s.queue q).tag with
  | some a, some tag =>
    let d := (s.fetchDesc q a).2.1
    q.ok && (s.queue q).cur.isNone && s.unitRuns q && s.forwards q && (s.fetchDesc q a).1 == .done && ops.contains (dOpcode d)
      && (s.breakpoint q a tag).isNone && s.takes q (dOpcode d) && commonOk q.eng tag d
      && (match (((s.fetchDesc q a).2.2.takeCur q a d).event (q.site (some tag)) 0 0x01 a (dOpcode d) 0 q.eng q.queue).pass q d with
        | .goes u => ok u d | _ => false)
  | _, _ => false

theorem starts_of {s : State} {q : QueueRef} {ops : List Nat} {ok : State → Nat → Bool} (h : starts s q ops ok = true) :
    ∃ a tag d u, Starts s q ops ok a tag d u := by
  unfold starts at h
  split at h
  · next a tag ha ht =>
    simp only [Bool.and_eq_true, Option.isNone_iff_eq_none, beq_iff_eq] at h
    obtain ⟨⟨⟨⟨⟨⟨⟨⟨⟨h1, h2⟩, h3⟩, h4⟩, h5⟩, h6⟩, h7⟩, h8⟩, h10⟩, h11⟩ := h
    split at h11
    · next u hu => exact ⟨a, tag, _, u, ⟨h1, ha, ht, h2, h3, h4, h5, rfl, h6, h7, h8, hu, h10, h11⟩⟩
    · cases h11
  · cases h

/-- The operand fields that the row of an opcode needs, and its engine's queue 0 (R224-R226). -/
def operands (op : Nat) : List (Nat × Nat × Nat) :=
  match op with
  | 0x10 => [(128, 12, 5), (144, 32, 1), (188, 6, 1), (200, 16, 1)]
  | 0x11 | 0x12 => [(176, 2, 2), (224, 16, 1)]
  | 0x13 => [(208, 16, 1), (224, 6, 1)]
  | 0x20 | 0x21 => [(176, 13, 1), (204, 20, 1)]
  | 0x30 => [(224, 24, 1), (248, 16, 1)]
  | 0x31 => [(176, 9, 1), (192, 6, 1)]
  | 0x32 | 0x33 => [(128, 6, 3)]
  | 0x34 => [(128, 6, 3), (136, 12, 1)]
  | 0x36 => [(176, 32, 8)]
  | 0x40 => [(150, 4, 1)]
  | 0x41 => [(140, 6, 3)]
  | 0x43 => [(48, 16, 0xA000)]
  | 0x50 => [(128, 16, 0xA000)]
  | 0x51 => [(128, 2, 2)]
  | 0x55 => [(132, 3, 7)]
  | 0x60 => [(176, 16, 1)]
  | 0x61 => [(192, 16, 1)]
  | _ => []
def queueOf (op : Nat) : QueueRef := if 0x60 ≤ op then ⟨156, 0, 5, 0⟩ else ⟨0, 0, op / 16 - 1, 0⟩

/-- A queue walks a list of job 1, in its block's activations or in its edge die's stack, that starts with a descriptor of an opcode; the job has a panel hurdle, heft 5,
pens under handles 3 to 14. -/
def listed (op : Nat) (extra : List (Nat × Nat × Nat) := []) : State :=
  let d := packFields ([(0, 8, op), (24, 6, 1)] ++ operands op ++ extra)
  let s := (net.setJob 1 job0).updPens 0 0
    { holders := (List.range 12).map fun i =>
        { txn := i, unit := 0, tag := 1, dest := 0, units := 1, base := 0x100000000000 + 4096 * i, granted := true, handle := some (3 + i) } }
  let a := if 0x60 ≤ op then 0 else 0x100000000000
  { s with mem := s.mem.write a (leBytes 64 d)
           hefts := [⟨5, 1, 0, 0, 1, 0, 1, 4, 32⟩] }.setQueue (queueOf op) { tag := some 1, walk := some a, calls := [0] }

/-- CommandsStartAndDoTheirWork, ControlAndTableCommandsComplete: every row's descriptor starts. -/
theorem test_commands_start : ∀ r ∈ headRows [], ∃ s a tag d u, Starts s (queueOf r.op) [r.op] (r.own (queueOf r.op)) a tag d u := fun r hr =>
  have h : (headRows []).all (fun r => starts (listed r.op) (queueOf r.op) [r.op] (r.own (queueOf r.op))) = true := by decide +kernel
  ⟨_, starts_of (List.all_eq_true.mp h r hr)⟩

/-- MalformedHurdleBreakAndExpertCommands: an arrival for the next generation; CTL_BREAK with CTLBRK_EN at 0 and at 1; DVE_EXPERTS. -/
theorem test_other_commands_start :
    (∃ s a tag d u, Starts s (queueOf 0x50) [0x50] (fun s d => s.hurdleArg (queueOf 0x50) (bits d 128 16)) a tag d u) ∧
    (listed 0x50).judgeArrival 0 0 1 0xA000 1 = .admitted ∧
    (∃ s a tag d u, Starts s (queueOf 0x58) [0x58] (fun _ _ => true) a tag d u ∧ s.flag F.dbgBrk_ctlbrkEn 0 0 0 = false) ∧
    (∃ s a tag d u, Starts s (queueOf 0x58) [0x58] (fun _ _ => true) a tag d u ∧ s.flag F.dbgBrk_ctlbrkEn 0 0 0 = true ∧
      (s.queue (queueOf 0x58)).passBreak = false ∧ (s.block 0 0).stepping ≠ some (queueOf 0x58)) ∧
    (∃ s a tag d u, Starts s (queueOf 0x62) [0x62] (fun s d => s.membersOk (bits d 208 12) && bits d 240 48 % 8 == 0) a tag d u ∧
      (s.drove (s.servedBy 156)).experts = none) := by
  have h : starts (listed 0x50) (queueOf 0x50) [0x50] (fun s d => s.hurdleArg (queueOf 0x50) (bits d 128 16)) = true ∧
      starts (listed 0x58) (queueOf 0x58) [0x58] (fun _ _ => true) = true ∧
      starts ((listed 0x58).put F.dbgBrk_ctlbrkEn 0 0 0 1) (queueOf 0x58) [0x58] (fun _ _ => true) = true ∧
      starts (listed 0x62) (queueOf 0x62) [0x62] (fun s d => s.membersOk (bits d 208 12) && bits d 240 48 % 8 == 0) = true := by decide +kernel
  obtain ⟨a1, t1, d1, u1, k1⟩ := starts_of h.2.1
  obtain ⟨a2, t2, d2, u2, k2⟩ := starts_of h.2.2.1
  obtain ⟨a3, t3, d3, u3, k3⟩ := starts_of h.2.2.2
  exact ⟨⟨_, starts_of h.1⟩, by decide +kernel, ⟨_, a1, t1, d1, u1, k1, by decide +kernel⟩,
    ⟨_, a2, t2, d2, u2, k2, by decide +kernel, by decide +kernel, by decide +kernel⟩, ⟨_, a3, t3, d3, u3, k3, by decide +kernel⟩⟩

/-- MalformedHurdleBreakAndExpertCommands: a launch of no instructions, a copy of no bytes, a jump to an address that is not a descriptor's. -/
theorem test_malformed_commands_start :
    ([(0x20, [(176, 13, 0)]), (0x30, [(224, 24, 0)]), (0x52, [(128, 48, 8)])].all fun x =>
      (headRows []).any fun r => r.op == x.1 && starts (listed x.1 x.2) (queueOf x.1) [x.1] (fun u d => !r.own (queueOf x.1) u d)) = true := by
  decide +kernel

/-- A command in flight. -/
def flying (op : Nat) (f : InFlight → InFlight := id) (extra : List (Nat × Nat × Nat) := []) : State :=
  let d := packFields ([(0, 8, op), (24, 6, 1)] ++ extra)
  net.setQueue (queueOf op) { tag := some 1, calls := [64], cur := some (f { addr := 0, desc := d, start := 0 }) }

/-- ControlAndTableCommandsComplete and CommandsWaitAndComplete: a command under way; one that waits for a word, for its limit, for panel time; one that has ended. -/
theorem test_commands_under_way :
    (((flying 0x54).queue (queueOf 0x54)).cur.map InFlight.found == some .done && ((flying 0x54).queue (queueOf 0x54)).calls == [64]) = true ∧
    ((match ((flying 0x51 fun c => { c with wait := .word 0 }).queue (queueOf 0x51)).cur with
      | some c => c.status == none && c.wait == .word 0 | none => false) = true) ∧
    ((match (({ flying 0x51 (fun c => { c with wait := .time }) [(256, 64, 0), (384, 32, 1)] with now := us } : State).queue (queueOf 0x51)).cur with
      | some c => c.status == none && c.wait == .time && dOpcode c.desc == 0x51 && bits c.desc 384 32 != 0 &&
          decide (c.start + bits c.desc 384 32 * us ≤ us) && decide (bits c.desc 256 64 ≤ (flying 0x51).timeAt 0) | none => false) = true) ∧
    ((match ((flying 0x59 fun c => { c with status := some .done }).queue (queueOf 0x59)).cur with
      | some c => (queueOf 0x59).ok && c.status == some .done && dSignal c.desc == 0 | none => false) = true) := by decide +kernel
/-! ## Bridges, routing, cells -/

/-- FabricArbitration: two heads compete; a class has a packet, at weight 0 too. -/
theorem test_arbitration_is_met :
    (firstHead [(0, ⟨1, pkt, 0, 0, false, false⟩), (0, ⟨0, { pkt with vch := 1 }, 0, 0, false, false⟩)]).isSome = true ∧
    (let s := net.setWord .rtrArb 0 0 0 0
     let len : List (Option Nat) := [none, some 9, none, none, some 1]
     (({} : OutPort).wrr (s.weights 0) len).1 == some 1 && ({} : OutPort).deficit.length == 5 && len.length == 5) = true := by decide +kernel

/-- BridgeLanesComplete, clause by clause, on the bridge east of region 0. -/
theorem test_bridge_lanes_are_met :
    (hasLane 0 1 0 && hasLane 0 1 15 == decide (bridgeGroups 0 1 = 36) && (net.bridge 0 1).retraining == false && net.width 0 1 != .down &&
      (net.lane 0 1 0).nak == none && decide ((net.lane 0 1 0).retry.length < 64)) = true ∧
    ([3, 4].all fun n => let s := net.setLane 0 1 0 { nak := some 0, resends := n }
      (s.lane 0 1 0).nak.isSome && (s.bridge 0 1).retraining == false && (s.lane 0 1 0).resends == n) = true ∧
    ([5, 9].all fun bad => let s := net.setLane 0 1 0 { bad := some bad, resends := 1, retry := [(0, 9, 0)] }
     (s.lane 0 1 0).bad == some bad && (s.lane 0 1 0).retry.find? (fun e => e.1 == (s.lane 0 1 0).expected) == some (0, 9, 0) && (s.lane 0 1 0).nak == none &&
      decide (0 < (s.lane 0 1 0).resends) && (s.bridge 0 1).retraining == false) = true ∧
    (let s := (net.setBridge 0 1 { retraining := true }).setLane 0 1 0 { bad := some 5 }
     (neighbour 0 1).isSome && (s.bridge 0 1).retraining && decide (0 < laneCount 0 1) && (s.lane 0 1 0).bad.isSome) = true := by decide +kernel

/-- TimeoutsAndSwitchesComplete: a request whose timeout has just passed; a node reported and not yet probed; a flip at its time; a drain 10 us after it; a map
change. -/
theorem test_timeouts_and_switches_are_met :
    (let s := asked 0 .plain
     match (s.takeRequest 0 0 5).1 with
      | some r => r.op.cls == 2 && decide (r.time + s.timeoutOf r ≤ ({ s with now := s.timeoutOf r } : State).now) | none => false) = true ∧
    (let s : State := { net with suspects := [181] }
     s.suspects.contains 181 && s.probes.any (fun p => p.node == 181) == false) = true ∧
    ([0, 180].all fun n => let s := (net.put F.rtrEpoch_bank1State n 0 0 1).modRouter n fun r => { r with flipPending := true }
     (s.router n).flipPending && s.bankState n 1 == 1 && decide (s.fld F.rtrFlipAt_flipAt n ≤ s.timeAt n)) = true ∧
    (let s := { net.put F.rtrEpoch_bank1State 0 0 0 3 with now := 10 * us }
     s.bankState 0 1 == 3 && decide (s.fld F.rtrFlipAt_flipAt 0 + 10 * us ≤ s.timeAt 0)) = true ∧
    (let s : State := { net with changes := { lost := [(0, 5)] } }
     s.changes != {} && s.switchBusy == false && s.hostDuty s.master 0 2 == false) = true := by decide +kernel

/-- A region whose matrix cells are on rounds, the last of them out. -/
def rounds (f : Block → Block) (t : Nat := 0) : State :=
  { (((upRegion.put F.mxcRoundsCtrl_enable 0 0 0 1).modPow 0 fun p => { p with freq := opFreq 10 }).modBlock 0 0 f).setOut 0 0 32 with now := t }

/-- MatrixRoundsComplete: a rotation at its time; a first and a second test; the window's end; a slice; a recomputation that ends. -/
theorem test_matrix_rounds_are_met :
    (let s := rounds (fun b => { b with passed := true }) (64 * us)
     s.roundsRun 0 0 && s.flag F.mxcRoundsStat_sliced 0 0 == false && decide ((s.block 0 0).roundStart + ((s.block 0 0).rotations + 1) * (64 * us) ≤ s.now) &&
      (s.block 0 0).passed && (s.block 0 0).recomputes.isEmpty) = true ∧
    ([false, true].all fun again => let s := rounds fun b => { b with failedOnce := again }
      s.roundsRun 0 0 && s.outState 0 0 == 1 && (s.block 0 0).passed == false && (s.block 0 0).failedOnce == again && decide (s.outCell 0 0 < 33)) = true ∧
    (let s := rounds (fun b => { b with passed := true, window := some 0 }) (48 * us)
     s.roundsRun 0 0 && (s.block 0 0).window == some 0 && (s.block 0 0).passed && s.outState 0 0 != 3 && decide (48 * us ≤ s.now)) = true ∧
    (let s := (rounds id (64 * us)).put F.mxcRoundsStat_sliced 0 0 0 1
     s.roundsRun 0 0 && s.flag F.mxcRoundsStat_sliced 0 0 && (s.block 0 0).window == none && (s.block 0 0).recomputes.isEmpty &&
      (s.nextMatCell 0 0 (s.block 0 0).sliceNext).isSome &&
      decide (((s.block 0 0).slices + 1) * (2112 * us) ≤ (s.now - (s.block 0 0).sliceStart) * (s.cellOrder 0 0).length)) = true ∧
    ((rounds fun b => { b with recomputes := [⟨que, 0, 0, 0, 0, [], 0, 32⟩] }).block 0 0).recomputes ≠ [] := by decide +kernel

/-- R126: an upset that moves the sum by 15 passes the residue check, one that moves it by 1 does not. -/
theorem test_residue : residueOk [] 15 0 = true ∧ residueOk [] 1 0 = false ∧ residueOk [] 1 1 = true := by decide

/-- A launch command in flight, with its launch in the block. -/
def launching (f : Launch → Launch) : State :=
  ((upRegion.setJob 1 job0).modBlock 0 0 fun b => { b with launches := [f (launch0 0)] }).setQueue ⟨0, 0, 1, 0⟩
    { tag := some 1, cur := some { addr := 0, desc := packFields [(0, 8, 0x20), (24, 6, 1)], start := 0, wait := .launch 0 } }

/-- LaunchesComplete: a group to place, a launch to start, one that has ended, poisoned or not. -/
theorem test_launches_are_met :
    (let s := launching fun l => { l with placed := 0 }
     match s.launchOf ⟨0, 0, 1, 0⟩ with
      | some l => s.vecRuns 0 0 && l.started && (s.placeable 0 0 l).isSome | none => false) = true ∧
    (let s := launching fun l => { l with started := false, placed := 0 }
     match s.launchOf ⟨0, 0, 1, 0⟩ with
      | some l => s.vecRuns 0 0 && !l.started && (s.block 0 0).mayStart l false | none => false) = true ∧
    ([false, true].all fun bad => let s := launching fun l => { l with ended := 1, poisoned := bad }
     match s.launchOf ⟨0, 0, 1, 0⟩, (s.queue ⟨0, 0, 1, 0⟩).cur with
      | some l, some c => l.started && l.fault == none && l.ended == l.groups && l.poisoned == bad && l.q == ⟨0, 0, 1, 0⟩ && c.status == none && c.found == .done
      | _, _ => false) = true := by decide +kernel

/-- Region 0 with its core clock on and the rounds of its vector cells enabled. -/
def vecRounds : State := (upRegion.put F.vxcCtrl_roundsEnable 0 0 0 1).modPow 0 fun p => { p with freq := opFreq 10 }

/-- VectorRoundsAndScalarCellComplete: the vector rounds between tests and in one, and the scalar cell's. -/
theorem test_vector_rounds_are_met :
    ([[13], []].all fun l => let s := vecRounds.modBlock 0 0 fun b => { b with vecQueue := l }
     s.clocked 0 0 && s.flag F.vxcCtrl_roundsEnable 0 && s.fld F.vxcStat_testCell 0 == 15 && (s.block 0 0).vecQueue == l &&
      (match s.nextVecCell 0 0 with | some x => decide (x.1 < 16) | none => false) &&
      decide ((s.block 0 0).vecStart + (s.block 0 0).vecTests * (640 * us) ≤ s.now)) = true ∧
    ([false, true].all fun again => let s := (vecRounds.put F.vxcStat_testCell 0 0 0 0).modBlock 0 0 fun b =>
        { b with vecFailedOnce := again, sxFailedOnce := again }
      s.clocked 0 0 && s.fld F.vxcStat_testCell 0 != 15 && (s.block 0 0).vecFailedOnce == again && (s.block 0 0).sx == none &&
        (s.block 0 0).sxFailedOnce == again) = true := by decide +kernel

/-- The scalar cell of block 0 at an instruction in its local memory, with the panel hurdle's identity in x10. -/
def scalarAt (w : Nat) : State :=
  let s := (upRegion.setJob 1 job0).modBlock 0 0 fun b =>
    { b with launches := [launch0 0], sx := some { launch := 0, tag := 1, pc := 0x100003800000, x := setAt (List.replicate 32 0) 10 0xA000 } }
  { s with mem := s.mem.write (blkKeyAt 0 0 0x3800000) (leBytes 4 w) }

/-- What the next instruction does, by kind: 0 goes on, 1 traps, 2 ECALL, 3 arrives, 4 waits; 9 not ready. -/
def sxKind (s : State) : Nat :=
  match s.sxReady 0 0 with
  | some (x, l) => match s.sxStep 0 0 l x with
    | .goes .. => 0 | .traps .. => 1 | .ecall => 2 | .waits => 7
    | .harrive id _ => if x.writes == 0 && hurdleOk false id && s.hurdleKnown 0 0 l.tag id &&
        s.judgeArrival 0 0 l.tag id (x.gen l false id) == .admitted then 3 else 8
    | .hwaitc id _ => if hurdleOk false id && s.hurdleKnown 0 0 l.tag id then 4 else 8
  | none => 9

/-- VectorRoundsAndScalarCellComplete: ADDI x1, x0, 1; an illegal word; ECALL; CSRRW x0, HARRIVE, x10; CSRRW x0, HWAITC, x10. -/
theorem test_scalar_instructions_are_met :
    [0x00100093, 0, 0x00000073, 0x7C051073, 0x7C151073].map (fun w => sxKind (scalarAt w)) = [0, 1, 2, 3, 4] := by decide +kernel

/-- ControlCoresAndTasksComplete: a control core that runs; a task posted by a queue of its tag and by a hub, with credit and without; one that a fall-back core
completes, and one that a dispatch waits for. -/
theorem test_control_cores_are_met :
    (upRegion.goesOn 0 (pageOf .blk 0 0) && (upRegion.block 0 0).stopped == false) = true ∧
    ([(some que, 1), (some que, 2), (none, 511), (none, 512)].all fun x : Option QueueRef × Nat =>
     let s := { net.setQueue que { tag := some 1, walk := some 0 } with tasks := List.replicate x.2 ⟨180, 0, x.1, 0, false⟩ }
     que.ok && isRegion que.node && s.unitRuns que && (s.queue que).tag == some 1 && bits (2 ^ 208) 208 6 == 1 && s.tasksOf 180 x.1 == x.2) = true ∧
    ([false, true].all fun d => let s : State := { net.put F.hubFbctrl_run 180 0 7 1 with tasks := [⟨180, 0, some que, 0, d⟩] }
     match (s.tasks.filter (·.hub == 180))[0]? with
      | some t => s.flag F.hubFbctrl_run 180 0 7 && t.hurdle == 0 && t.dispatch == d | none => false) = true := by decide +kernel

/-- ScrubbingAndPenExpiriesComplete: the last slot of a pass at its time; a pen request, a block's and a hub's holder request past their waits; a drain. -/
theorem test_scrubbing_and_expiries_are_met :
    ([0, 2047].all fun k => let s := { upRegion.modBlock 0 0 fun b => { b with scrubSlot := k } with now := 30 * us * k }
      s.works 0 0 && decide ((s.block 0 0).scrubStart + 30 * us * (s.block 0 0).scrubSlot ≤ s.now)) = true ∧
    (let s := { upRegion.updPens 0 0 { pending := [⟨pkt, 0⟩] } with now := ms }
     match (s.penUnit 0 0).pending.find? (fun w => w.pkt.src == 0 && w.pkt.txn == 0) with
      | some w => decide (w.arrived + max 1 (s.fld F.blkPenCfg_waitNs 0 0) * ns ≤ s.now) | none => false) = true ∧
    ([0, 180].all fun n => let s := { net with pens := Sparse.set [] (holderKey n 0) { waiting := [⟨pkt, .plain, none, 0⟩] }, now := ms }
      match (s.holderUnit n 0).waiting with
      | w :: _ => decide (w.since + 2000 * ns ≤ s.now) && (n == 180 || decide (w.since + max 1 (s.fld F.blkPenCfg_waitNs n 0) * ns ≤ s.now)) | [] => false) = true ∧
    (let s := { upRegion.updPens 0 0 { drainStart := some 0, pens := [⟨0, 1, 0, 0, 1, 0⟩] } with now := 100 * us }
     (s.penUnit 0 0).drainStart == some 0 && (s.penUnit 0 0).pens != [] && decide (100 * us ≤ s.now)) = true := by decide +kernel

/-- ScrubbingAndPenExpiriesComplete: the last unit of the pool is free and still holds data. -/
theorem test_pool_zeroing_is_met :
    (let s := upRegion.put F.blkPenCfg_poolUnits 0 0 0 1
     s.unit 0 (pageOf .blk 0 0) == .running && decide (s.poolBase 0 0 / 4096 ≤ 1535) && unitFree (s.penUnit 0 0).pens 1535 &&
      (Sparse.find? (s.penUnit 0 0).lastTag 1535).isNone) = true := by decide +kernel
/-! ## Droves, the job engine, queues, stacks -/

/-- DroveEventsComplete and JobEngineComplete: a stalled stream at its limit; experts whose hurdle has released; descriptors of the three opcodes; a record for a job. -/
theorem test_drove_events_and_jobs_are_met :
    (let x : Stream := { place := 0, seq := 3, tag := 1, src := 0, tiles := 1, fmt := 0, tskip := 0, members := [0], side := 0, prov := false, waiting := true }
     let s := { net.modDrove 156 fun d => { d with streams := [x] } with now := 16384 * us }
     match (s.drove 156).streams.find? (fun x => x.seq == 3 && x.waiting && !x.gone) with
      | some x => decide (x.lastLine + max 1 (s.fld F.drvCfg_stallLimit 156) * 10 * us ≤ s.now) | none => false) = true ∧
    (let e : Experts := { q := ⟨156, 0, 5, 0⟩, tag := 1, table := 0, fold := 0, first := 0, count := 1, members := 1, decOut := 0, prov := false, entries := [],
                          waitGen := some (0xA000, 1) }
     let j : Job := { hurdles := [{ id := 0xA000, inst := 0, blk := 0, need := 1, gen := 1, results := [.done], told := [(156, 1)] }] }
     let s := (net.setJob 1 j).modDrove 156 fun d => { d with experts := some e }
     (s.drove 156).experts == some e && !e.decided && s.asks.isEmpty && s.assists.isEmpty && e.waitGen == some (0xA000, 1) &&
      s.released 156 0 1 0xA000 1 == some .done && s.hostDuty 156 (pageOf .drv 156 0) 4 == false) = true ∧
    ([0x71, 0x72].all fun op => jbeOk (packFields [(0, 8, op)]) && bits (packFields [(0, 8, op)]) 176 48 % 64 == 0) = true ∧
    (jbeOk (packFields [(0, 8, 0x71), (511, 1, 1)]) == false && (net.submitRefused (packFields [(0, 8, 0x70)])).isSome) = true ∧
    (let s : State := { net.setJob 1 { tallyEntries := 64 } with intake := [⟨0, 1, 0, 0⟩] }
     match s.intake, s.job? 1 with | [r], some j => r.tag == 1 && decide (0 < j.tallyEntries) | _, _ => false) = true := by decide +kernel

/-- HostQueuesComplete: doorbells at the ends of both parts of BAR4; a queue with a pending entry; a descriptor of an admitted tag; an entry for a queue with room,
and for one that is full. -/
theorem test_host_queues_are_met :
    (bar4Fits 0 4 none && bar4Fits 0xFFF8 8 none && bar4Fits 0x10000 4 (some [0, 0, 0, 0]) && bar4Fits 0xFFFF8 8 none) = true ∧
    (let s := (net.put F.hubSqcfg_enable 180 0 3 1).put F.hubSqstat_tail 180 0 3 1
     ((List.range 16).map fun i => (Sparse.get 15 s.sqLast 180 + 1 + i) % 16).find? (s.sqReady 180) == some 3) = true ∧
    (let f : Fetched := { hub := 180, sq := 0, index := 0, desc := packFields [(0, 8, 0x70), (24, 6, 1)] }
     f.read == .done && dOpcode f.desc == 0x70 && bit ((net.put F.hubSqtag_tagMask 180 0 0 2).fld F.hubSqtag_tagMask 180 0 0) (dTag f.desc)) = true ∧
    ([(0, false), (1, true)].all fun x =>
      let s : State := { (net.put F.hubCqcfg_enable 180 0 0 1).put F.hubCqstat_head 180 0 0 x.1 with
        cqStore := [{ hub := 180, cq := 0, sq := 0, index := 0, status := .done, kind := 0, tag := 1, head := 0, time := 0 }] }
      (s.cqNext 180 0).isSome && s.flag F.hubCqcfg_enable 180 && s.ringServed 180 (s.fld F.hubCqcfg_base 180) && s.cqFull 180 0 == x.2 &&
        s.flag F.hubCqstat_full 180 == false) = true := by decide +kernel

/-- StackEventsComplete, clause by clause, on stack 0. -/
theorem test_stack_events_are_met :
    ([76, 106, 255].all fun t => let s := { net.setStack 0 { read := some 0 } with now := ms }
      s.fld F.hbmStat_state 156 != 0 && decide (t < 256) && decide (ms ≤ s.now)) = true ∧
    (let s := { (net.put F.hubMemcfg_scrubHours 180 0 0 24).setStack 0 { pass := some 0 } with now := 24 * 3600 * sec }
     s.fld F.hbmStat_state 156 == 2 && decide (0 + s.passTime + s.passExtra 0 ≤ s.now)) = true ∧
    (let s := { (net.put F.hubMemcfg_scrubHours 180 0 0 24).setStack 0 { pass := some 0 } with now := 24 * 3600 * sec - sec }
     s.fld F.hbmStat_state 156 == 2 && s.flag F.hbmScrub_forced 156 == false && s.fld F.hbmScrub_progress 156 == 0 &&
      decide ((0 + s.passTime + s.passExtra 0 - s.now) * 512 ≤ (stackSize - 32 * 0) * 100 + 10 * sec * 512)) = true ∧
    (let s : State := { net with retiring := [.stack 0 4] }
     s.stackFailed 0 == false && s.fld F.hbmStat_state 156 != 0 &&
      s.retiring.find? (fun r => match r with | .stack k _ => k == 0 | _ => false) == some (.stack 0 4)) = true ∧
    (let s := net.put F.hbmStat_state 156 0 0 1
     s.stackFailed 0 == false && s.fld F.hbmStat_state 156 == 1) = true := by decide +kernel

/-! ## Links -/

/-- Bundle 0 of an edge die in a state. -/
def bundle (st : LState) (f : Bundle → Bundle := id) (t : Nat := 0) : State :=
  { ((net.put F.hubPanel_panelId 180 0 0 7).put F.lnkStat_state 156 0 0 st.code).modLink 156 0 f with now := t }

/-- LinkStatesComplete, clause by clause. -/
theorem test_link_states_are_met :
    ([LState.listen, .linger, .align, .up].all fun st => isBundle 156 0 && (bundle st).linkState 156 0 == st) = true ∧
    ((bundle .train).linkState 156 0 == .train && ((bundle .train).link 156 0).asking == false) = true ∧
    (let s := bundle .exchange
     s.linkState 156 0 == .exchange && s.panelId != 0xFFF && s.panelId != 0xFFE && (0 : Nat) % 2 == s.fld F.lnkCtrl_mode 156 && s.widthOk 156 0 (Nat.land (s.lanesOk 156 0) 15)) = true ∧
    (let s := (bundle .up).setLink 156 0 { (bundle .up).link 156 0 with resent := 8 }
     s.linkState 156 0 == .up && decide (8 ≤ (s.link 156 0).resent)) = true ∧
    ([0, 7].all fun lane => let s := bundle .up
      s.linkState 156 0 == .up && s.ethernet 156 0 == false && bit (s.lanesOk 156 0) lane) = true ∧
    ([LState.linger, .train].all fun st => let s := bundle st (fun x => { x with linger := some 0 }) (50 * ms)
      s.linkState 156 0 == st && (s.link 156 0).linger == some 0 && decide (0 + s.fld F.lnkCtrl_lingerMs 156 * ms ≤ s.now)) = true ∧
    (let s := bundle .listen (fun x => { x with wakeSince := some 0, down := true, queue := [.idle], knock := some 0 }) (255 * 10 * ms)
     (s.link 156 0).wakeSince == some 0 && s.linkState 156 0 != .up && decide (0 + max 1 (s.fld F.lnkCtrl_wakeLimit 156) * (10 * ms) ≤ s.now) &&
      (s.link 156 0).down && (s.link 156 0).queue != [] && s.ethernet 156 0 == false && decide (0 + 32 * us ≤ s.now)) = true := by decide +kernel

/-- FramesAndDatagramsComplete: every kind of frame at a bundle that is up; a NAK and an expired acknowledgement below eight resends; a datagram of 1 frame and of 32. -/
theorem test_frames_are_met :
    ([FrameBody.data 1 [], .data 5 [⟨{ pkt with cls := 5 }, 7, 8, 0⟩], .idle, .hurdle 7 8 1 (.join 0), .pace 7 8 1 (.join 0), .time 0 8 0 0 0 0, .down, .reserved].all
      fun x => let f : Frame := { body := x }
      f.crcOk && !f.nak && (match x with | .data c ps => decide (1 ≤ c) && decide (c ≤ 5) && ps.all (fun p => p.pkt.cls == c) | _ => true) &&
        (bundle .up).linkState 156 0 == .up && (bundle .up).flag F.lnkCtrl_mode 156 == false) = true ∧
    (let s := bundle .up (fun x => { x with retry := [(0, .down)], resent := 7 }) (65536 * us)
     (s.link 156 0).retry != [] && decide ((s.link 156 0).resent < 8) &&
      decide ((s.link 156 0).ackAt + max 1 (s.fld F.lnkCtrl_ackTimeout 156) * us ≤ s.now)) = true ∧
    ([1, 32].all fun n => let s := ((bundle .up).put F.lnkCtrl_mode 156 0 0 1).put F.lnkStat_peerId 156 0 0 8
      let d : Datagram := { src := 8, dest := 7, incarnation := 0, frames := List.replicate n {} }
      s.ethernet 156 0 && s.linkState 156 0 == .up && s.vlanOk 156 0 d && d.magic == 0xD41E && d.reserved == 0 && d.dest == s.panelId && d.frames != [] &&
        decide (d.frames.length ≤ 32) && d.incarnation == s.fld F.lnkPeer_incarnation 156 && d.src == s.fld F.lnkStat_peerId 156) = true := by decide +kernel

/-- A request from panel 8 waits in the inbox. -/
def visited (op : PktOp) (dest : Nat) : State :=
  (bundle .up).modLink 156 0 fun x => { x with inbox := [(⟨{ pkt with op := op, cls := op.cls, jobTag := 1 }, dest, 8, 4⟩, 1)] }

/-- Slice 0 grants reads of job 1. -/
def granting (s : State) : State := ((s.put F.hubAperture_valid 180 0 0 1).put F.hubAperture_read 180 0 0 1).put F.hubAperture_jobTag 180 0 0 1

/-- PeerPacketsComplete: outside every slice; in one, with a proxy free; a pen request; in transit for the fourth time. -/
theorem test_peers_are_met :
    (let s := visited .readReq 7
     match s.inboxHead 156 0 2 with
      | some e => e.1.dest == s.panelId && e.1.pkt.op != .penReq && (s.slice? e.1.pkt).isNone | none => false) = true ∧
    (let s := granting (visited .readReq 7)
     match s.inboxHead 156 0 2 with
      | some e => e.1.dest == s.panelId && e.1.pkt.op != .penReq && (s.slice? e.1.pkt).isSome && s.freeProxy 156 == some 0 | none => false) = true ∧
    (let s := visited .penReq 7
     match s.inboxHead 156 0 2 with
      | some e => e.1.dest == s.panelId && e.1.pkt.op == .penReq && ((s.leaveInbox 156 0 e).slice? e.1.pkt).isNone | none => false) = true ∧
    ([0, 128].all fun n => let s : State := { (granting (visited .penReq 7)).put F.hubAperture_write 180 0 0 1 with
        penProxies := (List.range n).map fun i => { edge := 156, index := i, bundle := 0, panel := 8, node := 0, unit := 0, txn := 0, tag := 1, addr := 0 } }
     match s.inboxHead 156 0 2 with
      | some e => let u := s.leaveInbox 156 0 e
        e.1.dest == s.panelId && e.1.pkt.op == .penReq && (u.slice? e.1.pkt).isSome &&
          (firstBelow 128 fun i => !u.penProxies.any fun x => x.edge == 156 && x.index == i) == (if n = 0 then some 0 else none) | none => false) = true ∧
    (let s := visited .readReq 9
     match s.inboxHead 156 0 2 with
      | some e => e.1.dest != s.panelId && decide (4 ≤ e.1.transit) | none => false) = true := by decide +kernel

/-- CascadesComplete: a JOIN before its job; a join period that has ended; a report due; a pace at its time; a bellwether not heard. -/
theorem test_cascades_are_met :
    (let s : State := { net with joins := [(63, 8, 0)] }
     s.joins.find? (fun e => e.1 == 63 && e.2.1 == 8) == some (63, 8, 0) && (s.job? 63).isNone) = true ∧
    (let s := { net.setJob 1 { joinEnd := some 5, members := [{ panel := 8 }], cascade := true, lockstep := true, bell := 8, nextPace := some (3, 5) } with now := 100 * ms }
     match s.job? 1 with
      | some j => j.joinEnd == some 5 && j.state == .running && j.members.any (fun m => !m.joined) && decide (5 ≤ s.now) && j.lockstep &&
          decide (j.paced / ms < s.now / ms) && j.nextPace == some (3, 5) && j.cascade && j.bell != s.panelId && decide (j.heard + 100 * ms ≤ s.now)
      | none => false) = true ∧
    (let s := { bundle .up with joins := [(1, 8, 0)], now := 100 * ms }.setJob 1 { cascade := true, bell := 7, members := [{ panel := 8, joined := true }, { panel := 7 }] }
     match s.job? 1 with
      | some j => s.panelId == 7 && j.cascade && j.bell == s.panelId && j.state == .running && j.members.any (·.panel == 8) &&
          (match j.members.find? (fun m => m.panel == 8 && m.joined && m.panel != s.panelId) with | some m => decide (m.heard + 100 * ms ≤ s.now) | none => false)
      | none => false) = true := by decide +kernel

/-! ## Registers and units -/

/-- An assist of a drove engine. -/
def assist0 : Assist := { id := 3, fn := 4, node := 156, page := 2, deadline := 5, what := .droves 156 }

/-- Bring-up has ended; debug mode; block 0 of region 0 is halted; an assist is outstanding. -/
def booted : State :=
  { (((net.put F.hubBoot_step 180 0 0 13).put F.hubBoot_ready 180 0 0 1).put F.dbgMode_debug 180 0 0 1).put F.dbgBrk_state 0 0 0 2 with assists := [assist0] }

/-- The write that an access makes of the register it names. -/
def writeOf (s : State) (a : RegAccess) : Option RegWr :=
  match namedAt a.node a.page (a.off / 8 * 8) with
  | .reg r b i => some (s.settle ⟨a.node, a.page, a.o, r, b, i, (s.word r a.node b i).toNat, a.v % 2 ^ (8 * a.n) * 2 ^ (8 * (a.off % 8)),
      (2 ^ (8 * a.n) - 1) * 2 ^ (8 * (a.off % 8))⟩)
  | _ => none

/-- The hypotheses on a granted write that reaches one of some fields, as a Boolean. -/
def takes (s : State) (a : RegAccess) (fs : List Field) (ok : RegWr → Bool := fun _ => true) : Bool :=
  s.pathSilent a == false && s.pageAnswer (some a.o) a.node a.page == .serves && (a.o != .H || decide (4 < s.fld F.hubBoot_step 180)) && a.o != .P && a.o != .G &&
    (pageKind a.node a.page).isSome && (a.n == 4 || a.n == 8) && a.off % a.n == 0 && a.touches fs &&
    match writeOf s a with
    | some w => (s.writeRefusal w).isNone && ok w
    | none => false

theorem takes_of {s : State} {a : RegAccess} {fs : List Field} {ok : RegWr → Bool} (h : takes s a fs ok = true) : ∃ w, Takes s a w fs ∧ ok w = true := by
  unfold takes writeOf at h
  simp only [Bool.and_eq_true, Bool.or_eq_true, beq_iff_eq, bne_iff_ne, decide_eq_true_eq] at h
  obtain ⟨⟨⟨⟨⟨⟨⟨⟨⟨h1, h2⟩, h3⟩, h4⟩, h5⟩, h6⟩, h7⟩, h8⟩, ht⟩, h9⟩ := h
  split at h9
  · next w hw =>
    split at hw
    · next r b i hr =>
      cases hw
      rw [Bool.and_eq_true] at h9
      exact ⟨_, ⟨⟨h1, fun e => absurd e h5, h2, fun e => h3.resolve_left (fun n => n e), ⟨h4, fun e => absurd e h5⟩, h6, h7, h8, ⟨r, b, i, hr, rfl⟩,
        Option.isNone_iff_eq_none.mp h9.1⟩, ht⟩, h9.2⟩
    · cases hw
  · cases h9

/-- Each row's granted write reaches its fields and meets the row's condition. -/
def allTake (l : List (List Field × RegAccess × (RegWr → Bool))) : Bool := l.all fun x => takes booted x.2.1 x.1 x.2.2

theorem allTake_of {l : List (List Field × RegAccess × (RegWr → Bool))} (h : allTake l = true) :
    ∀ x ∈ l, ∃ s w, Takes s x.2.1 w x.1 ∧ x.2.2 w = true := fun x hx => ⟨booted, takes_of (List.all_eq_true.mp h x hx)⟩

/-- The new value of a field differs, or not, from the old one. -/
def turns (f : Field) (yes : Bool) (w : RegWr) : Bool := decide (bits w.new f.lo f.width ≠ bits w.old f.lo f.width) == yes
/-- The written word has a bit, or not. -/
def asking (f : Field) (yes : Bool) (w : RegWr) : Bool := decide (bits w.raw f.lo f.width ≠ 0) == yes
def any' (_ : RegWr) : Bool := true

/-- A granted write for each clause of SettingWrites. -/
def settingRows : List (List Field × RegAccess × (RegWr → Bool)) :=
    [ ([F.rtrEpoch_seal], ⟨.F, 0, 1, 256, 8, 32⟩, any'), ([F.rtrFlipAt_flipAt], ⟨.F, 0, 1, 264, 8, 5⟩, fun w => w.new != w.old),
      ([F.rtrFlipAt_flipAt], ⟨.F, 0, 1, 264, 8, 0⟩, fun w => w.new == w.old),
      ([F.mxcRoundsCtrl_enable], ⟨.F, 0, 9, 256, 8, 0⟩, turns F.mxcRoundsCtrl_enable true),
      ([F.mxcRoundsCtrl_enable], ⟨.H, 0, 9, 256, 8, 1⟩, turns F.mxcRoundsCtrl_enable false),
      ([F.hubFbctrl_run], ⟨.H, 180, 5, 264, 8, 1⟩, turns F.hubFbctrl_run true), ([F.hubFbctrl_run], ⟨.H, 180, 5, 264, 8, 0⟩, turns F.hubFbctrl_run false),
      ([F.blkPenCfg_poolUnits], ⟨.H, 0, 8, 384, 8, 5⟩, turns F.blkPenCfg_poolUnits true),
      ([F.blkPenCfg_poolUnits], ⟨.H, 0, 8, 384, 8, 0⟩, turns F.blkPenCfg_poolUnits false),
      ([F.blkPenCount_clear], ⟨.H, 0, 8, 400, 8, 2 ^ 63⟩, any'), ([F.blkClear_clear, F.drvClear_clear], ⟨.H, 0, 8, 1160, 8, 1⟩, fun w => w.r == .blkClear),
      ([F.blkClear_clear, F.drvClear_clear], ⟨.H, 156, 2, 560, 8, 1⟩, fun w => w.r == .drvClear),
      ([F.hubMemcfg_placement, F.hubMemcfg_scrubHours], ⟨.H, 180, 0, 264, 8, 24 * 256⟩, any'), ([F.lnkCtrl_enable], ⟨.H, 156, 8, 256, 8, 1⟩, any'),
      ([F.lnkCtrl_mode], ⟨.H, 156, 8, 256, 8, 2⟩, any'), ([F.lnkCtrl_reenable], ⟨.H, 156, 8, 256, 8, 2 ^ 24⟩, any'),
      ([F.lnkCtrl_fullTrain], ⟨.F, 156, 8, 256, 8, 2 ^ 25⟩, any'), ([F.hubBar2Win_base], ⟨.H, 180, 1, 1288, 8, 1⟩, any'),
      ([F.hubSqcfg_base], ⟨.H, 180, 1, 256, 8, 1⟩, fun w => w.r == .hubSqcfg), ([F.hubCqcfg_base], ⟨.H, 180, 1, 768, 8, 1⟩, fun w => w.r == .hubCqcfg),
      ([F.hubHostcfg_dual], ⟨.H, 180, 1, 1280, 8, 1⟩, any'), ([F.hubBudget_budget], ⟨.H, 180, 0, 288, 8, 1⟩, any') ]

/-- SettingWrites, clause by clause. -/
theorem test_setting_writes_are_granted : ∀ x ∈ settingRows,
    ∃ s w, Takes s x.2.1 w x.1 ∧ x.2.2 w = true := allTake_of (by decide +kernel)

/-- A granted write for each clause of RequestWrites. -/
def requestRows : List (List Field × RegAccess × (RegWr → Bool)) :=
    [ ([F.unitCtrl_enable], ⟨.H, 0, 0, 16, 8, 1⟩, any'), ([F.unitCtrl_resetReq], ⟨.F, 156, 0, 16, 8, 2⟩, any'), ([F.unitCtrl_quiesce], ⟨.F, 0, 0, 16, 8, 4⟩, any'),
      ([F.errInject_go], ⟨.D, 0, 1, 56, 8, 45⟩, any'), ([F.lock_locked], ⟨.H, 0, 0, 96, 8, 0⟩, any'),
      ([F.hubAssistReply_id], ⟨.H, 180, 0, 784, 8, 3⟩, booted.writesNumber), ([F.timRate_rate], ⟨.H, 180, 10, 272, 8, 1⟩, booted.writesNumber),
      ([F.pwrLimit_share], ⟨.F, 0, 2, 264, 8, 1⟩, booted.writesNumber), ([F.hubFcHost_fan], ⟨.H, 180, 0, 304, 8, 1⟩, booted.writesNumber),
      ([F.logHringHead_head], ⟨.H, 180, 11, 288, 8, 0⟩, booted.writesNumber), ([F.hubBootctl_computeReset], ⟨.F, 180, 0, 352, 8, 2⟩, asking F.hubBootctl_panelReset false),
      ([F.hubBootctl_panelReset], ⟨.F, 180, 0, 352, 8, 4⟩, asking F.hubBootctl_panelReset true), ([F.hubBootctl_update], ⟨.F, 180, 0, 352, 8, 8⟩, any'),
      ([F.hubBootctl_forceFull], ⟨.H, 180, 0, 352, 8, 1⟩, any'), ([F.dbgBrk_resume], ⟨.D, 0, 5, 640, 8, 2 ^ 18⟩, any'),
      ([F.dbgBrk_step], ⟨.D, 0, 5, 640, 8, 2 ^ 19⟩, asking F.dbgBrk_resume false), ([F.dbgFreeze_freeze], ⟨.H, 180, 12, 384, 4, 1⟩, any'),
      ([F.dbgFreeze_thaw], ⟨.H, 180, 12, 384, 4, 2⟩, asking F.dbgFreeze_freeze false), ([F.dbgMode_debug], ⟨.D, 180, 12, 256, 8, 0⟩, fun w => bit w.new 0 == false),
      ([F.dbgMode_debug], ⟨.D, 180, 12, 256, 8, 1⟩, fun w => bit w.new 0), ([F.dbgAcc_go], ⟨.F, 180, 12, 264, 8, 2 ^ 49⟩, any'),
      ([F.hubPstate_standbyReq], ⟨.H, 180, 0, 312, 8, 1⟩, any'), ([F.pwrContact_rebase], ⟨.D, 0, 2, 288, 8, 2 ^ 35⟩, any') ]

/-- RequestWrites, clause by clause; STANDBY_REQ beside a panel that is active. -/
theorem test_request_writes_are_granted : (∀ x ∈ requestRows,
    ∃ s w, Takes s x.2.1 w x.1 ∧ x.2.2 w = true) ∧ booted.pstate = 0 := ⟨allTake_of (by decide +kernel), by decide +kernel⟩

/-- RefusedAccessesAndRegisterEffects: a write of a value that is refused (a scrub time of no hours); each refused width, alignment and hole. -/
theorem test_refused_accesses_are_met :
    (namedAt 180 0 264 = .reg .hubMemcfg 0 0 ∧ net.writeRefusal (net.settle ⟨180, 0, .F, .hubMemcfg, 0, 0, (net.word .hubMemcfg 180 0 0).toNat, 0, 2 ^ 64 - 1⟩) = some .value) ∧
    ((pageKind 180 0).map (·.1) ≠ some .mailbox ∧ (pageKind 180 3).map (·.1) = some .mailbox) ∧
    ([(3, 0), (8, 4), (4, 2), (16, 0)].all fun x : Nat × Nat => !([1, 2, 4, 8].contains x.1) || x.2 % x.1 != 0) = true ∧
    namedAt 0 0 0xFF8 = .hole := by decide +kernel

/-- UnitStatesAndAssists, the units: a drained block for each reason; an edge die that starts; a region with its power, alone and as a block's. -/
theorem test_unit_states_are_met :
    ([DrainFor.quiesce, .off, .reset, .update].all fun why => let s : State := { net.setUnit 0 8 .draining with drains := [(drainKey 0 8, why)] }
      s.drain? 0 8 == some why && s.unit 0 8 == .draining && s.drained 0 8 why) = true ∧
    (let s := net.setUnit 156 0 .starting
     (pageKind 156 0).isSome && !isRegion 156 && s.unit 156 0 == .starting) = true ∧
    ([0, 8].all fun page => let s := net.setUnit 0 page .starting
      (pageKind 0 page).isSome && s.unit 0 page == .starting && s.role 0 == 0 && (page == 0 || s.unit 0 0 == .running) && decide ((s.pow 0).upAt ≤ s.now)) = true := by
  decide +kernel

/-- UnitStatesAndAssists, the assists: one asked for; one a unit asks itself; one at its deadline; periodic writes that stop, for each function. -/
theorem test_assists_are_met :
    ({ net with asks := [assist0] } : State).asks = [assist0] ∧
    (let s := (net.setStack 0 { pass := some 0 }).put F.dutyMode_host 156 (pageOf .hbm 156 0) 0 0x80
     (s.ownAssist (.scrub 0)).isSome) = true ∧
    (let s : State := { net with assists := [assist0], now := 5 }
     match s.assists.find? (·.id == 3) with | some a => decide (a.deadline ≤ s.now) | none => false) = true ∧
    ([(5, 0, pageOf .pwr 0 0), (5, 180, 0), (6, 180, 0), (10, 180, 10)].all fun x =>
      let s := { net.put F.dutyMode_host x.2.1 x.2.2 0 0xFFF with now := 100 * ms }
      s.hostDuty x.2.1 x.2.2 x.1 && match s.gapEnd x.1 x.2.1 x.2.2 with | some t => decide (t ≤ s.now) | none => false) = true := by decide +kernel

/-! ## Ports -/

/-- HostPort: accesses at both ends of their sizes, below the register range, in it and above the host range, before bring-up and after; a read without an answer for
900 us. -/
theorem test_host_port_is_met :
    ([(0, 1), (0xFF8, 4096), (2 ^ 36 - 8, 8)].all fun x => booted.barsUp 180 && !net.barsUp 180 && decide (x.1 + x.2 ≤ 2 ^ 36) && decide (0 < x.2) &&
      decide (x.2 ≤ 4096) && x.1 % min x.2 8 == 0 && ((booted.endpoint 180).reqs.any (·.tag == 3)) == false) = true ∧
    ([(0, 0), (0x200, 1), (0x3FF, 1), (0x400, 2)].all fun x => let s := booted.put F.hubBar2Win_base 180 0 0 x.1
      let a := s.fld F.hubBar2Win_base 180 * 2 ^ 36
      s.barsUp 180 && (if x.2 = 1 then decide (0x200000000000 ≤ a) && decide (a < 0x400000000000) else
        decide (a < 0x200000000000) || decide (0x400000000000 ≤ a))) = true ∧
    (let s := { (booted.modEndpoint 180 fun e => { e with reqs := [⟨3, 0, 4, 0, 1, [], .done⟩] }) with now := 900 * us }
     match (s.endpoint 180).reqs.find? (·.tag == 3) with | some r => decide (r.time + 900 * us ≤ s.now) | none => false) = true ∧
    ((net.modEndpoint 180 fun e => { e with perst := true }).endpoint 180).perst = true := by decide +kernel

/-- A guest is present at hub HN, with every traffic class and one window over block 0's memory. -/
def guested : State :=
  ((((((((net.put F.hubGeometry_guestPresent 180 0 0 1).put F.hubFcfg_classMask 180 0 0 63).put F.hubFwin_valid 180 0 0 1).put F.hubFwin_read 180 0 0 1).put
    F.hubFwin_pen 180 0 0 1).put F.hubFwin_base 180 0 0 0x100000000).put F.hubFlim_limit 180 0 0 0x1000000FF).put F.hubFcfg_penMax 180 0 0 1)

/-- GuestPort: a packet for each check that denies (class, window, right), and with no guest present; one that passes with the tokens of a full bucket; a pen request
below PEN_MAX and at it. -/
theorem test_guest_port_is_met :
    (let p : Packet := { pkt with addr := 0x100000000000, oparg0 := 8 }
     net.guestShut 180 && !guested.guestShut 180 && (guested.put F.hubFcfg_classMask 180 0 0 0).guestCheck 180 p == some 0 &&
      guested.guestCheck 180 { p with addr := 0 } == some 1 && guested.guestCheck 180 { p with op := .write } == some 2 &&
      guested.unit 180 0 != .retired && p.op.cls != 1 && guested.guestCheck 180 p == none && decide (p.payload.length * 16 ≤ guested.guestTokens 180)) = true ∧
    ([0, 1].all fun n => let p : Packet := { pkt with op := .penReq, addr := 0x100000000000 }
     let s := guested.put F.hubFcfg_penMax 180 0 0 n
     s.guestCheck 180 p == none && s.guestPens 180 == 0 && decide (s.fld F.hubFcfg_penMax 180 ≤ s.guestPens 180) == decide (n = 0) &&
      (s.holderUnit 180 0xF0).waiting.isEmpty) = true := by decide +kernel

/-- VendorCommands: the states that each error code needs; each command's payload, at its ends; a register access that is answered. -/
theorem test_vendor_commands_are_met :
    (let read : List Byte := leBytes 8 0x200000000000 ++ [8]
     let write : List Byte := leBytes 8 0x200002D00108 ++ [4] ++ leBytes 8 7
     booted.plant.bothLost == false && decide (4 < booted.fld F.hubBoot_step 180) && decide (net.fld F.hubBoot_step 180 ≤ 4) && read.length == 9 &&
      leNat (read.drop 8) == 8 && (match mgmtAccess (leNat (read.take 8)) 8 0 with | some a => (booted.accessRead a).1 == some .done | none => false) &&
      write.length == 17 && leNat ((write.drop 8).take 1) == 4 && (mgmtAccess (leNat (write.take 8)) 4 (leNat (write.drop 9))).isSome) = true ∧
    (let a : RegAccess := ⟨.M, 180, 0, 0x120, 4, 5⟩
     ((booted.wakeEvent 3 4).accessWrite { a with node := (booted.wakeEvent 3 4).master }).1 == some .done) = true ∧
    ([1, 30].all fun n => let x : List Byte := [0, 0, 0, 0, BitVec.ofNat 8 n]
      x.length == 5 && decide (1 ≤ leNat (x.drop 4)) && decide (leNat (x.drop 4) ≤ 30)) = true ∧ leNat [63#8] < 64 := by decide +kernel

/-- ManagementMessages: a sensor that has changed, with no event receiver. -/
theorem test_management_is_met :
    (let s := net.modPlant fun p => { p with airflow := false }
     s.plant.bothLost == false && s.sensorState 29 != s.lastState 29 && s.plant.receiver == none) = true := by decide +kernel

/-! ## Clocks, power, temperature -/

/-- Region 0 with its clock at OP10. -/
def clocked (f : RegionPower → RegionPower := id) (t : Nat := 0) : State := { net.modPow 0 fun p => f { p with freq := opFreq 10 } with now := t }

/-- ClocksAndTime, the clocks. -/
theorem test_clocks_are_met :
    ([(20 * us, false), (us, true)].all fun x => let s := (clocked (fun p => { p with changed := some 0, urgent := x.2 }) x.1).put F.clkStat_target 0 0 0 10
     s.coreOn 0 && (s.pow 0).changing == none && s.fld F.clkStat_target 0 != (s.pow 0).freq && s.fld F.clkStat_target 0 != 0 && (s.pow 0).changed == some 0 &&
      (decide (0 + 20 * us ≤ s.now) || (decide (s.fld F.clkStat_target 0 < (s.pow 0).freq) && (s.pow 0).urgent))) = true ∧
    ((clocked fun p => { p with changing := some 0 }).pow 0).changing = some 0 ∧
    ((clocked.coreOn 0 && !clocked.idles 0 && (clocked.pow 0).changing == none && clocked.flag F.clkStat_stretched 0 == false) = true) ∧
    ((net.put F.clkStat_stretched 0 0 0 1).flag F.clkStat_stretched 0 = true) ∧
    (net.plant.vaon && net.plant.refLost == false && net.flag F.clkStat_refSel 0 == false) = true ∧ ((clocked.pow 0).freq != 0 && decide (net.role 0 < 4)) = true := by
  decide +kernel

/-- ClocksAndTime, panel time. -/
theorem test_panel_time_is_met :
    (let s : State := { net with now := 16 * us }
     s.plant.bothLost == false && decide (s.plant.beaconAt + 16 * us ≤ s.now)) = true ∧
    (let s := net.modPlant fun p => { p with beaconGot := [beaconParent 180 0] }
     s.live 0 && s.plant.bothLost == false && s.plant.beaconGot.contains (beaconParent s.master 0) && !s.plant.beaconGot.contains 0 && s.master != 0) = true ∧
    (net.plant.jobSeen = false ∧ (net.modPlant fun p => { p with jobSeen := true }).plant.jobSeen = true) ∧
    ([(true, false, false), (false, false, false), (false, true, false), (false, false, true)].all fun x =>
      let s := (((net.put F.hubPanel_timeSource 180 0 0 1).put F.timPps_inEn 180 0 0 1).put F.dutyMode_host 180 (pageOf .tim 180 0) 0 (if x.1 then 0x200 else 0)).modPlant
        fun p => { p with jobSeen := x.2.1, aligned := x.2.2 }
      let u := s.setWord .timPpsCapt s.master 0 0 0
      s.flag F.hubPanel_timeSource 180 && s.flag F.timPps_inEn s.master && u.steersItself == !x.1 && s.plant.jobSeen == x.2.1 && s.plant.aligned == x.2.2) = true ∧
    (let s := bundle .up (fun x => { x with timeAt := some 0 }) ms
     isEdge 156 && s.linkState 156 0 == .up && s.flag F.lnkCtrl_mode 156 == false && (s.link 156 0).timeAt == some 0 && decide (0 + ms ≤ s.now) &&
      s.timeParent == none) = true := by decide +kernel

/-- PowerAndTemperature, the power; ClocksAndTime and PowerAndTemperature of an edge die that runs. -/
theorem test_power_is_met :
    (net.plant.vinCore && net.plant.vaon && net.pstate != 4 && decide (net.role 0 < 3) && net.lg F.logStat_holdupReady == 0 && net.unit 156 0 != .retired) = true ∧
    (let s := clocked id (10 * ms)
     s.coreOn 0 && decide ((s.pow 0).measured + 10 * ms ≤ s.now) && decide ((s.pow 0).counted + 10 * us ≤ s.now)) = true ∧
    (let s := { (clocked id (100 * us)).modBlock 0 0 fun b => { b with phases := [(1, ⟨10, true, 0, 0⟩)], phase := some 1 } with now := 100 * us }
     s.coreOn 0 && s.adaptive 0 && s.lockstepped 0 == false && decide ((s.pow 0).looped + 100 * us ≤ s.now)) = true ∧
    (let s : State := { net with now := ms }
     s.pstate != 4 && s.plant.bothLost == false && decide (s.plant.budgetAt + ms ≤ s.now) &&
      decide (11 * s.fld F.hubBudget_budget 180 < 11 * s.fld F.hubBudget_budget 180 + 1) && decide (s.plant.guardAt + 100 * us ≤ s.now)) = true ∧
    (net.plant.throttle = false ∧ (net.modPlant fun p => { p with throttle := true }).plant.throttle = true) := by decide +kernel

/-- PowerAndTemperature, the temperature. -/
theorem test_temperature_is_met :
    (decide (max (max 0 255) (max 1 2) < 256) && decide ((net.pow 0).sampled + 20 * us ≤ ({ net with now := 20 * us } : State).now)) = true ∧
    (let s := { (net.setUnit 0 0 .off).modPow 0 fun p => { p with hotStop := true } with now := sec }
     (s.pow 0).hotStop && s.unit 0 0 == .off && s.pstate != 4 && (s.pow 0).cool95 == some 0 && decide (0 + sec ≤ s.now)) = true ∧
    (net.pstate != 4 && net.plant.airflow) = true ∧
    (let s := { net.put F.hubPstate_state 180 0 0 4 with now := 10 * sec }
     s.pstate == 4 && s.plant.vaon && s.plant.refLost == false && s.plant.bothLost == false &&
      s.power.all (fun e => match e.2.cool90 with | some t => decide (t + 10 * sec ≤ s.now) | none => false)) = true ∧
    (let s : State := { net with now := ms }
     ([(0, 15), (155, 0)] : List (Nat × Nat)).all (fun e => isRegion e.1 && decide (e.2 < 16)) && s.hostDuty s.master 0 6 == false &&
      decide (s.plant.forecastAt + ms ≤ s.now)) = true := by decide +kernel

/-- IdleAndNap, clause by clause. -/
theorem test_idle_and_nap_are_met :
    ((net.put F.pwrStat_state 0 0 0 1).fld F.pwrStat_state 0) = 1 ∧
    (let s := clocked id (10 * us)
     s.unit 0 0 == .running && s.fld F.pwrStat_state 0 == 0 && (s.pow 0).changing == none && s.working 0 == false &&
      decide ((s.pow 0).busy + max 1 (s.fld F.pwrCtrl_idleDelay 0) * us ≤ s.now)) = true ∧
    (let s := ((clocked (fun p => { p with idle := some 0 }) ms).put F.pwrStat_state 0 0 0 1).put F.pwrCtrl_napEn 0 0 0 1
     (s.pow 0).idle == some 0 && s.fld F.pwrStat_state 0 == 1 && s.unit 0 0 == .running && s.flag F.pwrCtrl_napEn 0 && s.napFree 0 &&
      decide (0 + max 1 (s.fld F.pwrCtrl_napDelay 0) * (100 * us) ≤ s.now)) = true ∧
    (let s := (net.put F.pwrStat_state 0 0 0 2).modPlant fun p => { p with exits := List.replicate 11 0 }
     s.fld F.pwrStat_state 0 == 2 && s.pstate != 4 && s.pstate != 2 && decide (s.recentExits.length < 12)) = true ∧
    (net.put F.hubPstate_state 180 0 0 3).pstate = 3 ∧
    (let s := { net.setWord .hubWakeTimer 180 0 0 5 with now := 5 }
     (s.word .hubWakeTimer 180).toNat != 0 && decide ((s.word .hubWakeTimer 180).toNat ≤ s.now)) = true := by decide +kernel

/-! ## Faults, hubs, the log, pins -/

/-- ProbesAndRetirement, clause by clause. -/
theorem test_probes_and_retirement_are_met :
    (let s : State := { net with probes := [{ node := 0, since := 0 }] }
     match s.probe? 0 with | some p => p.sidebandAnswers == none && p.fabricAnswers == none | none => false) = true ∧
    ([(true, true), (true, false), (false, true), (false, false)].all fun x =>
      let s : State := { net with probes := [{ node := 0, since := 0, fabricAnswers := some x.1, sidebandAnswers := some x.2 }] }
      match s.probe? 0 with
      | some p => p.loopback == false && p.fabricAnswers == some x.1 && p.sidebandAnswers == some x.2 && decide ((s.countEvent (eventKey 14 0) sec).1 < 3) | none => false) = true ∧
    (let s : State := { net with
        probes := [{ node := 0, since := 0, fabricAnswers := some true, sidebandAnswers := some true }] }
     let u := ((s.countEvent (eventKey 14 0) sec).2.countEvent (eventKey 14 0) sec).2
     decide (3 ≤ (u.countEvent (eventKey 14 0) sec).1)) = true ∧
    ((({ net with probes := [{ node := 0, since := 0, loopback := true }] } : State).probe? 0).map Probe.loopback == some true) = true ∧
    ([0, 156].all fun n => let s : State := { net with retiring := [if isRegion n then .region n 0 30 1 else .edge n 0 29 1] }
      (s.retiring.findSome? (Retire.of n)).isSome && s.pstate != 4 && s.unit n 0 != .retired) = true ∧
    ([0, 40].all fun f => let s := ((net.put F.rgnSite_role 0 0 0 1).setUnit 0 0 .starting).modPow 0 fun p => { p with freq := f }
      s.unit 0 0 == .starting && s.role 0 == 1 && (s.pow 0).freq == f && decide ((s.pow 0).upAt ≤ s.now)) = true ∧
    ([true, false].all fun st => let page := if st then pageOf .hbm 156 0 else pageOf .drv 156 0
     let s : State := { net with drains := [(156 * 64 + page, .reset)] }
     isEdge 156 && net.unit 156 page == .running && Sparse.find? net.drains (156 * 64 + page) != some .reset &&
      Sparse.find? s.drains (156 * 64 + page) == some .reset) = true := by decide +kernel

/-- Hubs. -/
theorem test_hubs_are_met :
    (let s := { net.modPlant (fun p => { p with sent := [(180, 0)] }) with now := 100 * us }
     isHub 180 && s.plant.hubLost == false && s.plant.bothLost == false && Sparse.find? s.plant.sent 180 == some 0 && decide (0 + 100 * us ≤ s.now)) = true ∧
    (let s : State := { net with now := 3 * ms }
     isHub s.master && s.unit s.master 0 != .retired && s.unit (otherHub s.master) 0 != .retired && decide (Sparse.get 0 s.plant.beats s.master + 3 * ms ≤ s.now) &&
      s.plant.bothLost == false && s.plant.hubLost == false && decide (Sparse.get 0 s.plant.beats (otherHub s.master) + 3 * ms ≤ s.now) &&
      s.switchBusy == false) = true ∧
    (let s := { net.modPlant (fun p => { p with bothLost := true }) with now := ms }
     s.plant.bothLost && decide (s.plant.beaconAt + ms ≤ s.now)) = true := by decide +kernel

/-- LogCommitsSpillsAndScrubs. -/
theorem test_log_is_met :
    ([false, true].all fun stopped => let s : State := { net with reports := [{}], log := { stopped := stopped } }
      s.reports == [{}] && s.plant.bothLost == false && s.log.stopped == stopped && s.lg F.logStat_hostRingOnly == 0 && decide (256 ≤ s.logFree) &&
        s.log.droppedLow == 0 && s.log.droppedHigh == 0) = true ∧
    (let s : State := { (net.put F.logStat_banksOk 180 0 0 0).put F.logStat_banksOk 181 0 0 0 with reports := [{}] }
     s.reports == [{}] && s.log.stopped == false && s.lg F.logStat_hostRingOnly == 0 && s.logFree == 0) = true ∧
    (let s : State := { net.put F.logFlashcfg_size 180 0 0 128 with log := { ring := List.replicate 8 {} } }
     s.flashWorks && s.log.stopped == false && decide (8 ≤ s.unspilled.length) && s.hostSpills == false) = true ∧
    (let s : State := { net with now := 400 * ms }
     ([(180, 3, 8191), (181, 0, 0)] : List (Nat × Nat × Nat)).all (fun w => isHub w.1 && decide (w.2.1 < 4) && decide (w.2.2 < 8192)) &&
      decide (s.plant.scrubAt + 100 * ms ≤ s.now) && s.plant.vinCore && s.lg F.logStat_holdupReady == 0 && decide (s.plant.vinAt + 400 * ms ≤ s.now)) = true := by
  decide +kernel

/-- Pins; IdleStepPassesTime (a panel at rest) and the front of the queue; the invariants' premise that some command answers a next state. -/
theorem test_pins_are_met :
    (let s := State.reset
     s.fld F.hubBoot_step 180 == 2 && s.fld F.hubBoot_failStep 180 == 0 && s.plant.vaon && s.plant.pwrEn &&
      (s.modPlant fun p => { p with vaon := false }).plant.vaon == false) = true ∧
    (let s := { booted with now := 10 * us }
     s.ready && decide (s.plant.railAt + 10 * us ≤ s.now)) = true ∧
    State.reset.pending = [] ∧ State.reset.now + 3 < 2 ^ 64 := by decide +kernel

theorem test_reset_is_quiet : State.reset.quiet :=
  ⟨fun _ h => absurd h List.not_mem_nil, fun q c h => by simp [State.queue, State.reset, Sparse.get, Sparse.find?] at h, fun _ h => absurd h List.not_mem_nil⟩

theorem test_a_step_takes_the_front_command :
    step { State.reset with pending := [.throttleAssert] } = .next (State.reset.modPlant fun p => { p with throttle := true, throttleEnd := none }) := by rfl

/-- The memory's canonical form holds at reset. -/
theorem test_reset_memory_is_canonical : State.reset.mem.wf = true := by decide

/-- No table of the commands gives bits: no word spells one. -/
theorem test_no_word_is_a_command : decodeTableWord 32 0 = none ∧ State.reset.withFetchWord 32 0 = State.reset := by decide

/-! ## Worked values of the spec -/

/-- R158: VADD v1, v2, v3 under p0, bit by bit: FN, PG, VB, VA, VD, OP, FMT. -/
theorem test_decode_vadd : decodeIns 0b000_100_000011_000010_000001_000000_00 = ⟨0x00, 0, 4, 0, 1, 2, 3, 0⟩ := by decide
/-- R158: SADDI s1, s2, -1: IMM12, A, D, OP, FMT. -/
theorem test_decode_saddi : decodeIns 0b111111111111_000010_000001_100000_01 = ⟨0x20, 1, 7, 7, 1, 2, 63, -1⟩ := by decide
/-- R158: SLD s1, [s2 - 8]: IMM8 in units of 8 bytes. -/
theorem test_decode_sld : decodeIns 0b000_000_11111111_0010_000001_101100_10 = ⟨0x2C, 2, 0, 0, 1, 2, 63, -1⟩ := by decide

/-- R90: E2M1 code 7 is 6.0, code 0xF is -6.0. R37: stack 23's last byte. -/
theorem test_e2m1_ends : elemValue 4 0 7 = .fin false 12 (-1) ∧ elemValue 4 0 15 = .fin true 12 (-1) := by decide +kernel
theorem test_address_ends : (match State.reset.locate 0 0 0x8FFFFFFFFF 1 with | .ok (_, l) => l == Loc.stack 23 0x5FFFFFFFF | .error _ => false) = true := by decide +kernel

end Sys2Proof.Tests
end

namespace Sys2Proof.Machine

/-! ## Element formats -/

/-- The values of E2M1's codes 0 to 7 (R90), in halves. -/
def e2m1Halves : List Nat := [0, 1, 2, 3, 4, 6, 8, 12]

/-- E2M1 decodes each of its eight magnitudes by the table, under either sign. -/
theorem elemValue_e2m1 : ∀ c < 8,
    elemValue 4 0 c = .fin false (e2m1Halves.getD c 0) (-1) ∧ elemValue 4 0 (8 + c) = .fin true (e2m1Halves.getD c 0) (-1) := by
  decide

/-- Settles O59. -/
theorem e2M1Table : Obligations.E2M1Table := by
  intro c hc
  obtain ⟨pos, neg⟩ := elemValue_e2m1 c hc
  have listed : c < e2m1Halves.length := hc
  have entry : e2m1Halves[c]? = some (e2m1Halves.getD c 0) := by
    rw [List.getD_eq_getElem?_getD, List.getElem?_eq_getElem listed, Option.getD_some]
  exact ⟨_, entry, pos, neg⟩

end Sys2Proof.Machine

namespace Sys2Proof.Machine

/-! ## Queues, the command in flight and the event ring -/

@[simp] theorem State.queue_setQueue (s : State) (q : QueueRef) (x : Queue) : (s.setQueue q x).queue q = x := by
  simp [State.queue, State.setQueue]

@[simp] theorem State.queue_modQueue (s : State) (q : QueueRef) (f : Queue → Queue) : (s.modQueue q f).queue q = f (s.queue q) := by
  simp [State.modQueue]

@[simp] theorem State.queue_modCur (s : State) (q : QueueRef) (f : InFlight → InFlight) :
    (s.modCur q f).queue q = { s.queue q with cur := (s.queue q).cur.map f } := by
  simp [State.modCur]

@[simp] theorem State.modCur_blocks (s : State) (q : QueueRef) (f : InFlight → InFlight) : (s.modCur q f).blocks = s.blocks := rfl
@[simp] theorem State.modCur_mem (s : State) (q : QueueRef) (f : InFlight → InFlight) : (s.modCur q f).mem = s.mem := rfl

@[simp] theorem State.block_modBlock (s : State) (node b : Nat) (f : Block → Block) :
    (s.modBlock node b f).block node b = f (s.block node b) := by
  simp [State.modBlock, State.setBlock, State.block]

/-- A block depends on the blocks alone. -/
theorem State.block_congr {s t : State} (h : t.blocks = s.blocks) (node b : Nat) : t.block node b = s.block node b := by
  simp [State.block, h]

@[simp] theorem State.queue_modBlock (s : State) (node b : Nat) (f : Block → Block) (q : QueueRef) :
    (s.modBlock node b f).queue q = s.queue q := rfl
@[simp] theorem State.queue_put (s : State) (f : Field) (node b i v : Nat) (q : QueueRef) : (s.put f node b i v).queue q = s.queue q := rfl
@[simp] theorem State.block_put (s : State) (f : Field) (node b i v n m : Nat) : (s.put f node b i v).block n m = s.block n m := rfl

/-- An event changes the event rings alone (R536). -/
theorem State.event_eq (s : State) (at' : Site) (cls code addr arg st eng queue : Nat) :
    ∃ r, s.event at' cls code addr arg st eng queue = { s with rings := r } := by
  unfold State.event
  dsimp only
  repeat' split
  all_goals exact ⟨_, rfl⟩

@[simp] theorem State.event_queue (s : State) (at' : Site) (cls code addr arg st eng queue : Nat) (q : QueueRef) :
    (s.event at' cls code addr arg st eng queue).queue q = s.queue q := by
  obtain ⟨r, h⟩ := s.event_eq at' cls code addr arg st eng queue
  rw [h]; rfl

@[simp] theorem State.event_blocks (s : State) (at' : Site) (cls code addr arg st eng queue : Nat) :
    (s.event at' cls code addr arg st eng queue).blocks = s.blocks := by
  obtain ⟨r, h⟩ := s.event_eq at' cls code addr arg st eng queue
  rw [h]

@[simp] theorem State.event_mem (s : State) (at' : Site) (cls code addr arg st eng queue : Nat) :
    (s.event at' cls code addr arg st eng queue).mem = s.mem := by
  obtain ⟨r, h⟩ := s.event_eq at' cls code addr arg st eng queue
  rw [h]

@[simp] theorem State.began_queue (u : State) (q : QueueRef) (tag a d : Nat) (p : QueueRef) : (u.began q tag a d).queue p = u.queue p := by
  simp [State.began]
@[simp] theorem State.began_blocks (u : State) (q : QueueRef) (tag a d : Nat) : (u.began q tag a d).blocks = u.blocks := by
  simp [State.began]
@[simp] theorem State.began_mem (u : State) (q : QueueRef) (tag a d : Nat) : (u.began q tag a d).mem = u.mem := by
  simp [State.began]
@[simp] theorem State.began_block (u : State) (q : QueueRef) (tag a d n m : Nat) : (u.began q tag a d).block n m = u.block n m :=
  State.block_congr (by simp) n m

/-! ## A command that starts, and its end -/

/-- The command in flight of a queue has met no condition and has not ended: its address, and where the walk goes on (R220, R228). -/
def State.carries (s : State) (q : QueueRef) (a : Nat) (after : Option Nat) : Prop :=
  ∃ c, (s.queue q).cur = some c ∧ c.status = none ∧ c.found = .done ∧ c.addr = a ∧ c.after = after

/-- Only the queue decides what it carries. -/
theorem State.carries_congr {s t : State} {q : QueueRef} {a : Nat} {after : Option Nat} (h : (t.queue q).cur = (s.queue q).cur) :
    t.carries q a after ↔ s.carries q a after := by
  simp [State.carries, h]

/-- Passing R222's wait and predicate leaves the command in flight as it was taken. -/
theorem State.pass_goes_cur {s u : State} {q : QueueRef} {d : Nat} (h : s.pass q d = .goes u) : (u.queue q).cur = (s.queue q).cur := by
  simp only [State.pass] at h
  split at h
  · cases h
  split at h
  · cases h
  next st _ =>
    generalize hx : (if dWait d = 0 || (s.queue q).waited then s else _) = x at h
    have kept : (x.queue q).cur = (s.queue q).cur := by
      rw [← hx]
      split
      · rfl
      · simp
    split at h
    · cases h
    split at h
    · cases h
    · cases h
      exact kept

/-- A command that starts is in flight with a clean slate, and the walk goes on after it unless it carries LAST (R220, R228). -/
theorem Starts.carries {s : State} {q : QueueRef} {ops : List Nat} {ok : State → Nat → Bool} {a tag d : Nat} {u : State}
    (h : Starts s q ops ok a tag d u) : u.carries q a (if dLast d then none else some (a + 64)) := by
  have taken := State.pass_goes_cur h.passes
  rw [State.event_queue, State.takeCur, State.queue_modQueue] at taken
  exact ⟨_, taken, rfl, rfl, rfl, rfl⟩

/-- A row whose command starts does its work on the state with the start recorded (R222). -/
theorem Starts.startHead {s : State} {q : QueueRef} {ops : List Nat} {ok : State → Nat → Bool} {a tag d : Nat} {u : State}
    (h : Starts s q ops ok a tag d u) (run : State → Nat → State) : s.startHead q ops ok run = .next (run (u.began q tag a d) d) := by
  have hrd := h.clean
  have hd := h.desc
  have hp := h.passes
  rcases hf : s.fetchDesc q a with ⟨rd, d', s1⟩
  simp only [hf] at hrd hd hp
  subst hrd hd
  simp only [State.startHead, need, h.queue, h.walk, h.job, h.free, h.runs, h.forwards, hf, h.opcode, h.unbroken, hp, h.common, h.own, h.taken,
    State.began]
  rfl

/-- A command in flight that ends DONE, having met no condition, is ended DONE; of its queue nothing else changes. -/
theorem State.queue_endCmd_done {s : State} {q : QueueRef} {c : InFlight} (hc : (s.queue q).cur = some c) (hs : c.status = none)
    (hf : c.found = .done) :
    (s.endCmd q .done).queue q = { s.queue q with cur := some { c with status := some .done, wait := .none } } := by
  have hcond : s.condition q .done = s.modCur q fun c => { c with found := c.found.first .done } := by
    simp [State.condition, hc, hs, State.unreported]
  simp [State.endCmd, hcond, hc, hs, hf, Status.first]

@[simp] theorem State.condition_blocks (s : State) (q : QueueRef) (st : Status) : (s.condition q st).blocks = s.blocks := by
  unfold State.condition State.unreported
  repeat' split
  all_goals rfl

@[simp] theorem State.condition_mem (s : State) (q : QueueRef) (st : Status) : (s.condition q st).mem = s.mem := by
  unfold State.condition State.unreported
  repeat' split
  all_goals rfl

@[simp] theorem State.endCmd_done_blocks (s : State) (q : QueueRef) : (s.endCmd q .done).blocks = s.blocks := by
  simp [State.endCmd]
@[simp] theorem State.endCmd_done_mem (s : State) (q : QueueRef) : (s.endCmd q .done).mem = s.mem := by
  simp [State.endCmd]
@[simp] theorem State.endCmd_done_block (s : State) (q : QueueRef) (n m : Nat) : (s.endCmd q .done).block n m = s.block n m :=
  State.block_congr (by simp) n m

/-- What a queue carries ends DONE, and the walk goes on where it says. -/
theorem State.carries.ended {s : State} {q : QueueRef} {a : Nat} {after : Option Nat} (h : s.carries q a after) :
    (s.endCmd q .done).ended q .done after := by
  obtain ⟨c, hc, hs, hf, -, hafter⟩ := h
  exact ⟨{ c with status := some .done, wait := .none }, by simp [State.queue_endCmd_done hc hs hf], rfl, hafter⟩

/-- Ending DONE leaves the call stack and the loop count of the queue. -/
theorem State.carries.queue_endCmd {s : State} {q : QueueRef} {a : Nat} {after : Option Nat} (h : s.carries q a after) :
    ((s.endCmd q .done).queue q).calls = (s.queue q).calls ∧ ((s.endCmd q .done).queue q).loop = (s.queue q).loop := by
  obtain ⟨c, hc, hs, hf, -, -⟩ := h
  simp [State.queue_endCmd_done hc hs hf]

/-- The walk of a command in flight is sent to another address (R235). -/
theorem State.carries.redirect {s : State} {q : QueueRef} {a : Nat} {after : Option Nat} (h : s.carries q a after) (x : Option Nat) :
    (s.modCur q fun c => { c with after := x }).carries q a x := by
  obtain ⟨c, hc, hs, hf, ha, -⟩ := h
  exact ⟨{ c with after := x }, by simp [hc], hs, hf, ha, rfl⟩

/-- CTL_JUMP, CTL_CALL and CTL_RET end DONE with the walk at their target, or at the list's end (R235). -/
theorem State.carries.goto {s : State} {q : QueueRef} {a : Nat} {after : Option Nat} (h : s.carries q a after) (d target : Nat) :
    (s.goto q d target).ended q .done (if dLast d then none else some target) ∧ ((s.goto q d target).queue q).calls = (s.queue q).calls := by
  have moved := h.redirect (if dLast d then none else some target)
  refine ⟨moved.ended, ?_⟩
  rw [State.goto, moved.queue_endCmd.1]
  simp

@[simp] theorem State.goto_blocks (s : State) (q : QueueRef) (d target : Nat) : (s.goto q d target).blocks = s.blocks := by
  simp [State.goto]

/-! ## The tables a command sets -/

/-- Bit `p` of a number into which one bit is put there. -/
theorem bit_putBits_same (v p : Nat) (x : Bool) : bit (putBits v p 1 (b2n x)) p = x := by
  have hpos : 0 < 2 ^ p := Nat.two_pow_pos p
  have hput : putBits v p 1 (b2n x) = v % 2 ^ p + 2 ^ p * (2 * (v / 2 ^ p / 2) + b2n x) := by
    have hx : b2n x % 2 = b2n x := by cases x <;> rfl
    have hv : v = 2 ^ p * (2 * (v / 2 ^ p / 2)) + 2 ^ p * (v / 2 ^ p % 2) + v % 2 ^ p := by
      rw [← Nat.mul_add, Nat.div_add_mod, Nat.div_add_mod]
    simp only [putBits, bits, Nat.pow_one, hx, Nat.mul_add, Nat.mul_comm _ (2 ^ p)]
    omega
  have hdiv : putBits v p 1 (b2n x) / 2 ^ p = 2 * (v / 2 ^ p / 2) + b2n x := by
    rw [hput, Nat.add_mul_div_left _ _ hpos, Nat.div_eq_of_lt (Nat.mod_lt _ hpos), Nat.zero_add]
  rw [bit, hdiv, Nat.mul_add_mod]
  cases x <;> rfl

@[simp] theorem State.queue_setPred (s : State) (node blk p : Nat) (x : Bool) (q : QueueRef) : (s.setPred node blk p x).queue q = s.queue q := rfl

/-- A predicate just set reads as it was set. -/
theorem State.bit_preds_setPred (s : State) (node blk p : Nat) (x : Bool) : bit ((s.setPred node blk p x).block node blk).preds p = x := by
  rw [State.setPred, State.block_modBlock, bit_putBits_same]

/-- What CTL_PREDICATE makes of the loop count: its value, or one less (R235). -/
def State.nextLoop (s : State) (q : QueueRef) (d : Nat) : Nat := if bits d 132 3 = 6 then bits d 192 64 else (s.queue q).loop - 1

/-- CTL_PREDICATE's loop operations set the loop count and its predicate (R235). -/
theorem State.runPredicate_loop (s : State) (q : QueueRef) {d : Nat} (h : 6 ≤ bits d 132 3) : s.runPredicate q d =
    ((s.modQueue q fun x => { x with loop := s.nextLoop q d }).setPred q.node q.blk (bits d 128 4) (s.nextLoop q d != 0)).endCmd q .done := by
  rw [State.runPredicate]
  simp only [if_neg (show ¬ bits d 132 3 < 6 by omega)]
  rfl

/-- Setting keys of a list one after the other: a key of the list holds one of the values set, every other key what it held. -/
theorem Sparse.find?_foldl_set {α : Type} (f : Nat → α) (l : List (Nat × Nat)) (m : Sparse α) (k : Nat) :
    if k ∈ l.map Prod.fst then ∃ j, Sparse.find? (l.foldl (fun m x => Sparse.set m x.1 (f x.2)) m) k = some (f j)
    else Sparse.find? (l.foldl (fun m x => Sparse.set m x.1 (f x.2)) m) k = Sparse.find? m k := by
  induction l generalizing m with
  | nil => simp
  | cons x xs ih =>
    have step := ih (Sparse.set m x.1 (f x.2))
    by_cases later : k ∈ xs.map Prod.fst
    · rw [if_pos later] at step
      rwa [List.map_cons, if_pos (List.mem_cons_of_mem _ later)]
    · rw [if_neg later, Sparse.find?_set] at step
      by_cases here : k = x.1
      · rw [if_pos here] at step
        rw [List.map_cons, if_pos (here ▸ List.mem_cons_self)]
        exact ⟨x.2, step⟩
      · rw [if_neg here] at step
        rwa [if_neg (by simp [here, later])]

theorem mem_setBits (n v k : Nat) : k ∈ setBits n v ↔ k < n ∧ bit v k = true := by simp [setBits, allBelow]

/-- A field of `n` bits has no bit set from `n` on. -/
theorem bit_bits_high (v lo : Nat) {n k : Nat} (h : n ≤ k) : bit (bits v lo n) k = false := by
  have hlt : bits v lo n < 2 ^ k := Nat.lt_of_lt_of_le (Nat.mod_lt _ (Nat.two_pow_pos n)) (Nat.pow_le_pow_right (by decide) h)
  simp [bit, Nat.div_eq_of_lt hlt]

/-- The set bits of a 32-bit field, paired with their places, are all of them. -/
theorem map_fst_zip_setBits (v : Nat) : ((setBits 32 v).zip (List.range 32)).map Prod.fst = setBits 32 v :=
  List.map_fst_zip (by simpa [setBits, allBelow] using List.length_filter_le (bit v) (List.range 32))

/-- MXE_BIND_HEFT binds the named slots to its job's token tiles and leaves the others (R199). -/
theorem State.runBind_binds (s : State) (q : QueueRef) (d k : Nat) :
    if bit (bits d 144 32) k then ∃ x, Sparse.find? ((s.runBind q d).block q.node q.blk).binds k = some x ∧ x.tag = dTag d
    else Sparse.find? ((s.runBind q d).block q.node q.blk).binds k = Sparse.find? (s.block q.node q.blk).binds k := by
  have named : k ∈ ((setBits 32 (bits d 144 32)).zip (List.range 32)).map Prod.fst ↔ bit (bits d 144 32) k = true := by
    rw [map_fst_zip_setBits, mem_setBits]
    refine ⟨And.right, fun h => ⟨Nat.lt_of_not_le fun high => ?_, h⟩⟩
    rw [bit_bits_high d 144 high] at h
    cases h
  have bound := Sparse.find?_foldl_set (fun i => (⟨bits d 128 12, bits d 176 12 + i % bits d 188 6, bits d 188 6, bits d 200 16, dTag d⟩ : Binding))
    ((setBits 32 (bits d 144 32)).zip (List.range 32)) (s.block q.node q.blk).binds k
  simp only [State.runBind, State.endCmd_done_block, State.block_modBlock]
  by_cases h : bit (bits d 144 32) k = true
  · rw [if_pos (named.2 h)] at bound
    obtain ⟨j, hj⟩ := bound
    rw [if_pos h]
    exact ⟨_, hj, rfl⟩
  · rw [if_neg (mt named.1 h)] at bound
    rwa [if_neg h]

/-! ## The control and table commands -/

/-- Settles O20: each command is the work that its row does on a state that carries it, and that work ends it DONE. -/
theorem controlAndTableCommandsComplete : Obligations.ControlAndTableCommandsComplete := by
  intro s q a tag d u next
  have carried : ∀ {ops ok}, Starts s q ops ok a tag d u → (u.began q tag a d).carries q a next := fun h =>
    (State.carries_congr (by simp)).2 h.carries
  refine ⟨fun h => ?jump, fun h => ?call, fun x rest h hcalls => ?ret, fun h hop => ?predicate, fun h => ?nop, fun h => ?codebook,
    fun h => ?bind, fun h => ?phase⟩
  case jump =>
    exact ⟨_, h.startHead fun s d => s.goto q d (bits d 128 48), ((carried h).goto d _).1, by simp⟩
  case call =>
    obtain ⟨c, hc, -, -, ha, -⟩ := carried h
    have pushed : ((u.began q tag a d).modQueue q fun x => { x with calls := (a + 64) :: x.calls }).carries q a next :=
      (State.carries_congr (by simp)).2 (carried h)
    refine ⟨_, h.startHead fun s d => s.runCall q d, ?_⟩
    simp only [State.runCall, hc, Option.map_some, Option.getD_some, ha]
    exact ⟨(pushed.goto d _).1, by rw [(pushed.goto d _).2]; simp⟩
  case ret =>
    have popped : ((u.began q tag a d).modQueue q fun y => { y with calls := rest }).carries q a next :=
      (State.carries_congr (by simp)).2 (carried h)
    refine ⟨_, h.startHead fun s d => s.runRet q d, ?_⟩
    simp only [State.runRet, State.began_queue, hcalls]
    exact ⟨(popped.goto d x).1, by rw [(popped.goto d x).2]; simp⟩
  case predicate =>
    intro n
    have count : (u.began q tag a d).nextLoop q d = n := by simp [State.nextLoop, n]
    have counted : (((u.began q tag a d).modQueue q fun x => { x with loop := n }).setPred q.node q.blk (bits d 128 4) (n != 0)).carries q a next :=
      (State.carries_congr (by simp)).2 (carried h)
    refine ⟨_, h.startHead fun s d => s.runPredicate q d, ?_⟩
    rw [State.runPredicate_loop _ _ hop, count]
    refine ⟨counted.ended, ?_, ?_⟩
    · rw [counted.queue_endCmd.2]; simp
    · rw [State.endCmd_done_block, State.bit_preds_setPred]
      exact Bool.eq_iff_iff.2 (bne_iff_ne.trans decide_eq_true_iff.symm)
  case nop =>
    exact ⟨_, h.startHead fun s _ => s.endCmd q .done, (carried h).ended, by simp, fun b => by simp⟩
  case codebook =>
    refine ⟨_, h.startHead fun s d => s.runCodebook q d, ?_⟩
    refine ⟨((State.carries_congr (by simp)).2 (carried h)).ended, ?_, fun b => by simp [State.runCodebook], fun k hk => ?_⟩
    · simp [State.runCodebook]
    · simp [State.runCodebook, Sparse.find?_set_other _ _ _ hk]
  case bind =>
    refine ⟨_, h.startHead fun s d => s.runBind q d, ((State.carries_congr (by simp)).2 (carried h)).ended,
      fun b => by simp [State.runBind], fun k => ?_⟩
    simpa using (u.began q tag a d).runBind_binds q d k
  case phase =>
    refine ⟨_, h.startHead fun s d => s.runPhase q d, ((State.carries_congr (by simp)).2 (carried h)).ended,
      fun b => by simp [State.runPhase], ?_, fun k hk => ?_⟩
    · simp [State.runPhase]
    · simp [State.runPhase, Sparse.find?_set_other _ _ _ hk]

end Sys2Proof.Machine

namespace Sys2Proof.Machine

/-! ## Lanes of a register -/

@[simp] theorem length_lanes (v : VReg) : (lanes v).length = 32 := by simp [lanes]

theorem getD_map_range (f : Nat → Nat) {i n : Nat} (h : i < n) : ((List.range n).map f).getD i 0 = f i := by
  rw [List.getD_eq_getElem?_getD, List.getElem?_map, List.getElem?_range h]
  rfl

theorem lanes_getD (v : VReg) {i : Nat} (h : i < 32) : (lanes v).getD i 0 = bits v.toNat (32 * i) 32 :=
  getD_map_range _ h

theorem bits_lt (v lo n : Nat) : bits v lo n < 2 ^ n := Nat.mod_lt _ (Nat.two_pow_pos n)

/-- A lane is a 32-bit number. -/
theorem lanes_getD_lt (v : VReg) (i : Nat) : (lanes v).getD i 0 < 2 ^ 32 := by
  by_cases h : i < 32
  · rw [lanes_getD v h]; exact bits_lt _ _ _
  · rw [List.getD_eq_getElem?_getD, List.getElem?_eq_none (by rw [length_lanes]; omega)]; decide

/-- A field that lies in a word of `w` bits is the same in the word that a number makes. -/
theorem bits_toNat_ofNat (v : Nat) {lo n w : Nat} (h : lo + n ≤ w) : bits (BitVec.ofNat w v).toNat lo n = bits v lo n := by
  obtain ⟨e, rfl⟩ := Nat.exists_eq_add_of_le h
  rw [BitVec.toNat_ofNat, bits, bits, Nat.add_assoc, Nat.pow_add, Nat.mod_mul_right_div_self, Nat.pow_add, Nat.mod_mul_right_mod]

/-- Lane `i` of the number that a list of lanes spells. -/
theorem bits_foldr_lanes (l : List Nat) (i : Nat) :
    bits (l.foldr (fun x a => a * 2 ^ 32 + x % 2 ^ 32) 0) (32 * i) 32 = l.getD i 0 % 2 ^ 32 := by
  induction l generalizing i with
  | nil => simp [bits]
  | cons x xs ih =>
    cases i with
    | zero => simp [bits]
    | succ i =>
      have tail : ∀ n : Nat, (n * 2 ^ 32 + x % 2 ^ 32) / 2 ^ 32 = n := fun n => by omega
      have place : 2 ^ (32 * (i + 1)) = 2 ^ 32 * 2 ^ (32 * i) := by rw [← Nat.pow_add]; congr 1; omega
      rw [List.getD_cons_succ, ← ih i, List.foldr_cons, bits, bits, place, ← Nat.div_div_eq_div_mul, tail]

/-- The register that lanes make holds their low 32 bits. -/
theorem lanes_ofLanes_getD (l : List Nat) {i : Nat} (h : i < 32) : (lanes (ofLanes l)).getD i 0 = l.getD i 0 % 2 ^ 32 := by
  rw [lanes_getD _ h, ofLanes, bits_toNat_ofNat _ (by omega), List.foldl_reverse, bits_foldr_lanes]

/-! ## Registers of a thread -/

/-- A vector register just written: the masked lanes hold what was written, the others keep theirs (R161). -/
theorem Thread.vec_setVec_same (t : Thread) (r : Nat) (vals : List Nat) (mask : Nat) (bad : Bool) {i : Nat} (h : i < 32) :
    ((t.setVec r vals mask bad).vec r).getD i 0 = if bit mask i then vals.getD i 0 % 2 ^ 32 else (t.vec r).getD i 0 := by
  have written : (t.setVec r vals mask bad).vec r =
      lanes (ofLanes ((List.range 32).map fun i => if bit mask i then vals.getD i 0 else (t.vec r).getD i 0)) := by
    simp [Thread.setVec, Thread.vec]
  rw [written, lanes_ofLanes_getD _ h, getD_map_range _ h]
  split
  · rfl
  · exact Nat.mod_eq_of_lt (lanes_getD_lt _ _)

theorem Thread.vec_setVec_other (t : Thread) {q r : Nat} (h : q ≠ r) (vals : List Nat) (mask : Nat) (bad : Bool) :
    (t.setVec r vals mask bad).vec q = t.vec q := by
  simp only [Thread.setVec, Thread.vec, Sparse.get_set_other _ _ _ _ h]

theorem getD_setAt {α : Type} (l : List α) (i j : Nat) (v d : α) :
    (setAt l i v).getD j d = if j = i ∧ i < l.length then v else l.getD j d := by
  induction l generalizing i j with
  | nil => simp [setAt]
  | cons x xs ih =>
    cases i with
    | zero => cases j <;> simp [setAt]
    | succ i =>
      cases j with
      | zero => simp [setAt]
      | succ j => simpa [setAt] using ih i j

theorem Thread.scalar_setScalar_same (t : Thread) {r : Nat} (h : r < t.s.length) (v : Nat) (bad : Bool) :
    (t.setScalar r v bad).scalar r = v % 2 ^ 64 := by
  simp only [Thread.scalar, Thread.setScalar, getD_setAt, true_and, if_pos h, BitVec.toNat_ofNat]

theorem Thread.scalar_setScalar_other (t : Thread) {q r : Nat} (h : q ≠ r) (v : Nat) (bad : Bool) :
    (t.setScalar r v bad).scalar q = t.scalar q := by
  simp only [Thread.scalar, Thread.setScalar, getD_setAt, h, false_and, if_false]

@[simp] theorem Thread.advance_vec (t : Thread) (r : Nat) : t.advance.vec r = t.vec r := rfl

/-- The next instruction's index, of 12 bits (R148). -/
theorem Thread.advance_pc (t : Thread) : t.advance.pc = (t.pc + 1) % 4096 := by
  show wrapInt 12 ((t.pc : Int) + 1) = _
  simp only [wrapInt]
  omega

theorem SameThread.setVec (t : Thread) (r : Nat) (vals : List Nat) (mask : Nat) (bad : Bool) :
    SameThread t (t.setVec r vals mask bad).advance := ⟨rfl, rfl, rfl, rfl, rfl, rfl, rfl⟩

/-! ## A thread that issues -/

/-- An instruction that a thread issues passes the checks of R159 and runs. -/
theorem Issues.vecStep {s : State} {t : ThreadRef} {op : Nat} {c : VCtx} (h : Issues s t op c) (run : VCtx → Out) :
    vecStep op t s run = run c := by
  have hcell : (decide (t.cell < 14) && decide (t.entry < 256)) = true := by simp [h.cell, h.entry]
  have hop : ((insSpec c.i.op).isNone || c.i.op == op) = true := by simp [h.opcode]
  have hheld : (c.i.vregs.any fun r => decide (c.l.regs ≤ r)) = false := by simpa using h.held
  simp [Machine.vecStep, need, hcell, h.ready, hop, h.legal, hheld]

/-- A register instruction writes the thread its work gives, at the next instruction. -/
theorem Issues.regRow {s : State} {t : ThreadRef} {op : Nat} {c : VCtx} (h : Issues s t op c) {o : Out} {f : VCtx → Except Nat Thread}
    {th : Thread} (ho : o = regRow op t s f) (hf : f c = .ok th) : o = .next (s.setThread t th.advance) := by
  simp [ho, Machine.regRow, h.vecStep, hf]

/-- A register instruction that meets a cause faults its thread. -/
theorem Issues.regRow_error {s : State} {t : ThreadRef} {op : Nat} {c : VCtx} (h : Issues s t op c) {o : Out} {f : VCtx → Except Nat Thread}
    {e : Nat} (ho : o = Machine.regRow op t s f) (hf : f c = .error e) : o = .next (s.threadFault c e) := by
  simp [ho, Machine.regRow, h.vecStep, hf]

/-! ## Scalar and quantisation rows -/

/-- What a scalar instruction does to its thread: it goes on, its scalar holds 64 bits of the result, and no other register changes. -/
theorem Thread.setScalar_advance (t : Thread) (d v : Nat) (bad : Bool) :
    SameThread t (t.setScalar d v bad).advance ∧ (t.setScalar d v bad).advance.pc = (t.pc + 1) % 4096 ∧
      (d < t.s.length → (t.setScalar d v bad).advance.scalar d = v % 2 ^ 64) ∧
      (∀ q, q ≠ d → (t.setScalar d v bad).advance.scalar q = t.scalar q) ∧
      (t.setScalar d v bad).advance.v = t.v ∧ (t.setScalar d v bad).advance.p = t.p :=
  ⟨⟨rfl, rfl, rfl, rfl, rfl, rfl, rfl⟩, Thread.advance_pc _, fun hd => t.scalar_setScalar_same hd v bad,
    fun _ hq => t.scalar_setScalar_other hq v bad, rfl, rfl⟩

/-- SRD writes its source, and draws for the cycle count alone (R160). -/
theorem Issues.exec_srd {s : State} {t : ThreadRef} {c : VCtx} (h : Issues s t 0x1E c) :
    exec (.srd t) s = .next ((if c.i.fn = 1 then { s with freeCount := s.freeCount + 1 } else s).setThread t (c.th.setScalar c.i.d
      (match c.i.fn with
        | 0 => s.timeAt t.node | 1 => (Config.cycleCount s.freeCount).toNat | 2 => c.l.tag | 3 => s.lnum t.node | _ => t.blk) false).advance) :=
  h.vecStep _

theorem getD_take_of_lt (l : List Nat) {i n : Nat} (h : i < n) : (l.take n).getD i 0 = l.getD i 0 := by
  simp only [List.getD_eq_getElem?_getD, List.getElem?_take_of_lt h]

/-- The block of T5 has 40 values (R93). -/
theorem length_dequantise_t5 (book v : Nat) : (dequantise 6 book v).length = 40 := by simp [dequantise, blockCodes]

/-- Elements 32 to 39 of T5 are the first lanes of VDQNT's second register, whatever its other lanes hold (R163). -/
theorem getD_dequantise_t5_rest (book v : Nat) (free : List Nat) {i : Nat} (h : i < 8) :
    ((dequantise 6 book v).drop 32 ++ free).getD i 0 = (dequantise 6 book v).getD (32 + i) 0 := by
  have inside : i < ((dequantise 6 book v).drop 32).length := by rw [List.length_drop, length_dequantise_t5]; omega
  simp only [List.getD_eq_getElem?_getD, List.getElem?_append_left inside, List.getElem?_drop]

/-- Settles O5. -/
theorem scalarAndQuantisationRowsWithFreeValues : Obligations.ScalarAndQuantisationRowsWithFreeValues := by
  refine ⟨⟨fun s t c h => ?vred, fun s t c h hcount => ?sop, fun s t c h hfn hgood hcount => ?sopFree, fun s t c h hfn hbad => ?sopBad,
    fun s t c h hfn => ?srd, fun s t c h hfn => ?srdCycles⟩, fun s t c h => ?vqnt, fun s t c h => ?vdqnt⟩
  case vred =>
    have run := h.regRow (o := execVred t s) rfl rfl
    obtain ⟨same, pc, value, others, v, p⟩ := c.th.setScalar_advance c.i.d _ _
    refine ⟨_, run, same, pc, fun hd => ?_, others, v, p⟩
    rw [value hd]
    omega
  case sop =>
    have whole : ¬ (6 ≤ c.i.fn ∧ c.badScalar c.i.b = true) := fun ⟨hfn, hbad⟩ => by simp [(hcount hfn).1] at hbad
    have small : ¬ (6 ≤ c.i.fn ∧ 64 ≤ c.th.scalar c.i.b) := fun ⟨hfn, hbig⟩ => by have := (hcount hfn).2; omega
    have run := h.regRow (o := exec (.sop t) s) rfl (if_neg whole)
    rw [if_neg small] at run
    obtain ⟨same, pc, value, others, v, p⟩ := c.th.setScalar_advance c.i.d _ _
    exact ⟨_, run, same, pc, v, p, others, value⟩
  case sopFree =>
    have whole : ¬ (6 ≤ c.i.fn ∧ c.badScalar c.i.b = true) := fun ⟨_, hbad⟩ => by simp [hgood] at hbad
    obtain ⟨same, pc, -, others, v, p⟩ := c.th.setScalar_advance c.i.d _ _
    exact ⟨_, h.regRow rfl (if_neg whole), same, pc, others, v, p⟩
  case sopBad => exact h.regRow_error rfl (if_pos ⟨hfn, hbad⟩)
  case srd =>
    obtain ⟨same, pc, value, others, v, p⟩ := c.th.setScalar_advance c.i.d _ false
    have run := h.exec_srd
    rw [if_neg hfn] at run
    refine ⟨_, run, same, pc, others, v, p, fun hd => (value hd).trans ?_⟩
    generalize c.i.fn = n at hfn ⊢
    match n, hfn with
    | 0, _ | 2, _ | 3, _ | _ + 4, _ => rfl
    | 1, one => exact absurd rfl one
  case srdCycles =>
    obtain ⟨same, pc, -, others, -, -⟩ := c.th.setScalar_advance c.i.d _ false
    have run := h.exec_srd
    rw [if_pos hfn] at run
    exact ⟨_, run, same, pc, others⟩
  case vqnt =>
    intro t5 seed q
    refine ⟨_, h.vecStep _, SameThread.setVec .., Thread.advance_pc _, fun r hr => ?_, rfl, rfl, fun i hi => ?_⟩
    · rw [Thread.advance_vec, Thread.vec_setVec_other _ hr]
    · rw [Thread.advance_vec, Thread.vec_setVec_same _ _ _ _ _ hi, Nat.mod_eq_of_lt (lanes_getD_lt _ i)]
      rfl
  case vdqnt =>
    intro out
    by_cases t5 : c.i.fn = 6
    · have run : exec (.vdqnt t) s = _ := (h.vecStep _).trans (if_pos t5)
      refine ⟨_, _, run, (if_pos t5).symm, ⟨rfl, rfl, rfl, rfl, rfl, rfl, rfl⟩, Thread.advance_pc _, rfl, rfl, fun r hr hr' => ?_,
        fun i hi => ?_, fun _ i hi => ?_⟩
      · rw [Thread.advance_vec, Thread.vec_setVec_other _ (hr' t5), Thread.vec_setVec_other _ hr]
      · rw [Thread.advance_vec, Thread.vec_setVec_other _ (Nat.ne_of_lt (Nat.lt_succ_self _)), Thread.vec_setVec_same _ _ _ _ _ hi,
          getD_take_of_lt _ hi]
        rfl
      · rw [Thread.advance_vec, Thread.vec_setVec_same _ _ _ _ _ (by omega), Thread.vec_setVec_other _ (Nat.succ_ne_self _)]
        simp only [out, t5, getD_dequantise_t5_rest _ _ _ hi]
        rfl
    · have run : exec (.vdqnt t) s = _ := (h.vecStep _).trans (if_neg t5)
      refine ⟨_, _, run, (if_neg t5).symm, SameThread.setVec .., Thread.advance_pc _, rfl, rfl, fun r hr _ => ?_, fun i hi => ?_,
        fun six => absurd six t5⟩
      · rw [Thread.advance_vec, Thread.vec_setVec_other _ hr]
      · rw [Thread.advance_vec, Thread.vec_setVec_same _ _ _ _ _ hi, getD_take_of_lt _ hi]
        rfl

end Sys2Proof.Machine

namespace Sys2Proof.Machine

/-! ## A store where storage is not in its canonical form -/

/-- Thread 0 of cell 0 of block 0 of node 0. -/
def zeroStoreThread : ThreadRef := ⟨0, 0, 0, 0⟩

/-- SST s0, [s1]: s0 is 0, s1 the first address of the block's partial sums. -/
def zeroStoreIns : Ins := ⟨0x2D, 2, 0, 0, 0, 1, 0, 0⟩

/-- The launch whose program is that store. -/
def zeroStoreLaunch : Launch :=
  { id := 0, q := ⟨0, 0, 1, 0⟩, tag := 1, image := [encodeIns zeroStoreIns], imageAddr := 0, instrs := 1, regs := 16, threads := 1, groups := 1,
    lmem := 0, ctRead := 0, ctWrite := 0, arg := 0, checked := false, started := true, placed := 1 }

/-- Its thread, at its only instruction. -/
def zeroStoreRegs : Thread := { launch := 0, group := 0, index := 0, s := [0, 0x100001000000] ++ List.replicate 14 0 }

/-- The thread at its next instruction. -/
def zeroStoreCtx : VCtx := ⟨zeroStoreThread, zeroStoreRegs, zeroStoreLaunch, zeroStoreIns⟩

/-- Region 0 is in service with block 0, the thread is ready, and storage lists the first byte of the partial sums twice. -/
def listedTwice : State :=
  let up := ((((State.reset.put F.hubGeometry_lcols 180 0 0 8).setWord .rtrMap0 0 0 0 0).put F.rgnSite_role 0 0 0 0).setUnit 0 0 .running).setUnit 0
    (pageOf .blk 0 0) .running
  { up.modBlock 0 0 fun b => { b with launches := [zeroStoreLaunch], threads := [(zeroStoreThread.key, zeroStoreRegs)] } with
    mem := { cells := [(0x100001000000, 1), (0x100001000000, 1)] } }

theorem listedTwice_issues : Issues listedTwice zeroStoreThread 0x2D zeroStoreCtx where
  cell := by decide
  entry := by decide
  ready := rfl
  opcode := rfl
  legal := by decide
  held := by decide

theorem listedTwice_reaches : listedTwice.ownLoc zeroStoreCtx .store (zeroStoreCtx.addr 8) 8 = some 0x1000000 := by decide +kernel

/-- The first byte of the partial sums once the store of 0 has run: the byte that was listed a second time. -/
theorem listedTwice_byte {v : State} (h : exec (.sst zeroStoreThread none) listedTwice = .next v) : v.mem.byte (blkKeyAt 0 0 0x1000000) = 1 := by
  have ran : (match exec (.sst zeroStoreThread none) listedTwice with
    | .next v => v.mem.byte (blkKeyAt 0 0 0x1000000) | _ => 0) = 1 := by decide +kernel
  rwa [h] at ran

/-- Refutes O8: its clauses on the bytes written do not ask that storage is in its canonical form (`Mem.wf`). Where a byte is listed twice, an SST of 0
unlists it once and the byte still reads as the second listing. -/
theorem not_localStores : ¬ Obligations.LocalStores := by
  rintro ⟨sst, -⟩
  obtain ⟨u, ran, stored, -⟩ := sst listedTwice zeroStoreThread zeroStoreCtx 0x1000000 listedTwice_issues rfl (by decide) listedTwice_reaches
  have kept : u.mem.byte (blkKeyAt 0 0 0x1000000) = 1 := by simpa using listedTwice_byte ran
  have zero : u.mem.byte (blkKeyAt 0 0 0x1000000) = 0 := (List.cons.inj stored).1
  exact absurd (kept.symm.trans zero) (by decide)

end Sys2Proof.Machine

namespace Sys2Proof.Machine

/-! ## Fields of a register -/

/-- Replacing a field: what lies below it, the new value, what lies above it. -/
theorem putBits_eq (v lo n x : Nat) : putBits v lo n x = v % 2 ^ lo + 2 ^ lo * (x % 2 ^ n + 2 ^ n * (v / 2 ^ lo / 2 ^ n)) := by
  have whole : v = 2 ^ lo * (2 ^ n * (v / 2 ^ lo / 2 ^ n)) + 2 ^ lo * (v / 2 ^ lo % 2 ^ n) + v % 2 ^ lo := by
    rw [← Nat.mul_add, Nat.div_add_mod, Nat.div_add_mod]
  simp only [putBits, bits, Nat.mul_add, Nat.mul_comm _ (2 ^ lo)]
  omega

theorem bits_putBits_same (v lo n x : Nat) : bits (putBits v lo n x) lo n = x % 2 ^ n := by
  have low : v % 2 ^ lo < 2 ^ lo := Nat.mod_lt _ (Nat.two_pow_pos lo)
  rw [bits, putBits_eq, Nat.add_mul_div_left _ _ (Nat.two_pow_pos lo), Nat.div_eq_of_lt low, Nat.zero_add, Nat.add_mul_mod_self_left,
    Nat.mod_mod]

/-- A field below the one replaced stays. -/
theorem bits_putBits_below (v x : Nat) {lo n lo' n' : Nat} (h : lo' + n' ≤ lo) : bits (putBits v lo n x) lo' n' = bits v lo' n' := by
  have low : putBits v lo n x % 2 ^ lo = v % 2 ^ lo := by rw [putBits_eq, Nat.add_mul_mod_self_left, Nat.mod_mod]
  rw [← bits_toNat_ofNat _ h, ← bits_toNat_ofNat v h, BitVec.toNat_ofNat, BitVec.toNat_ofNat, low]

theorem State.word_setWord_same (s : State) (r : Reg) (node b i : Nat) (w : Word) : (s.setWord r node b i w).word r node b i = w := by
  simp [State.word, State.setWord]

/-- A register keeps its word when one at another address is written. -/
theorem State.word_setWord_other (s : State) {r r' : Reg} {node b i node' b' i' : Nat} (h : r'.key node' b' i' ≠ r.key node b i) (w : Word) :
    (s.setWord r node b i w).word r' node' b' i' = s.word r' node' b' i' := by
  simp [State.word, State.setWord, Sparse.find?_set_other _ _ _ h]

theorem State.word_put_other (s : State) {f : Field} {r : Reg} {node b i node' b' i' : Nat} (h : r.key node' b' i' ≠ f.reg.key node b i)
    (v : Nat) : (s.put f node b i v).word r node' b' i' = s.word r node' b' i' :=
  s.word_setWord_other h _

/-- A field just put holds the low bits of what was put. -/
theorem State.fld_put_same (s : State) {f : Field} (h : f.lo + f.width ≤ 64) (node b i v : Nat) :
    (s.put f node b i v).fld f node b i = v % 2 ^ f.width := by
  rw [State.fld, State.put, State.word_setWord_same, wordField, wordPut, bits_toNat_ofNat _ h, bits_putBits_same]

/-- A field below the one put, in the same register, stays. -/
theorem State.fld_put_below (s : State) {f g : Field} (hr : g.reg = f.reg) (hg : g.lo + g.width ≤ f.lo) (h : f.lo ≤ 64) (node b i v : Nat) :
    (s.put f node b i v).fld g node b i = s.fld g node b i := by
  rw [State.fld, State.fld, hr, State.put, State.word_setWord_same, wordField, wordPut, bits_toNat_ofNat _ (Nat.le_trans hg h),
    bits_putBits_below _ _ hg, wordField]

/-- A counter just bumped counts one more, up to its largest value. -/
theorem State.fld_bump_same (s : State) {f : Field} (h : f.lo + f.width ≤ 64) (node b i k : Nat) :
    (s.bump f node b i k).fld f node b i = min (s.fld f node b i + k) (2 ^ f.width - 1) := by
  have pos := Nat.two_pow_pos f.width
  rw [State.bump, State.fld_put_same s h, satAdd, Nat.min_comm, Nat.mod_eq_of_lt (by omega)]

/-- A field depends on its register's word alone. -/
theorem State.fld_congr {s t : State} {f : Field} {node b i : Nat} (h : t.word f.reg node b i = s.word f.reg node b i) :
    t.fld f node b i = s.fld f node b i := by
  rw [State.fld, State.fld, h]

@[simp] theorem State.fld_modBlock (s : State) (node b : Nat) (f : Block → Block) (g : Field) (n c i : Nat) :
    (s.modBlock node b f).fld g n c i = s.fld g n c i := rfl
@[simp] theorem State.flag_modBlock (s : State) (node b : Nat) (f : Block → Block) (g : Field) (n c i : Nat) :
    (s.modBlock node b f).flag g n c i = s.flag g n c i := rfl

/-! ## What an error leaves unchanged -/

@[simp] theorem State.event_word (s : State) (at' : Site) (cls code addr arg st eng queue : Nat) (r : Reg) (node b i : Nat) :
    (s.event at' cls code addr arg st eng queue).word r node b i = s.word r node b i := by
  obtain ⟨g, h⟩ := s.event_eq at' cls code addr arg st eng queue
  rw [h]; rfl

theorem State.countCe_eq (s : State) (node page : Nat) (sev : Severity) : ∃ l, s.countCe node page sev = { s with log := l } := by
  unfold State.countCe
  split
  · exact ⟨_, rfl⟩
  · exact ⟨_, rfl⟩

/-- The registers of a page that an error writes: ERR_STAT and ERR_FIRST (R401, R403). -/
def errorKeys (at' : Site) : List Nat := [Reg.errStat.key at'.node at'.page 0, Reg.errFirst.key at'.node at'.page 0]

theorem ne_of_not_mem_errorKeys {at' : Site} {k : Nat} (h : k ∉ errorKeys at') :
    k ≠ Reg.errStat.key at'.node at'.page 0 ∧ k ≠ Reg.errFirst.key at'.node at'.page 0 := by
  simpa [errorKeys] using h

/-- Reporting under LOG_CTRL writes ERR_STAT at most, and leaves storage and the blocks (R401, R406). -/
theorem State.reportCtl_frame (s : State) (at' : Site) (sev : Severity) (e : LogEntry) :
    (s.reportCtl at' sev e).blocks = s.blocks ∧ (s.reportCtl at' sev e).mem = s.mem ∧
      ∀ r node b i, r.key node b i ∉ errorKeys at' → (s.reportCtl at' sev e).word r node b i = s.word r node b i := by
  unfold State.reportCtl
  split
  · obtain ⟨l, h⟩ := s.countCe_eq at'.node at'.page sev
    rw [h]
    exact ⟨rfl, rfl, fun _ _ _ _ _ => rfl⟩
  · exact ⟨rfl, rfl, fun r node b i h => s.word_put_other (f := F.errStat_suppressed) (ne_of_not_mem_errorKeys h).1 _⟩

/-- An error writes ERR_STAT and ERR_FIRST of its page, and leaves every other register, storage and the blocks (R401-R403). -/
theorem State.error_frame (s : State) (at' : Site) (errBit : Nat) (sev : Severity) (addr detail : Nat) :
    (s.error at' errBit sev addr detail).blocks = s.blocks ∧ (s.error at' errBit sev addr detail).mem = s.mem ∧
      ∀ r node b i, r.key node b i ∉ errorKeys at' → (s.error at' errBit sev addr detail).word r node b i = s.word r node b i := by
  unfold State.error State.errorWith
  extract_lets n p masked s1 s2 s3
  obtain ⟨hb, hm, hw⟩ := s3.reportCtl_frame at' sev (faultEntry s3.now at' 8 addr errBit sev.code detail false (!masked || sev == .uePanel))
  refine ⟨hb.trans ?_, hm.trans ?_, fun r node b i h => (hw r node b i h).trans ?_⟩
  · simp [s3, s2, s1, apply_ite State.blocks]
  · simp [s3, s2, s1, apply_ite State.mem]
  · obtain ⟨stat, first⟩ := ne_of_not_mem_errorKeys h
    have h1 : s1.word r node b i = s.word r node b i := by
      simp only [s1]
      split
      · exact s.word_put_other (f := F.errStat_err) stat _
      · rfl
    have h2 : s2.word r node b i = s1.word r node b i := by
      simp only [s2]
      split
      · rw [State.word_put_other (f := F.errFirst_time) _ first, State.word_put_other (f := F.errFirst_severity) _ first,
          State.word_put_other (f := F.errFirst_valid) _ first, State.word_put_other (f := F.errFirst_bit) _ first]
      · rfl
    exact (s2.event_word ..).trans (h2.trans h1)

/-! ## The cell out of service -/

/-- What MXC_ROUNDS_STAT is to show of the cell out of service (R140). -/
def State.outShown (s : State) (node blk : Nat) : Nat :=
  if 33 ≤ s.outCell node blk then 0 else if (s.block node blk).recomputes.any (·.helper == s.outCell node blk) then 3
  else if (s.block node blk).passed || !s.flag F.mxcRoundsCtrl_enable node blk then 2 else 1

theorem State.outShown_lt (s : State) (node blk : Nat) : s.outShown node blk < 2 ^ F.mxcRoundsStat_outState.width := by
  unfold State.outShown
  repeat' split
  all_goals decide

/-- A cell that no recompute is with is on test until it has passed, while rounds are enabled (R138, R140). -/
theorem State.outShown_of_no_recompute {s : State} {node blk : Nat} (hc : s.outCell node blk < 33)
    (hr : ∀ x ∈ (s.block node blk).recomputes, x.helper ≠ s.outCell node blk) (he : s.flag F.mxcRoundsCtrl_enable node blk = true) :
    s.outShown node blk = if (s.block node blk).passed then 2 else 1 := by
  have none : (s.block node blk).recomputes.any (·.helper == s.outCell node blk) = false := by simpa using hr
  simp [State.outShown, Nat.not_le.2 hc, none, he]

theorem State.showOut_eq (s : State) (node blk : Nat) : s.showOut node blk =
    (s.put F.mxcRoundsStat_outState node blk 0 (s.outShown node blk)).modBlock node blk fun b =>
      { b with paused := s.outShown node blk == 3 && !(s.block node blk).passed } := rfl

@[simp] theorem State.mem_showOut (s : State) (node blk : Nat) : (s.showOut node blk).mem = s.mem := rfl

@[simp] theorem State.block_showOut (s : State) (node blk : Nat) : (s.showOut node blk).block node blk =
    { s.block node blk with paused := s.outShown node blk == 3 && !(s.block node blk).passed } := by
  rw [State.showOut_eq, State.block_modBlock, State.block_put]

@[simp] theorem State.outState_showOut (s : State) (node blk : Nat) : (s.showOut node blk).outState node blk = s.outShown node blk := by
  rw [State.showOut_eq, State.outState, State.fld_modBlock, State.fld_put_same _ (by decide), Nat.mod_eq_of_lt (s.outShown_lt node blk)]

@[simp] theorem State.outCell_showOut (s : State) (node blk : Nat) : (s.showOut node blk).outCell node blk = s.outCell node blk :=
  s.fld_put_below (f := F.mxcRoundsStat_outState) (g := F.mxcRoundsStat_outCell) rfl (by decide) (by decide) node blk 0 _

@[simp] theorem State.mem_setOut (s : State) (node blk c : Nat) : (s.setOut node blk c).mem = s.mem := rfl

/-- Of the block, naming a cell out of service changes whether its test is paused, and nothing else. -/
theorem State.block_setOut (s : State) (node blk c : Nat) :
    ∃ p, (s.setOut node blk c).block node blk = { s.block node blk with paused := p } :=
  ⟨_, State.block_showOut _ node blk⟩

@[simp] theorem State.outCell_setOut (s : State) (node blk c : Nat) :
    (s.setOut node blk c).outCell node blk = c % 2 ^ F.mxcRoundsStat_outCell.width := by
  rw [State.setOut, State.outCell_showOut, State.outCell, State.fld_put_same _ (by decide)]

/-! ## What the slot map and an error at a matrix page leave unchanged -/

theorem Reg.key_mxc {r : Reg} (hk : r.place.kind = .mxc) (hs : r.shared = false) (node blk i : Nat) :
    r.key node blk i = node * 0x40000 + (9 + 8 * blk) * 0x1000 + r.place.off + i * r.place.stride := by
  simp only [Reg.key, Reg.home, hs, hk, Bool.false_and, Bool.false_eq_true, if_false, pageOf]

theorem Reg.key_header {r : Reg} (hk : r.place.kind = .header) (hs : r.shared = false) (node page i : Nat) :
    r.key node page i = node * 0x40000 + page * 0x1000 + r.place.off + i * r.place.stride := by
  simp only [Reg.key, Reg.home, hs, hk, Bool.false_and, Bool.false_eq_true, if_false, pageOf]

/-- The registers of a matrix page proper lie above the page's common header (R139-R145). -/
theorem mxcKey_not_mem_errorKeys {r : Reg} (hk : r.place.kind = .mxc) (hs : r.shared = false) (ho : 0x100 ≤ r.place.off) (node blk i c : Nat)
    (tag : Option Nat) : r.key node blk i ∉ errorKeys (cellSite node blk c tag) := by
  have header : ∀ h : Reg, h.place.kind = .header → h.shared = false → h.place.off < 0x100 →
      r.key node blk i ≠ h.key node (pageOf .mxc node blk) 0 := fun h hk' hs' ho' => by
    rw [Reg.key_mxc hk hs, Reg.key_header hk' hs', pageOf]
    omega
  have stat := header .errStat rfl rfl (by decide)
  have first := header .errFirst rfl rfl (by decide)
  simp only [errorKeys, cellSite, List.mem_cons, stat, first, List.not_mem_nil, or_self, not_false_eq_true]

/-- Of two registers of a matrix page, no copy of the upper one is where the lower one is. -/
theorem mxcKey_ne {r r' : Reg} (hk : r.place.kind = .mxc) (hs : r.shared = false) (hk' : r'.place.kind = .mxc) (hs' : r'.shared = false)
    (h : r.place.off < r'.place.off) (node blk j : Nat) : r.key node blk 0 ≠ r'.key node blk j := by
  rw [Reg.key_mxc hk hs, Reg.key_mxc hk' hs']
  omega

/-- Mapping slots writes the slot map's registers alone (R141). -/
theorem State.setSlotCells_frame (node blk : Nat) (l : List (Nat × Nat)) (s : State) :
    ∃ g, l.foldl (fun s x => s.setSlotCell node blk x.2 x.1) s = { s with regs := g } ∧
      ∀ r n c i, (∀ j, r.key n c i ≠ Reg.mxcSlotMap.key node blk j) → State.word { s with regs := g } r n c i = s.word r n c i := by
  induction l generalizing s with
  | nil => exact ⟨s.regs, rfl, fun _ _ _ _ _ => rfl⟩
  | cons x xs ih =>
    obtain ⟨g, hg, kept⟩ := ih (s.setSlotCell node blk x.2 x.1)
    exact ⟨g, hg, fun r n c i h => (kept r n c i h).trans (s.word_setWord_other (h _) _)⟩

theorem State.setSlotMap_eq (s : State) (node blk : Nat) (m : List Nat) : ∃ g, s.setSlotMap node blk m = { s with regs := g } := by
  obtain ⟨g, hg, -⟩ := State.setSlotCells_frame node blk (m.zip (List.range 32)) s
  exact ⟨g, hg⟩

@[simp] theorem State.blocks_setSlotMap (s : State) (node blk : Nat) (m : List Nat) : (s.setSlotMap node blk m).blocks = s.blocks := by
  obtain ⟨g, h⟩ := s.setSlotMap_eq node blk m
  rw [h]
@[simp] theorem State.mem_setSlotMap (s : State) (node blk : Nat) (m : List Nat) : (s.setSlotMap node blk m).mem = s.mem := by
  obtain ⟨g, h⟩ := s.setSlotMap_eq node blk m
  rw [h]
@[simp] theorem State.now_setSlotMap (s : State) (node blk : Nat) (m : List Nat) : (s.setSlotMap node blk m).now = s.now := by
  obtain ⟨g, h⟩ := s.setSlotMap_eq node blk m
  rw [h]
@[simp] theorem State.block_setSlotMap (s : State) (node blk : Nat) (m : List Nat) (n b : Nat) : (s.setSlotMap node blk m).block n b = s.block n b :=
  State.block_congr (by simp) n b

theorem State.flag_enable_setSlotMap (s : State) (node blk : Nat) (m : List Nat) :
    (s.setSlotMap node blk m).flag F.mxcRoundsCtrl_enable node blk = s.flag F.mxcRoundsCtrl_enable node blk := by
  obtain ⟨g, hg, kept⟩ := State.setSlotCells_frame node blk (m.zip (List.range 32)) s
  have apart : ∀ j, Reg.mxcRoundsCtrl.key node blk 0 ≠ Reg.mxcSlotMap.key node blk j := mxcKey_ne rfl rfl rfl rfl (by decide) node blk
  rw [State.flag, State.flag, State.setSlotMap, hg, State.fld_congr (f := F.mxcRoundsCtrl_enable) (kept _ _ _ _ apart)]

theorem State.flag_enable_put_outCell (s : State) (node blk c : Nat) :
    (s.put F.mxcRoundsStat_outCell node blk 0 c).flag F.mxcRoundsCtrl_enable node blk = s.flag F.mxcRoundsCtrl_enable node blk := by
  have apart : Reg.mxcRoundsCtrl.key node blk 0 ≠ Reg.mxcRoundsStat.key node blk 0 := mxcKey_ne rfl rfl rfl rfl (by decide) node blk 0
  rw [State.flag, State.flag, State.fld_congr (f := F.mxcRoundsCtrl_enable) (s.word_put_other (f := F.mxcRoundsStat_outCell) apart c)]

/-- An error at a matrix cell leaves the registers of its page proper. -/
theorem State.fld_error_cellSite (s : State) {f : Field} (hk : f.reg.place.kind = .mxc) (hs : f.reg.shared = false) (ho : 0x100 ≤ f.reg.place.off)
    (node blk c : Nat) (tag : Option Nat) (errBit : Nat) (sev : Severity) (addr detail : Nat) :
    (s.error (cellSite node blk c tag) errBit sev addr detail).fld f node blk = s.fld f node blk := by
  obtain ⟨-, -, words⟩ := s.error_frame (cellSite node blk c tag) errBit sev addr detail
  exact State.fld_congr (words _ _ _ _ (mxcKey_not_mem_errorKeys hk hs ho node blk 0 c tag))

@[simp] theorem Block.wrap_fields (b : Block) (w : Bool) : (b.wrap w).rotations = b.rotations ∧ (b.wrap w).slices = b.slices ∧
    (b.wrap w).recomputes = b.recomputes := by
  unfold Block.wrap
  split <;> exact ⟨rfl, rfl, rfl⟩

theorem need_of_true {c : Bool} {r : Refusal} {o : Out} (h : c = true) : need c r o = o := if_pos h

/-! ## The residue check -/

/-- Product by product, R and S stay alike modulo 15 (R100, R126). -/
theorem residue_eq_exactSum_emod (ps : List (Elem × Elem × Bool)) : residue ps = exactSum ps % 15 := by
  rw [residue, exactSum]
  refine List.foldl_rel (r := fun a b : Int => a % 15 = b % 15) rfl fun p _ a b alike => ?_
  split
  · rw [Int.add_emod, alike, Int.mul_emod, Int.emod_emod, Int.emod_emod, ← Int.mul_emod, ← Int.add_emod]
  · exact alike

/-- The check passes exactly where the sum and the residue have moved alike modulo 15 (R126). -/
theorem residueOk_iff (ps : List (Elem × Elem × Bool)) (err : Int) (res : Nat) : residueOk ps err res = true ↔ (err - res) % 15 = 0 := by
  rw [residueOk, beq_iff_eq, residue_eq_exactSum_emod]
  omega

/-- Settles O26: R is S modulo 15, so only a difference between what moved them can fail the check. -/
theorem residueCheck : Obligations.ResidueCheck := fun ps =>
  ⟨(residueOk_iff ps 0 0).2 rfl, residue_eq_exactSum_emod ps, residueOk_iff ps⟩

/-! ## Windows of the matrix cells -/

theorem State.enable_of_roundsRun {s : State} {node blk : Nat} (h : s.roundsRun node blk = true) : s.flag F.mxcRoundsCtrl_enable node blk = true :=
  (Bool.and_eq_true_iff.1 h).2

/-- A cell named out of service with no recompute pending is on test until it has passed. -/
theorem State.outState_setOut {s : State} {node blk c : Nat} (hc : c % 2 ^ F.mxcRoundsStat_outCell.width < 33)
    (hr : (s.block node blk).recomputes = []) (he : s.flag F.mxcRoundsCtrl_enable node blk = true) :
    (s.setOut node blk c).outState node blk = if (s.block node blk).passed then 2 else 1 := by
  have named : (s.put F.mxcRoundsStat_outCell node blk 0 c).outCell node blk < 33 := by rwa [State.outCell, State.fld_put_same _ (by decide)]
  rw [State.setOut, State.outState_showOut, State.outShown_of_no_recompute named (by simp [hr]) (by rwa [State.flag_enable_put_outCell]),
    State.block_put]

/-- What a rotation makes of the block's account of its rounds (R131). -/
def Block.rotated (b : Block) (wraps : Bool) (now : Nat) : Block :=
  { b.wrap wraps with rotations := b.rotations + 1, window := some now, failedOnce := false, passed := false }

/-- What a rotation to a cell leaves: the cell on rounds serves that cell's slot, and a window is open on it (R131, R134). -/
def State.rotated (s : State) (node blk : Nat) (x : Nat × Bool) : State :=
  let t := s.setSlotMap node blk ((s.slotMap node blk).map fun c => if c = x.1 then s.outCell node blk else c)
  (t.modBlock node blk fun b => b.rotated x.2 t.now).setOut node blk x.1

theorem execRoundsRotation_of_due {s : State} {node blk : Nat} (hn : isRegion node = true) (hb : blk < 4) (hr : s.roundsRun node blk = true)
    (hs : s.flag F.mxcRoundsStat_sliced node blk = false)
    (hd : (s.block node blk).roundStart + ((s.block node blk).rotations + 1) * (64 * us) ≤ s.now) (hp : (s.block node blk).passed = true)
    (he : (s.block node blk).recomputes = []) :
    execRoundsRotation node blk s =
      .next (s.rotated node blk ((s.nextMatCell node blk (s.outCell node blk)).getD (s.outCell node blk, false))) := by
  rw [execRoundsRotation, need_of_true (by simp [hn, hb]), need_of_true (by simp [hr, hs]), need_of_true (by simp [hd, hp, he])]
  rfl

/-- What opening a test window on a cell makes of the block's account of its slices (R136). -/
def Block.sliceOpened (b : Block) (x : Nat × Bool) (now : Nat) : Block :=
  { b.wrap x.2 with window := some now, slices := b.slices + 1, sliceNext := x.1, failedOnce := false, passed := false }

/-- What opening a test window in time-sliced mode leaves: the cell is out of service, and the others carry every slot (R136). -/
def State.sliceOpened (s : State) (node blk : Nat) (x : Nat × Bool) : State :=
  ((s.setSlotMap node blk (List.replicate 32 0x3F)).modBlock node blk fun b => b.sliceOpened x s.now).setOut node blk x.1

theorem execSliceWindowOpen_of_due {s : State} {node blk : Nat} {x : Nat × Bool} (hn : isRegion node = true) (hb : blk < 4)
    (hr : s.roundsRun node blk = true) (hs : s.flag F.mxcRoundsStat_sliced node blk = true) (hw : (s.block node blk).window = none)
    (hd : ((s.block node blk).slices + 1) * (2112 * us) ≤ (s.now - (s.block node blk).sliceStart) * (s.cellOrder node blk).length)
    (he : (s.block node blk).recomputes = []) (hx : s.nextMatCell node blk (s.block node blk).sliceNext = some x) :
    execSliceWindowOpen node blk s = .next (s.sliceOpened node blk x) := by
  rw [execSliceWindowOpen, need_of_true (by simp [hn, hb]), need_of_true (by simp [hr, hs, hw]), need_of_true (by simp [hd, he])]
  simp only [hx]
  rfl

theorem State.block_rotated (s : State) (node blk : Nat) (x : Nat × Bool) :
    ((s.rotated node blk x).block node blk).rotations = (s.block node blk).rotations + 1 ∧
      ((s.rotated node blk x).block node blk).window = some s.now ∧ ((s.rotated node blk x).block node blk).passed = false := by
  unfold State.rotated
  extract_lets t
  obtain ⟨p, hp⟩ := (t.modBlock node blk fun b => b.rotated x.2 t.now).block_setOut node blk x.1
  rw [hp]
  simp [t, Block.rotated]

@[simp] theorem State.outCell_rotated (s : State) (node blk : Nat) (x : Nat × Bool) :
    (s.rotated node blk x).outCell node blk = x.1 % 2 ^ F.mxcRoundsStat_outCell.width := by
  rw [State.rotated, State.outCell_setOut]

@[simp] theorem State.mem_rotated (s : State) (node blk : Nat) (x : Nat × Bool) : (s.rotated node blk x).mem = s.mem := by
  rw [State.rotated, State.mem_setOut, State.modBlock_mem, State.mem_setSlotMap]

theorem State.outState_rotated {s : State} {node blk : Nat} {x : Nat × Bool} (hx : x.1 % 2 ^ F.mxcRoundsStat_outCell.width < 33)
    (hr : (s.block node blk).recomputes = []) (he : s.flag F.mxcRoundsCtrl_enable node blk = true) :
    (s.rotated node blk x).outState node blk = 1 := by
  unfold State.rotated
  extract_lets t
  rw [State.outState_setOut hx (by simp [t, Block.rotated, hr]) (by rwa [State.flag_modBlock, State.flag_enable_setSlotMap])]
  simp [Block.rotated]

theorem State.block_sliceOpened (s : State) (node blk : Nat) (x : Nat × Bool) :
    ((s.sliceOpened node blk x).block node blk).slices = (s.block node blk).slices + 1 ∧
      ((s.sliceOpened node blk x).block node blk).window = some s.now ∧ ((s.sliceOpened node blk x).block node blk).sliceNext = x.1 := by
  obtain ⟨p, hp⟩ := ((s.setSlotMap node blk (List.replicate 32 0x3F)).modBlock node blk fun b => b.sliceOpened x s.now).block_setOut node blk x.1
  rw [State.sliceOpened, hp]
  simp [Block.sliceOpened]

@[simp] theorem State.outCell_sliceOpened (s : State) (node blk : Nat) (x : Nat × Bool) :
    (s.sliceOpened node blk x).outCell node blk = x.1 % 2 ^ F.mxcRoundsStat_outCell.width := by
  rw [State.sliceOpened, State.outCell_setOut]

@[simp] theorem State.mem_sliceOpened (s : State) (node blk : Nat) (x : Nat × Bool) : (s.sliceOpened node blk x).mem = s.mem := by
  rw [State.sliceOpened, State.mem_setOut, State.modBlock_mem, State.mem_setSlotMap]

/-- A window that closes is open no longer. -/
theorem State.window_closeWindow (s : State) (node blk : Nat) : ((s.closeWindow node blk).block node blk).window = none := by
  unfold State.closeWindow
  extract_lets b t own v
  have closed : (t.block node blk).window = none := by simp [t]
  split
  · obtain ⟨p, hp⟩ := (t.modBlock node blk fun b => { b with recomputes := b.recomputes.map own }).block_setOut node blk 0x3F
    have kept : (v.block node blk).window = none := by
      simp only [v]
      rw [hp]
      simp [closed]
    split
    · rw [State.block_setSlotMap, kept]
    · exact kept
  · exact closed

/-! ## Known-answer tests and recomputes -/

/-- What the end of a test that passes reports first: a failed run before it is an error of the cell (R133). -/
def State.notedTransient (s : State) (node blk signature : Nat) : State :=
  if (s.block node blk).failedOnce then s.error (cellSite node blk (s.outCell node blk)) 6 .ce 0 signature else s

theorem State.notedTransient_frame (s : State) (node blk signature : Nat) :
    (s.notedTransient node blk signature).block node blk = s.block node blk ∧ (s.notedTransient node blk signature).mem = s.mem ∧
      (s.notedTransient node blk signature).outCell node blk = s.outCell node blk ∧
      (s.notedTransient node blk signature).flag F.mxcRoundsCtrl_enable node blk = s.flag F.mxcRoundsCtrl_enable node blk := by
  unfold State.notedTransient
  split
  · obtain ⟨blocks, mem, -⟩ := s.error_frame (cellSite node blk (s.outCell node blk)) 6 .ce 0 signature
    refine ⟨State.block_congr blocks node blk, mem, s.fld_error_cellSite rfl rfl (by decide) .., ?_⟩
    rw [State.flag, State.flag, s.fld_error_cellSite (f := F.mxcRoundsCtrl_enable) rfl rfl (by decide)]
  · exact ⟨rfl, rfl, rfl, rfl⟩

/-- What a passed test leaves: it is noted, and what the cell has served before is past (R135). -/
def State.testPassed (s : State) (node blk signature : Nat) : State :=
  ((s.notedTransient node blk signature).modBlock node blk fun b =>
    { b with passed := true, failedOnce := false, floatWork := b.floatWork.filter fun w => w.1 != s.outCell node blk,
             runs := b.runs.map fun r => { r with cells := r.cells.filter (· != s.outCell node blk) } }).showOut node blk

theorem State.testPassed_frame (s : State) (node blk sig : Nat) :
    ((s.testPassed node blk sig).block node blk).passed = true ∧ ((s.testPassed node blk sig).block node blk).failedOnce = false ∧
      (s.testPassed node blk sig).mem = s.mem ∧
      ∀ r ∈ ((s.testPassed node blk sig).block node blk).runs, s.outCell node blk ∉ r.cells := by
  obtain ⟨-, mem, -, -⟩ := s.notedTransient_frame node blk sig
  refine ⟨by simp [State.testPassed], by simp [State.testPassed], by simp [State.testPassed, mem], fun r hr => ?_⟩
  rw [State.testPassed, State.block_showOut, State.block_modBlock] at hr
  obtain ⟨r', -, rfl⟩ := List.mem_map.1 hr
  simp

/-- A cell that has passed, with no recompute at it, stands by (R132, R140). -/
theorem State.outState_testPassed {s : State} {node blk : Nat} (sig : Nat) (hc : s.outCell node blk < 33)
    (hr : ∀ x ∈ (s.block node blk).recomputes, x.helper ≠ s.outCell node blk) (he : s.flag F.mxcRoundsCtrl_enable node blk = true) :
    (s.testPassed node blk sig).outState node blk = 2 := by
  obtain ⟨block, -, cell, enable⟩ := s.notedTransient_frame node blk sig
  have cell' : ∀ f, ((s.notedTransient node blk sig).modBlock node blk f).outCell node blk = s.outCell node blk := fun _ => cell
  rw [State.testPassed, State.outState_showOut, State.outShown_of_no_recompute]
  · simp
  · rwa [cell']
  · rw [cell', State.block_modBlock, block]
    exact hr
  · rw [State.flag_modBlock, enable, he]

theorem execRoundsTestDone_of_running {s : State} {node blk : Nat} (pass : Bool) (sig : Nat) (hn : isRegion node = true) (hb : blk < 4)
    (hr : s.roundsRun node blk = true) (ho : s.outState node blk = 1) (hp : (s.block node blk).passed = false) :
    execRoundsTestDone node blk pass sig s = .next (
      if pass then s.testPassed node blk sig
      else if (s.block node blk).failedOnce then
        ((s.bump F.mxcRoundsStat_testFails node blk 0).error (cellSite node blk (s.outCell node blk)) 6 .ce 0 sig).cellFaulty node blk
          (s.outCell node blk) .ce 2 true
      else (s.bump F.mxcRoundsStat_testFails node blk 0).modBlock node blk fun b => { b with failedOnce := true }) := by
  rw [execRoundsTestDone, need_of_true (by simp [hn, hb]), need_of_true (by simp [hr, ho, hp])]
  split
  · rfl
  · split <;> rfl

/-- A recompute that nothing disturbs leaves no element poisoned and none mismatched (R127). -/
theorem State.resolveRecompute_undisturbed (s : State) (x : Recompute) :
    ∃ t, s.resolveRecompute x [] = ([], [], t) := by
  unfold State.resolveRecompute
  split
  · split <;> exact ⟨_, rfl⟩
  · exact ⟨_, rfl⟩

/-- MXC_RESIDUE stands beside what MXC_ROUNDS_STAT shows. -/
theorem State.fld_lastMasked_showOut (s : State) (node blk : Nat) :
    (s.showOut node blk).fld F.mxcResidue_lastMasked node blk = s.fld F.mxcResidue_lastMasked node blk := by
  have apart : Reg.mxcResidue.key node blk 0 ≠ Reg.mxcRoundsStat.key node blk 0 := (mxcKey_ne rfl rfl rfl rfl (by decide) node blk 0).symm
  rw [State.showOut_eq, State.fld_modBlock, State.fld_congr (f := F.mxcResidue_lastMasked) (s.word_put_other (f := F.mxcRoundsStat_outState) apart _)]

/-- Settles O25: when an event is due its row passes every check and comes to the state that its lemma above names. -/
theorem matrixRoundsComplete : Obligations.MatrixRoundsComplete := by
  refine ⟨fun s node blk hn hb hr hs hd hp he => ?rotation, fun s node blk sig hn hb hr ho hp => ⟨?passes, fun hf => ?fails, fun hf => ?failsTwice⟩,
    fun s node blk t hn hb hw hr hp ho hd => ⟨?windowEnd, s.window_closeWindow node blk⟩,
    fun s node blk x hn hb hr hs hw hd he hx => ?slice, fun s node blk x rest hn hb hx => ⟨fun again => ?recompute, ?masked⟩⟩
  case rotation =>
    have next : ∀ o : Option (Nat × Bool), (o.getD (s.outCell node blk, false)).1 = (o.map (·.1)).getD (s.outCell node blk) := fun o => by
      cases o <;> rfl
    refine ⟨_, execRoundsRotation_of_due hn hb hr hs hd hp he, ?_⟩
    rw [← next]
    generalize (s.nextMatCell node blk (s.outCell node blk)).getD (s.outCell node blk, false) = x
    obtain ⟨rotations, window, passed⟩ := s.block_rotated node blk x
    exact ⟨rotations, window, passed, s.mem_rotated node blk x, s.outCell_rotated node blk x,
      fun named => State.outState_rotated (by simpa using named) he (State.enable_of_roundsRun hr)⟩
  case passes =>
    obtain ⟨passed, failedOnce, mem, runs⟩ := s.testPassed_frame node blk sig
    exact ⟨_, execRoundsTestDone_of_running true sig hn hb hr ho hp, passed, failedOnce, mem,
      fun hc idle => State.outState_testPassed sig hc idle (State.enable_of_roundsRun hr), runs⟩
  case fails =>
    refine ⟨_, execRoundsTestDone_of_running false sig hn hb hr ho hp, ?_⟩
    rw [if_neg Bool.false_ne_true, if_neg (by simp [hf])]
    exact ⟨by simp, rfl, s.fld_bump_same (by decide) ..⟩
  case failsTwice => exact (execRoundsTestDone_of_running false sig hn hb hr ho hp).trans (by rw [if_neg Bool.false_ne_true, if_pos hf])
  case windowEnd =>
    show execRoundsWindowEnd node blk s = _
    rw [execRoundsWindowEnd, need_of_true (by simp [hn, hb]), hw]
    exact (need_of_true (by simp [hr, hp, ho])).trans (need_of_true (by simpa using hd))
  case slice =>
    obtain ⟨slices, window, sliceNext⟩ := s.block_sliceOpened node blk x
    exact ⟨_, execSliceWindowOpen_of_due hn hb hr hs hw hd he hx, slices, window, sliceNext, s.outCell_sliceOpened node blk x,
      s.mem_sliceOpened node blk x⟩
  case recompute =>
    show ∃ u, execRecomputeDone node blk again s = .next (State.matrixTick u node blk)
    rw [execRecomputeDone, need_of_true (by simp [hn, hb])]
    simp only [hx]
    exact ⟨_, rfl⟩
  case masked =>
    obtain ⟨t, ht⟩ := (s.modBlock node blk fun b => { b with recomputes := rest }).resolveRecompute_undisturbed x
    refine ⟨((t.put F.mxcResidue_lastMasked node blk 0 1).error (cellSite node blk x.cell (s.queue x.q).tag) 4 .ce
      (((s.queue x.q).cur.map InFlight.addr).getD 0) 0).showOut node blk, ?_, ?_⟩
    · show execRecomputeDone node blk [] s = _
      rw [execRecomputeDone, need_of_true (by simp [hn, hb])]
      simp only [hx, ht]
      rfl
    · rw [State.fld_lastMasked_showOut, State.fld_error_cellSite _ rfl rfl (by decide), State.fld_put_same _ (by decide)]
      rfl

end Sys2Proof.Machine

namespace Sys2Proof.Machine

/-! ## Pen units and the answers they give -/

@[simp] theorem State.event_pens (s : State) (at' : Site) (cls code addr arg st eng queue : Nat) :
    (s.event at' cls code addr arg st eng queue).pens = s.pens := by
  obtain ⟨r, h⟩ := s.event_eq at' cls code addr arg st eng queue
  rw [h]

/-- An answer is a packet on its way: it changes no pen unit (R69). -/
@[simp] theorem State.answer_pens (s : State) (node : Nat) (p : Packet) (st : Status) : (s.answer node p st).pens = s.pens := by
  unfold State.answer
  split <;> rfl

@[simp] theorem State.bump_pens (s : State) (f : Field) (node b i k : Nat) : (s.bump f node b i k).pens = s.pens := rfl
@[simp] theorem State.bump_mem (s : State) (f : Field) (node b i k : Nat) : (s.bump f node b i k).mem = s.mem := rfl
@[simp] theorem State.showPens_pens (s : State) (node blk : Nat) : (s.showPens node blk).pens = s.pens := rfl

/-- A pen unit depends on the pen units alone. -/
theorem State.penUnit_congr {s t : State} (h : t.pens = s.pens) (node blk : Nat) : t.penUnit node blk = s.penUnit node blk := by
  simp [State.penUnit, h]

@[simp] theorem State.penUnit_updPens (s : State) (node blk : Nat) (u : PenUnit) : (s.updPens node blk u).penUnit node blk = u := by
  simp [State.updPens, State.penUnit, State.setPenUnit]

/-! ## Packets at a pen unit -/

/-! Taking a packet out of those delivered leaves what a pen unit decides by. -/

@[simp] theorem State.take_blockOf (s : State) (p q : Packet) : (s.take p).blockOf q = s.blockOf q := rfl
@[simp] theorem State.take_locate (s : State) (p : Packet) (node epoch addr n : Nat) : (s.take p).locate node epoch addr n = s.locate node epoch addr n := rfl
@[simp] theorem State.take_regionAnswer (s : State) (p : Packet) (node blk : Nat) : (s.take p).regionAnswer node blk = s.regionAnswer node blk := rfl
@[simp] theorem State.take_penUnit (s : State) (p : Packet) (node blk : Nat) : (s.take p).penUnit node blk = s.penUnit node blk := rfl

/-- A PEN_REQ that lands at a block that serves is refused where the table or the pool has no room for it, else it is tabled and the round goes on (R203). -/
theorem Lands.exec_penReq {s : State} {p : Packet} {node blk : Nat} (h : Lands s p) (hb : s.blockOf p = some (node, blk))
    (hr : s.regionAnswer node blk = .serves) (hop : p.op = .penReq) : exec (.penReq p) s =
      if 128 ≤ (s.penUnit node blk).pending.length ∨ s.fld F.blkPenCfg_poolUnits node blk < penUnits p ∨ penUnits p = 0 then
        .next (((s.take p).bump F.blkPenCount_tableFull node blk 0).penFull node blk p)
      else .next (((s.take p).updPens node blk { s.penUnit node blk with
        pending := (s.penUnit node blk).pending ++ [⟨p, s.now⟩] }).penRound node blk (some (p.src, p.txn))) := by
  show execPenReq p s = _
  rw [execPenReq, need_of_true (by simp [hop, h.dest]), need_of_true (by simp [h.due])]
  simp only [h.arrive, h.here, State.take_blockOf, hb, State.take_regionAnswer, hr]
  rfl

/-- The sender of a release holds the pen it names by its base address (R206). -/
def Pen.releasedBy (p : Packet) (q : Pen) : Bool := q.base == p.addr && q.node == p.src && q.unit == p.srcUnit

/-- A PEN_RELEASE of a pen that its sender holds frees the pen, is answered and lets the round go on (R206). -/
theorem Lands.exec_penRelease_held {s : State} {p : Packet} {node blk : Nat} {q : Pen} (h : Lands s p) (hb : s.blockOf p = some (node, blk))
    (hr : s.regionAnswer node blk = .serves) (hop : p.op = .penRelease) (hq : (s.penUnit node blk).pens.find? (Pen.releasedBy p) = some q) :
    exec (.penRelease p) s =
      .next ((((s.take p).updPens node blk (freePen (s.penUnit node blk) q)).answer node p .done).penRound node blk) := by
  show execPenRelease p s = _
  rw [execPenRelease, need_of_true (by simp [hop, h.dest]), need_of_true (by simp [h.due])]
  unfold Pen.releasedBy at hq
  simp only [h.arrive, h.here, State.take_blockOf, hb, State.take_regionAnswer, hr, State.take_penUnit, hq]

/-- A PEN_RELEASE of a revoked pen is answered; the pen leaves the revoked ones and is counted (R208). -/
theorem Lands.exec_penRelease_revoked {s : State} {p : Packet} {node blk : Nat} (h : Lands s p) (hb : s.blockOf p = some (node, blk))
    (hr : s.regionAnswer node blk = .serves) (hop : p.op = .penRelease) (hq : (s.penUnit node blk).pens.find? (Pen.releasedBy p) = none)
    (hv : (s.penUnit node blk).revoked.any (Pen.releasedBy p) = true) :
    exec (.penRelease p) s = .next ((((s.take p).updPens node blk { s.penUnit node blk with
      revoked := (s.penUnit node blk).revoked.filter fun q => !Pen.releasedBy p q }).bump F.blkPenCount_revokedReleases node blk 0).answer node p .done) := by
  show execPenRelease p s = _
  rw [execPenRelease, need_of_true (by simp [hop, h.dest]), need_of_true (by simp [h.due])]
  unfold Pen.releasedBy at hq hv
  simp only [h.arrive, h.here, State.take_blockOf, hb, State.take_regionAnswer, hr, State.take_penUnit, hq, hv]
  rfl

/-- A PEN_PUT into a pen that covers it is written as it comes, poisoned where its data is (R205). -/
theorem Lands.exec_penPut {s : State} {p : Packet} {d node blk off : Nat} {q : Pen} (h : Lands s p) (hop : p.op = .penPut)
    (hl : s.locate p.dest p.epoch p.addr (max 1 p.extent) = .ok (d, .scratch node blk off)) (hr : s.regionAnswer node blk = .serves)
    (hq : penFor (s.penUnit node blk).pens p off p.extent = some q) :
    exec (.penPut p) s = .next ((((s.take p).asChange p.requester node blk off p.named).writeBlk node blk off p.named p.poison).answer node p
      (if p.poison then .poisoned else .done)) := by
  show execPenPut p s = _
  rw [execPenPut, need_of_true (by simp [hop, h.dest]), need_of_true (by simp [h.due])]
  simp only [h.arrive, h.here, State.take_locate, hl, State.take_regionAnswer, hr, State.take_penUnit, hq]
  rfl

/-! ## Bytes outside a write, whatever form storage has -/

theorem cellAt_putCell_other (cs : List Host.Cell) {a x : Nat} (v : Byte) (h : x ≠ a) : cellAt (putCell cs a v) x = cellAt cs x := by
  induction cs with
  | nil => unfold putCell; split <;> simp [cellAt, h]
  | cons c rest ih =>
    obtain ⟨k, w⟩ := c
    unfold putCell
    split
    · split <;> simp [cellAt, h]
    · split
      · subst_vars
        split <;> simp [cellAt, h]
      · simp [cellAt, ih]

theorem Mem.byte_putByte_other (m : Mem) {a x : Nat} (v : Byte) (h : x ≠ a) : (m.putByte a v).byte x = m.byte x := by
  simp only [Mem.byte, Mem.putByte, cellAt_putCell_other _ _ h, undefDraw_define, if_neg (show ¬(a ≤ x ∧ x < a + 1) by omega)]

/-- A masked write leaves the bytes outside it, also where storage is not in its canonical form. -/
theorem Mem.byte_writeMasked_outside (m : Mem) (a : Nat) (ls : Lanes) {x : Nat} (h : x < a ∨ a + ls.length ≤ x) :
    (m.writeMasked a ls).byte x = m.byte x := by
  induction ls generalizing m a with
  | nil => rfl
  | cons l rest ih =>
    obtain ⟨v, e⟩ := l
    simp only [List.length_cons] at h
    cases e
    · exact ih m (a + 1) (by omega)
    · exact (ih (m.putByte a v) (a + 1) (by omega)).trans (m.byte_putByte_other v (by omega))

theorem Mem.byte_store_outside (m : Mem) (a : Nat) (ls : Lanes) (bad : Bool) {x : Nat} (h : x < a ∨ a + ls.length ≤ x) :
    (m.store a ls bad).byte x = m.byte x :=
  m.byte_writeMasked_outside a ls h

@[simp] theorem State.breakReservation_mem (s : State) (node blk off n : Nat) : (s.breakReservation node blk off n).mem = s.mem := by
  unfold State.breakReservation
  repeat' split
  all_goals rfl

@[simp] theorem State.asChange_mem (s : State) (r : Requester) (node blk off : Nat) (ls : Lanes) : (s.asChange r node blk off ls).mem = s.mem := by
  unfold State.asChange
  split <;> rfl

/-- A write into a block's window with no latent error to meet is the store alone (R190, R192). -/
theorem State.writeBlk_mem {s : State} (h : s.mem.latent = []) (node blk off : Nat) (ls : Lanes) (poison : Bool) :
    (s.writeBlk node blk off ls poison).mem = s.mem.store (blkKeyAt node blk off) ls poison := by
  have whole : s.mem.torn (blkKeyAt node blk off) ls = [] := by simp [Mem.torn, h]
  simp [State.writeBlk, whole]

/-- Settles O15: each row is the branch of its lemma above that the pen unit's tables choose. -/
theorem penPacketsComplete : Obligations.PenPacketsComplete := by
  refine ⟨fun s p node blk h hb hr => ⟨fun hop room asks fits => ?tabled, fun hop full => ?refused, fun q hop held => ?released,
    fun hop notHeld revoked => ?revoked⟩, fun s p d node blk off q h hop hl hr covers => ?put⟩
  case tabled => rw [h.exec_penReq hb hr hop, if_neg (by omega)]
  case refused => rw [h.exec_penReq hb hr hop, if_pos full]
  case released => exact h.exec_penRelease_held hb hr hop held
  case revoked =>
    refine ⟨_, h.exec_penRelease_revoked hb hr hop notHeld revoked, rfl, ?_⟩
    rw [State.penUnit_congr (State.bump_pens ..), State.penUnit_updPens]
    rfl
  case put =>
    refine ⟨_, h.exec_penPut hop hl hr covers, rfl, fun clean a outside => ?_⟩
    have clean' : ((s.take p).asChange p.requester node blk off p.named).mem.latent = [] := by simpa using clean
    rw [State.writeBlk_mem clean', Mem.byte_store_outside _ _ _ _ outside, State.asChange_mem, State.take_mem]

end Sys2Proof.Machine

namespace Sys2Proof.Machine

/-! ## What a round and an expiry leave of the pending requests -/

/-- A grant tables one pen more and one request less (R204). -/
theorem State.pending_grantPen (s : State) (node blk : Nat) (w : PenWait) (i : Nat) (fresh : Option (Nat × Nat)) :
    ((s.grantPen node blk w i fresh).penUnit node blk).pending = (s.penUnit node blk).pending.filter (· != w) := by
  unfold State.grantPen
  extract_lets u n dirty t late base pen t1 t2 t3
  have kept : ∀ p, (t3.send p).pens = t1.pens := fun p => by
    simp only [t3, State.send_pens, State.event_pens, t2]
    split
    · exact State.bump_pens ..
    · rfl
  rw [State.penUnit_congr (kept _), State.penUnit_updPens]

/-- A round only takes requests out of the pending table (R203). -/
theorem State.pending_penDecide (fuel : Nat) (s : State) (node blk : Nat) (fresh : Option (Nat × Nat)) :
    ((s.penDecide node blk fresh fuel).penUnit node blk).pending ⊆ (s.penUnit node blk).pending := by
  induction fuel generalizing s with
  | zero => exact fun _ h => h
  | succ fuel ih =>
    unfold State.penDecide
    dsimp only
    split
    · exact fun _ h => h
    split
    · exact fun _ h => h
    split
    · exact fun _ h => h
    · refine fun x h => ?_
      have later := ih _ h
      rw [State.pending_grantPen] at later
      exact (List.mem_filter.1 later).1

theorem State.pending_penRound (s : State) (node blk : Nat) (fresh : Option (Nat × Nat)) :
    ((s.penRound node blk fresh).penUnit node blk).pending ⊆ (s.penUnit node blk).pending :=
  State.pending_penDecide _ s node blk fresh

@[simp] theorem State.penFull_pens (s : State) (node blk : Nat) (p : Packet) : (s.penFull node blk p).pens = s.pens := by
  simp [State.penFull]

/-- A request whose time is over is pending no more: the round has granted it, or it has been refused (R204). -/
theorem execPenWaitExpiry_ends {s : State} {node blk src txn : Nat} {w : PenWait} (hn : isRegion node = true) (hb : blk < 4)
    (hw : (s.penUnit node blk).pending.find? (fun w => w.pkt.src == src && w.pkt.txn == txn) = some w)
    (hd : w.arrived + max 1 (s.fld F.blkPenCfg_waitNs node blk) * ns ≤ s.now) :
    ∃ u, execPenWaitExpiry node blk src txn s = .next u ∧ w ∉ (u.penUnit node blk).pending := by
  rw [execPenWaitExpiry, need_of_true (by simp [hn, hb]), hw]
  dsimp only
  rw [need_of_true (by simpa using hd)]
  split
  · refine ⟨_, rfl, fun h => ?_⟩
    have left := State.pending_penRound _ _ _ _ h
    rw [State.penUnit_congr (State.penFull_pens ..), State.penUnit_congr (State.bump_pens ..), State.penUnit_updPens] at left
    simp at left
  next granted => exact ⟨_, rfl, by simpa using granted⟩

/-! ## Requests that wait for an entry of the holder table -/

@[simp] theorem State.updHolders_mem (s : State) (node unit : Nat) (u : PenUnit) : (s.updHolders node unit u).mem = s.mem := by
  unfold State.updHolders
  dsimp only
  split <;> rfl

@[simp] theorem State.holderUnit_updHolders (s : State) (node unit : Nat) (u : PenUnit) : (s.updHolders node unit u).holderUnit node unit = u := by
  unfold State.updHolders
  dsimp only
  split <;> simp [State.holderUnit, State.showPens_pens]

/-- A holder table depends on the pen units alone. -/
theorem State.holderUnit_congr {s t : State} (h : t.pens = s.pens) (node unit : Nat) : t.holderUnit node unit = s.holderUnit node unit := by
  simp [State.holderUnit, h]

@[simp] theorem State.condition_pens (s : State) (q : QueueRef) (st : Status) : (s.condition q st).pens = s.pens := by
  unfold State.condition State.unreported
  repeat' split
  all_goals rfl

/-- A queue's request that ends PEN_FULL changes its queue and its block's predicate, and neither storage nor the pen units (R202, R225). -/
theorem State.penRefused_penFull_frame (s : State) (q : QueueRef) :
    (s.penRefused q .penFull).mem = s.mem ∧ (s.penRefused q .penFull).pens = s.pens := by
  unfold State.penRefused State.predOut
  split
  next c _ =>
    by_cases h : bit c.desc 204 = true <;> simp [h, State.endCmd, State.modCur, State.setPred]
  · exact ⟨rfl, rfl⟩

/-- The time a request waits for an entry of its requester's holder table: a hub's 2 us, a block's WAIT_NS (R202, R204). -/
def State.holderLimit (s : State) (node unit : Nat) : Nat :=
  if isHub node then 2000 * ns else max 1 (s.fld F.blkPenCfg_waitNs node unit) * ns

/-- The oldest request that waits for an entry leaves at its limit, and nothing of storage changes (R202). -/
theorem execHolderWaitExpiry_ends {s : State} {node unit : Nat} {w : HolderWait} {rest : List HolderWait}
    (hn : ((isRegion node && decide (unit < 4)) || isHub node) = true) (hw : (s.holderUnit node unit).waiting = w :: rest)
    (hd : w.since + s.holderLimit node unit ≤ s.now) :
    ∃ u, execHolderWaitExpiry node unit s = .next u ∧ u.mem = s.mem ∧ (u.holderUnit node unit).waiting = rest := by
  rw [execHolderWaitExpiry, need_of_true hn]
  simp only [hw]
  rw [need_of_true (by simpa [State.holderLimit] using hd)]
  refine ⟨_, rfl, ?_⟩
  generalize ht : (if isHub node = true then _ else _ : State) = t
  have mem : t.mem = s.mem := by rw [← ht]; split <;> simp
  have table : (t.holderUnit node unit).waiting = rest := by
    rw [← ht]
    split
    · rw [State.holderUnit_updHolders]
    · rw [State.holderUnit_congr (State.bump_pens ..), State.holderUnit_updHolders]
  split
  next q _ =>
    obtain ⟨memKept, pensKept⟩ := t.penRefused_penFull_frame q
    exact ⟨memKept.trans mem, by rw [State.holderUnit_congr pensKept, table]⟩
  · exact ⟨mem, table⟩

/-! ## Revocation -/

/-- Freeing pens one after the other takes exactly those out. -/
theorem pens_foldl_freePen (l : List Pen) (u : PenUnit) : (l.foldl freePen u).pens = u.pens.filter (!l.contains ·) := by
  induction l generalizing u with
  | nil => exact (List.filter_eq_self.2 fun _ _ => rfl).symm
  | cons q rest ih =>
    rw [List.foldl_cons, ih, freePen, List.filter_filter]
    refine List.filter_congr fun x _ => ?_
    by_cases h : x = q <;> simp [h]

/-- A revocation moves every pen held to the revoked ones, and leaves storage as it is (R208). -/
theorem State.penRevoke_frame (s : State) (node blk : Nat) (st : Status) : (s.penRevoke node blk st).mem = s.mem ∧
    ((s.penRevoke node blk st).penUnit node blk).revoked = (s.penUnit node blk).revoked ++ (s.penUnit node blk).pens ∧
    ((s.penRevoke node blk st).penUnit node blk).pens = [] := by
  unfold State.penRevoke
  extract_lets u t u'
  have told : t.mem = s.mem := by
    refine List.foldlRecOn (motive := fun x : State => x.mem = s.mem) _ _ rfl fun x hx q _ => ?_
    simpa using hx
  refine ⟨told, by simp [u], ?_⟩
  simp [u', pens_foldl_freePen, u]

/-! ## Zeroing -/

theorem cellAt_filter (cs : List Host.Cell) (f : Nat → Bool) (x : Nat) :
    cellAt (cs.filter fun c => f c.1) x = if f x then cellAt cs x else none := by
  induction cs with
  | nil => simp [cellAt]
  | cons c rest ih =>
    obtain ⟨k, v⟩ := c
    by_cases hk : f k = true
    · by_cases hx : x = k
      · simp [hx, hk, cellAt]
      · simp [hk, cellAt, hx, ih]
    · by_cases hx : x = k
      · subst hx; simp [hk, ih]
      · simp [hk, cellAt, hx, ih]

/-- A range that is zeroed reads 0, and the bytes outside it read as before. -/
theorem Mem.byte_zero (m : Mem) (lo len x : Nat) : (m.zero lo len).byte x = if lo ≤ x ∧ x < lo + len then 0 else m.byte x := by
  simp only [Mem.byte, Mem.zero, cellAt_filter _ fun k => decide (k < lo) || decide (lo + len ≤ k), undefDraw_define]
  by_cases h : lo ≤ x ∧ x < lo + len
  · have out : (decide (x < lo) || decide (lo + len ≤ x)) = false := by simp; omega
    simp [out, h]
  · have out : (decide (x < lo) || decide (lo + len ≤ x)) = true := by simp; omega
    simp [out, h]

/-- Zeroing ranges of one length one after the other: a byte of one of them reads 0, the others read as before. -/
theorem Mem.byte_foldl_zero (f : Nat → Nat) (n : Nat) (l : List Nat) (m : Mem) (x : Nat) :
    (l.foldl (fun m i => m.zero (f i) n) m).byte x = if ∃ i ∈ l, f i ≤ x ∧ x < f i + n then 0 else m.byte x := by
  induction l generalizing m with
  | nil => simp
  | cons i rest ih =>
    rw [List.foldl_cons, ih, Mem.byte_zero]
    by_cases later : ∃ i ∈ rest, f i ≤ x ∧ x < f i + n <;> by_cases here : f i ≤ x ∧ x < f i + n <;> simp [later, here]

/-- The free pool units of a block that have no recorded holder (R207). -/
def State.dirtyUnits (s : State) (node blk : Nat) : List Nat :=
  let u := s.penUnit node blk
  let lo := s.poolBase node blk / 4096
  (List.range (1536 - lo)).map (· + lo) |>.filter fun i => unitFree u.pens i && (Sparse.find? u.lastTag i).isNone

theorem State.mem_dirtyUnits (s : State) (node blk i : Nat) : i ∈ s.dirtyUnits node blk ↔
    (decide (s.poolBase node blk / 4096 ≤ i) && decide (i < 1536) && unitFree (s.penUnit node blk).pens i &&
      (Sparse.find? (s.penUnit node blk).lastTag i).isNone) = true := by
  have inPool : (∃ a < 1536 - s.poolBase node blk / 4096, a + s.poolBase node blk / 4096 = i) ↔ s.poolBase node blk / 4096 ≤ i ∧ i < 1536 :=
    ⟨fun ⟨a, h, e⟩ => by omega, fun h => ⟨i - s.poolBase node blk / 4096, by omega, by omega⟩⟩
  simp only [State.dirtyUnits, List.mem_filter, List.mem_map, List.mem_range, inPool, Bool.and_eq_true, decide_eq_true_eq, and_assoc]

/-- PEN_UNIT_ZEROED zeroes those units and leaves every other byte (R207). -/
theorem execPenUnitZeroed_zeroes {s : State} {node blk : Nat} (hn : isRegion node = true) (hb : blk < 4)
    (hr : s.unit node (pageOf .blk node blk) = .running) (hf : ∃ i, i ∈ s.dirtyUnits node blk) :
    ∃ u, execPenUnitZeroed node blk s = .next u ∧ ∀ a, u.mem.byte a =
      if ∃ i ∈ s.dirtyUnits node blk, blkKeyAt node blk (i * 4096) ≤ a ∧ a < blkKeyAt node blk (i * 4096) + 4096 then 0 else s.mem.byte a := by
  have found : (s.dirtyUnits node blk).isEmpty = false := by simpa [List.eq_nil_iff_forall_not_mem] using hf
  refine ⟨({ s with mem := (s.dirtyUnits node blk).foldl (fun m i => m.zero (blkKeyAt node blk (i * 4096)) 4096) s.mem } : State).updPens node blk
    { s.penUnit node blk with lastTag := (s.dirtyUnits node blk).foldl (fun m i => Sparse.set m i 64) (s.penUnit node blk).lastTag },
    ?_, fun a => Mem.byte_foldl_zero (fun i => blkKeyAt node blk (i * 4096)) 4096 _ _ a⟩
  rw [execPenUnitZeroed, need_of_true (by simp [hn, hb])]
  exact need_of_true (Bool.and_eq_true_iff.2 ⟨congrArg not found, by simp [hr]⟩)

/-! ## Scrubbing -/

/-- With no latent error the scrubber finds no row to correct (R194). -/
theorem State.rowErrors_of_clean {s : State} (h : s.mem.latent = []) (node blk j : Nat) : s.rowErrors node blk j = [] := by
  simp [State.rowErrors, h]

/-- SCRUB_SLOT goes on to the next slot, or from the last one to the first (R194). -/
theorem execScrubSlot_advances {s : State} {node blk : Nat} (hn : isRegion node = true) (hb : blk < 4) (hw : s.works node blk = true)
    (hd : (s.block node blk).scrubStart + 30 * us * (s.block node blk).scrubSlot ≤ s.now) :
    ∃ u, execScrubSlot node blk s = .next u ∧ (s.mem.latent = [] → u.mem = s.mem) ∧
      (u.block node blk).scrubSlot = if (s.block node blk).scrubSlot = 2047 then 0 else (s.block node blk).scrubSlot + 1 := by
  rw [execScrubSlot, need_of_true (by simp [hn, hb])]
  extract_lets b j one t
  rw [need_of_true hw, need_of_true (by simpa using hd)]
  have clean : s.mem.latent = [] → t.mem = s.mem := fun h => by simp only [t, State.rowErrors_of_clean h, List.foldl_nil]
  by_cases last : j = 2047
  · rw [if_pos last, if_pos last]
    exact ⟨_, rfl, clean, by rw [State.block_modBlock]⟩
  · rw [if_neg last, if_neg last]
    exact ⟨_, rfl, clean, by rw [State.block_modBlock]⟩

/-- Settles O30: each event that is due runs as its lemma above says. -/
theorem scrubbingAndPenExpiriesComplete : Obligations.ScrubbingAndPenExpiriesComplete := by
  refine ⟨⟨fun s node blk hn hb hw hd => ?scrub, fun s node blk src txn w hn hb hw hd => ?wait, fun s node unit w rest hn hu hw hd => ?block,
    fun s node unit w rest hn hw hd => ?hub, fun s node blk t hn hb ht hp hd => ?revoke⟩, fun s node blk hn hb hr => ?zeroed⟩
  case scrub => exact execScrubSlot_advances hn hb hw hd
  case wait => exact execPenWaitExpiry_ends hn hb hw hd
  case block =>
    have notHub : isHub node = false := by simp [isHub, isRegion] at hn ⊢; omega
    exact execHolderWaitExpiry_ends (by simp [hn, hu]) hw (by simpa [State.holderLimit, notHub] using hd)
  case hub => exact execHolderWaitExpiry_ends (by simp [hn]) hw (by simpa [State.holderLimit, hn] using hd)
  case revoke =>
    refine ⟨_, ?_, rfl, s.penRevoke_frame node blk .targetResetting⟩
    show execPenRevoke node blk s = _
    rw [execPenRevoke, need_of_true (by simp [hn, hb])]
    simp only [ht]
    rw [need_of_true (by simpa using hp), need_of_true (by simpa using hd)]
  case zeroed =>
    intro free hf
    have listed : ∀ i, free i = true ↔ i ∈ s.dirtyUnits node blk := fun i => (s.mem_dirtyUnits node blk i).symm
    simp only [listed] at hf ⊢
    obtain ⟨u, ran, bytes⟩ := execPenUnitZeroed_zeroes hn hb hr hf
    refine ⟨u, ran, fun i k hi hk => ?_, fun a outside => ?_⟩
    · rw [bytes, if_pos ⟨i, hi, by omega, by omega⟩]
    · rw [bytes, if_neg fun ⟨i, hi, low, high⟩ => by have := outside i hi; omega]

end Sys2Proof.Machine

namespace Sys2Proof.Machine

/-! ## Accesses that a page refuses -/

/-- An origin that a page does not serve finds a hole there (R410). -/
theorem State.writeReg_stranger (s : State) {o : Origin} {node page : Nat} {k : PageKind} {c : Nat} (hk : pageKind node page = some (k, c))
    (ho : o = .P ∨ (o = .G ∧ k ≠ .mailbox)) (off n v : Nat) : s.writeReg (some o) node page off n v = s.refuseAccess node page off o .hole := by
  simp only [State.writeReg, hk, if_pos ho]

/-- The register port of a page takes an origin's accesses (R410, R521): P never reaches one, G only its mailbox, H none before bring-up step 4 has ended. -/
structure Admits (s : State) (o : Origin) (k : PageKind) : Prop where
  notPeer : o ≠ .P
  guest : o = .G → k = .mailbox
  booted : o = .H → 4 < s.fld F.hubBoot_step 180

theorem Admits.not_stranger {s : State} {o : Origin} {k : PageKind} (h : Admits s o k) : ¬ (o = .P ∨ (o = .G ∧ k ≠ .mailbox)) := by
  rintro (peer | ⟨guest, other⟩)
  · exact h.notPeer peer
  · exact other (h.guest guest)

theorem Admits.not_early {s : State} {o : Origin} {k : PageKind} (h : Admits s o k) : ¬ (o = .H ∧ s.fld F.hubBoot_step 180 ≤ 4) :=
  fun ⟨host, early⟩ => Nat.not_lt.2 early (h.booted host)

/-- An access of `n` bytes at an offset has a width that a page takes, and is aligned to it (R412). -/
def wholeAccess (off n : Nat) : Bool := (n == 1 || n == 2 || n == 4 || n == 8) && off % n == 0

theorem wholeAccess_iff (off n : Nat) : wholeAccess off n = true ↔ n ∈ [1, 2, 4, 8] ∧ off % n = 0 := by
  simp [wholeAccess, or_assoc]

theorem not_wholeAccess (off n : Nat) : (!(n == 1 || n == 2 || n == 4 || n == 8) || off % n != 0) = !wholeAccess off n := by
  rw [wholeAccess, Bool.not_and]; rfl

section
variable {s : State} {o : Origin} {node page : Nat} {k : PageKind} {c : Nat} (h : Admits s o k) (hk : pageKind node page = some (k, c))
  {off n : Nat} (v : Nat)
include h hk

theorem Admits.writeReg_misaligned (hw : wholeAccess off n = false) :
    s.writeReg (some o) node page off n v = s.refuseAccess node page off o .misaligned := by
  simp only [State.writeReg, hk, if_neg h.not_stranger, if_neg h.not_early, not_wholeAccess, hw, Bool.not_false, if_true]

theorem Admits.writeReg_narrow (hw : wholeAccess off n = true) (hn : n < 4) :
    s.writeReg (some o) node page off n v = s.refuseAccess node page off o .narrow := by
  simp only [State.writeReg, hk, if_neg h.not_stranger, if_neg h.not_early, not_wholeAccess, hw, Bool.not_true, Bool.false_eq_true, if_false, if_pos hn]

theorem Admits.writeReg_hole (hw : wholeAccess off n = true) (hn : ¬ n < 4) (hr : namedAt node page (off / 8 * 8) = .hole) :
    s.writeReg (some o) node page off n v = s.refuseAccess node page off o .hole := by
  simp only [State.writeReg, hk, if_neg h.not_stranger, if_neg h.not_early, not_wholeAccess, hw, Bool.not_true, Bool.false_eq_true, if_false, if_neg hn, hr]

/-- A write that a field's check refuses (R411). -/
theorem Admits.writeReg_refused (hw : wholeAccess off n = true) (hn : ¬ n < 4) {r : Reg} {b i : Nat} (hr : namedAt node page (off / 8 * 8) = .reg r b i)
    {x : AccessKind} (hx : s.writeRefusal (s.settle ⟨node, page, o, r, b, i, (s.word r node b i).toNat, v % 2 ^ (8 * n) * 2 ^ (8 * (off % 8)),
      (2 ^ (8 * n) - 1) * 2 ^ (8 * (off % 8))⟩) = some x) :
    s.writeReg (some o) node page off n v = s.refuseAccess node page off o x := by
  simp only [State.writeReg, hk, if_neg h.not_stranger, if_neg h.not_early, not_wholeAccess, hw, Bool.not_true, Bool.false_eq_true, if_false, if_neg hn, hr, hx]

end

/-! ## What accepted writes leave -/

/-- The register of a write holds the word as stored, until the write has its effect (R421). -/
theorem State.word_storeWrite (s : State) (w : RegWr) : (s.storeWrite w).word w.r w.node w.b w.i = BitVec.ofNat 64 w.stored := by
  obtain ⟨regs, -⟩ := s.storeWrite_eq w
  simp [State.word, regs]

/-- A register whose rule names no effect holds the word as written. -/
theorem State.applyWrite_of_plain {s : State} {w : RegWr} (h : w.r ∈ [Reg.hubBar2Win, .hubHostcfg, .hubBudget]) : s.applyWrite w = s.storeWrite w := by
  simp only [List.mem_cons, List.not_mem_nil, or_false] at h
  rcases h with h | h | h <;> simp [State.applyWrite, State.afterWrite, h]

/-- A field of one bit is written other than 0 exactly where its bit is set. -/
theorem Field.asked {v : Nat} {f : Field} (hf : f.width = 1) {x : Bool} (h : bit v f.lo = x) : (bits v f.lo f.width != 0) = x := by
  rw [hf, ← h]
  rcases Nat.mod_two_eq_zero_or_one (v / 2 ^ f.lo) with even | odd <;> simp [bit, bits, *]

/-- A LOCKED written 1 is stored as 1 (R408). -/
theorem RegWr.stored_locked {w : RegWr} (hr : w.r = .lock) (hb : bit w.raw 0 = true) : bits w.stored 0 1 = 1 := by
  have one : bits w.raw 0 1 = 1 := by simpa [bit, bits] using hb
  have odd : w.field F.lock_locked % 2 = 1 := by
    show Nat.lor (bits w.raw 0 1) _ % 2 = 1
    rw [one]
    exact Nat.mod_two_eq_one_iff_testBit_zero.2 (by simp)
  have stored : w.stored = putBits w.old 0 1 (w.field F.lock_locked) := by
    simp [RegWr.stored, RegWr.new, hr, Reg.fields, F.lock_locked]
  rw [stored, bits_putBits_same, Nat.pow_one, odd]

/-- The field put is read back under every name of its register's address. -/
theorem State.fld_put_key (s : State) {f : Field} (h : f.lo + f.width ≤ 64) {node b i node' b' i' : Nat}
    (hk : f.reg.key node' b' i' = f.reg.key node b i) (v : Nat) : (s.put f node b i v).fld f node' b' i' = v % 2 ^ f.width := by
  have named : (s.put f node b i v).word f.reg node' b' i' = (s.put f node b i v).word f.reg node b i := by
    simp [State.word, State.put, State.setWord, hk]
  rw [State.fld, named]
  exact s.fld_put_same h node b i v

/-- A lock that is set stays set while other pages are locked. -/
theorem State.flag_put_locked {s : State} {node b : Nat} (h : s.flag F.lock_locked node b = true) (n p : Nat) :
    (s.put F.lock_locked n p 0 1).flag F.lock_locked node b = true := by
  by_cases same : Reg.lock.key node b 0 = Reg.lock.key n p 0
  · rw [State.flag, State.fld_put_key (f := F.lock_locked) s (by decide) same]
    rfl
  · rwa [State.flag, State.fld_congr (f := F.lock_locked) (s.word_put_other (f := F.lock_locked) same 1)]

/-- Locking the panel leaves no lock open that was set (R408). -/
theorem State.flag_onLock {s : State} {node b : Nat} (h : s.flag F.lock_locked node b = true) (w : RegWr) :
    (s.onLock w).flag F.lock_locked node b = true := by
  unfold State.onLock
  split
  · exact List.foldlRecOn (motive := fun t : State => t.flag F.lock_locked node b = true) _ _ h fun t ht p _ => State.flag_put_locked ht p.1 p.2
  · exact h

/-- Setting one value of a mark under many keys: each of them holds it, and so does a key that held it before. -/
theorem frozen_foldl_upd (on : Bool) (l : List Nat) (m : Sparse EventRing) {k : Nat} (hk : k ∈ l ∨ (Sparse.get {} m k).frozen = on) :
    (Sparse.get {} (l.foldl (fun m k => Sparse.upd {} m k fun r => { r with frozen := on }) m) k).frozen = on := by
  induction l generalizing m with
  | nil => exact hk.resolve_left List.not_mem_nil
  | cons j rest ih =>
    refine ih _ ?_
    rw [Sparse.get_upd]
    by_cases here : k = j
    · exact .inr (by rw [if_pos here])
    · rw [if_neg here]
      exact hk.imp_left fun h => (List.mem_cons.1 h).resolve_left here

/-- FREEZE and THAW reach every ring of the panel (R539). -/
theorem State.frozen_setFrozen (s : State) (on : Bool) {n p : Nat} {k : PageKind} {i : Nat} (hn : n < 182) (hp : p < 41)
    (hk : pageKind n p = some (k, i)) (hr : keepsRing k = true) : (Sparse.get {} (s.setFrozen on).rings (n * 64 + p)).frozen = on := by
  unfold State.setFrozen
  extract_lets keys
  have page : p ∈ pagesOf n := List.mem_filter.2 ⟨List.mem_range.2 hp, by simp [hk]⟩
  have listed : n * 64 + p ∈ keys :=
    List.mem_flatMap.2 ⟨n, List.mem_range.2 hn, List.mem_map.2 ⟨p, List.mem_filter.2 ⟨page, by simp [hk, hr]⟩, rfl⟩⟩
  clear_value keys
  exact frozen_foldl_upd on keys s.rings (.inl listed)

/-- A block that resumes is not held, and DBG_BRK.STATE shows it running (R541). -/
theorem State.resumeBlock_goes (s : State) (node b : Nat) :
    ((s.resumeBlock node b).block node b).held = none ∧ (s.resumeBlock node b).fld F.dbgBrk_state node 0 b = 0 := by
  unfold State.resumeBlock
  extract_lets t
  exact ⟨by simp, by rw [State.fld_put_same _ (by decide)]; rfl⟩

/-- Settles O41: a refused access is the branch of R410-R412 that its origin, width, alignment and name choose; an accepted write is the effect of its register. -/
theorem refusedAccessesAndRegisterEffects : Obligations.RefusedAccessesAndRegisterEffects := by
  refine ⟨⟨fun s o node page off n v r b i x hpage hP hG hH hn ha hr hx => ?field, fun s o node page off n v k c hk =>
      ⟨fun peer => ?peer, fun guest other => ?guest, fun hP hG hH => ⟨fun bad => ?misaligned, fun hn ha => ?narrow, fun hn ha hr => ?hole⟩⟩⟩,
    fun s w => ⟨fun plain => ?plain, fun hr asked => ?clear, fun hr hi raw mask => ?lock,
      fun hr n p k i hn hp hk ring => ⟨fun freeze => ?freeze, fun noFreeze thaw => ?thaw⟩, fun hr hi asked => ?resume⟩⟩
  case field =>
    obtain ⟨⟨k, c⟩, hk⟩ := Option.isSome_iff_exists.1 hpage
    have admits : Admits s o k := ⟨hP, fun guest => by simpa [hk] using hG guest, hH⟩
    have whole : wholeAccess off n = true := (wholeAccess_iff off n).2 ⟨by rcases hn with rfl | rfl <;> decide, ha⟩
    exact admits.writeReg_refused hk v whole (by omega) hr hx
  case peer => exact s.writeReg_stranger hk (.inl peer) off n v
  case guest => exact s.writeReg_stranger hk (.inr ⟨guest, other⟩) off n v
  case misaligned =>
    have part : ¬ wholeAccess off n = true := fun whole => by
      obtain ⟨width, aligned⟩ := (wholeAccess_iff off n).1 whole
      exact bad.elim (· width) (· aligned)
    exact Admits.writeReg_misaligned ⟨hP, hG, hH⟩ hk v (Bool.eq_false_iff.2 part)
  case narrow =>
    have whole : wholeAccess off n = true := (wholeAccess_iff off n).2 ⟨List.mem_append_left [4, 8] hn, ha⟩
    exact Admits.writeReg_narrow ⟨hP, hG, hH⟩ hk v whole (by simp at hn; omega)
  case hole =>
    have whole : wholeAccess off n = true := (wholeAccess_iff off n).2 ⟨List.mem_append_right [1, 2] hn, ha⟩
    exact Admits.writeReg_hole ⟨hP, hG, hH⟩ hk v whole (by simp at hn; omega) hr
  case plain =>
    obtain ⟨-, mem, -⟩ := s.storeWrite_eq w
    rw [State.applyWrite_of_plain plain]
    exact ⟨s.word_storeWrite w, mem⟩
  case clear =>
    rw [State.applyWrite_eq (by simp [hr])]
    simp only [State.afterWrite, hr, Field.asked rfl asked, if_true]
    exact State.word_setWord_same ..
  case lock =>
    rw [State.applyWrite_eq (by simp [hr])]
    simp only [State.afterWrite, hr]
    refine State.flag_onLock ?_ w
    have stored := s.word_storeWrite w
    rw [hr, hi] at stored
    have locked : (s.storeWrite w).fld F.lock_locked w.node w.b = 1 := by
      show wordField ((s.storeWrite w).word .lock w.node w.b 0) 0 1 = 1
      rw [stored, wordField, bits_toNat_ofNat _ (by decide), RegWr.stored_locked hr raw]
    rw [State.flag, locked]
    rfl
  case freeze =>
    rw [State.applyWrite_eq (by simp [hr])]
    simp only [State.afterWrite, hr, Field.asked rfl freeze, if_true]
    exact State.frozen_setFrozen _ true hn hp hk ring
  case thaw =>
    rw [State.applyWrite_eq (by simp [hr])]
    simp only [State.afterWrite, hr, Field.asked rfl noFreeze, Field.asked rfl thaw, Bool.false_eq_true, if_false, if_true]
    exact State.frozen_setFrozen _ false hn hp hk ring
  case resume =>
    rw [State.applyWrite_eq (by simp [hr])]
    simp only [State.afterWrite, hr, Field.asked rfl asked, if_true]
    exact State.resumeBlock_goes _ w.node w.i

end Sys2Proof.Machine

namespace Sys2Proof.Machine

/-! ## Rows that start the head of a queue -/

/-- Each row of `headRows` starts the head of its queue with its opcode, its own checks and its work (R222). -/
theorem exec_headRow {ups : List Upset} {r : HeadRow} (hr : r ∈ headRows ups) (s : State) (q : QueueRef) :
    exec (r.row q) s = s.startHead q [r.op] (r.own q) fun s d => r.work s q d := by
  revert r
  simp only [headRows, List.forall_mem_cons, List.not_mem_nil, false_implies, implies_true, and_true]
  and_intros <;> rfl

/-- The descriptor of a command that starts is the one at the head of its queue. -/
theorem Starts.headDesc {s : State} {q : QueueRef} {ops : List Nat} {ok : State → Nat → Bool} {a tag d : Nat} {u : State}
    (h : Starts s q ops ok a tag d u) : s.headDesc q = some d := by
  have clean := h.clean
  have desc := h.desc
  rcases hf : s.fetchDesc q a with ⟨rd, d', s1⟩
  simp only [hf] at clean desc
  subst clean desc
  simp only [State.headDesc, h.walk, hf]

/-- A row whose own checks refuse the command at the head leaves it malformed, and does none of its work (R222, R227). -/
theorem Starts.startHead_malformed {s : State} {q : QueueRef} {ops : List Nat} {ok' ok : State → Nat → Bool} {a tag d : Nat} {u : State}
    (h : Starts s q ops ok' a tag d u) (bad : ok u d = false) (run : State → Nat → State) :
    s.startHead q ops ok run = .next (u.malformed q) := by
  have clean := h.clean
  have desc := h.desc
  have passes := h.passes
  rcases hf : s.fetchDesc q a with ⟨rd, d', s1⟩
  simp only [hf] at clean desc passes
  subst clean desc
  simp only [State.startHead, need, h.queue, h.walk, h.job, h.free, h.runs, h.forwards, hf, h.opcode, h.unbroken, passes, h.common, bad]
  rfl

/-- What starts is still in flight once its start is recorded. -/
theorem Starts.carries_began {s : State} {q : QueueRef} {ops : List Nat} {ok : State → Nat → Bool} {a tag d : Nat} {u : State}
    (h : Starts s q ops ok a tag d u) : (u.began q tag a d).carries q a (if dLast d then none else some (a + 64)) :=
  (State.carries_congr (by simp)).2 h.carries

/-- Settles O18: a row's work on the state in which the start is recorded. -/
theorem commandsStartAndDoTheirWork : Obligations.CommandsStartAndDoTheirWork := by
  intro ups r hr s q a tag d u h
  rw [exec_headRow hr, h.startHead]

/-! ## Commands that end with a status other than DONE -/

/-- A command in flight that has met no condition ends with the status given, unless it is cancelled (R7). -/
theorem State.queue_endCmd_clean {s : State} {q : QueueRef} {c : InFlight} (hc : (s.queue q).cur = some c) (hs : c.status = none)
    (hf : c.found = .done) {st : Status} (hst : st ≠ .cancelled) :
    (s.endCmd q st).queue q = { s.queue q with cur := some { c with found := st, status := some st, wait := .none } } := by
  have met : s.condition q st = s.modCur q fun c => { c with found := c.found.first st } := by
    simp [State.condition, hc, hs, State.unreported, hf]
  simp [State.endCmd, hst, met, hc, hs, hf, Status.first]

/-- Ending a command writes no storage. -/
theorem State.endCmd_mem {s : State} {q : QueueRef} {st : Status} (hst : st ≠ .cancelled) : (s.endCmd q st).mem = s.mem := by
  simp [State.endCmd, hst]

/-- What a queue carries ends with the status given, and its walk goes on where it says. -/
theorem State.carries.endedAs {s : State} {q : QueueRef} {a : Nat} {after : Option Nat} (h : s.carries q a after) {st : Status}
    (hst : st ≠ .cancelled) : (s.endCmd q st).ended q st after := by
  obtain ⟨c, hc, hs, hf, -, hafter⟩ := h
  exact ⟨{ c with found := st, status := some st, wait := .none }, by rw [State.queue_endCmd_clean hc hs hf hst], rfl, hafter⟩

/-- A report under LOG_CTRL leaves the queues. -/
theorem State.reportCtl_queues (s : State) (at' : Site) (sev : Severity) (e : LogEntry) : (s.reportCtl at' sev e).queues = s.queues := by
  unfold State.reportCtl
  split
  · obtain ⟨l, h⟩ := s.countCe_eq at'.node at'.page sev
    rw [h]; rfl
  · rfl

/-- The record of a refused access leaves the queues (R409). -/
theorem State.accessErr_queues (s : State) (node page addr : Nat) (o : Origin) (k : AccessKind) (tag : Option Nat) :
    (s.accessErr node page addr o k tag).queues = s.queues := by
  unfold State.accessErr
  extract_lets p
  split
  · rfl
  · split
    · rfl
    · exact State.reportCtl_queues ..

/-- A malformed command leaves its queue as one that stops its list with ACCESS_FAULT does (R227, R238). -/
theorem State.queue_malformed (s : State) (q : QueueRef) : (s.malformed q).queue q = (s.stopCmd q .accessFault).queue q := by
  unfold State.malformed
  extract_lets t
  split
  · rw [State.queue, State.accessErr_queues]; rfl
  · rfl

/-- A malformed command that had met no condition ends ACCESS_FAULT and stops its list (R227, R238). -/
theorem State.cur_malformed {s : State} {q : QueueRef} {c : InFlight} (hc : (s.queue q).cur = some c) (hs : c.status = none)
    (hf : c.found = .done) : ((s.malformed q).queue q).cur =
      some { c with found := .accessFault, status := some .accessFault, wait := .none, stops := true } := by
  rw [State.queue_malformed, State.stopCmd, State.stopList, State.queue_modCur, State.queue_endCmd_clean hc hs hf (by decide)]
  rfl

/-! ## CTL_BREAK -/

/-- CTL_BREAK halts the block where the block's CTLBRK_EN is 1, unless the queue is just resumed or being stepped (R540-R541). -/
def State.breaks (s : State) (q : QueueRef) : Bool :=
  !isEdge q.node && s.flag F.dbgBrk_ctlbrkEn q.node 0 q.blk && !(s.queue q).passBreak && (s.block q.node q.blk).stepping != some q

/-- CTL_BREAK at the head of a queue holds the head where it breaks, and else is taken and ends DONE (R540). -/
theorem Starts.exec_ctlBreak {s : State} {q : QueueRef} {a tag d : Nat} {u : State} (h : Starts s q [0x58] (fun _ _ => true) a tag d u) :
    exec (.ctlBreak q) s = .next (if s.breaks q then s.holdHead q 0 true (bits d 128 8) else (u.began q tag a d).endCmd q .done) := by
  have op : dOpcode d = 0x58 := by simpa using h.opcode
  have row : exec (.ctlBreak q) s = if s.breaks q then .next (s.holdHead q 0 true (bits d 128 8))
      else s.startHead q [0x58] (fun _ _ => true) fun s _ => s.endCmd q .done := by
    show execCtlBreak q s = _
    simp [execCtlBreak, State.breaks, h.headDesc, op, h.queue, h.job, h.free, h.runs, h.forwards, and_assoc]
  rw [row]
  split
  · rfl
  · exact h.startHead fun s _ => s.endCmd q .done

/-- Settles O19: a refused command is left malformed; the other three rows do the work they name. -/
theorem malformedHurdleBreakAndExpertCommands : Obligations.MalformedHurdleBreakAndExpertCommands := by
  refine ⟨fun ups r hr s q a tag d u => ⟨fun h bad => ?refused, fun c hc hs hf => ?stopped⟩,
    fun s q a tag d u h => ?hurdle, fun s q a tag d u h passes => ?passed, fun s q a tag d u h hregion henabled hpass hstep => ?halted,
    fun s q a tag d u h => ?experts⟩
  case refused =>
    rw [exec_headRow hr, h.startHead_malformed bad]
  case stopped =>
    exact ⟨_, State.cur_malformed hc hs hf, rfl, rfl, rfl⟩
  case hurdle =>
    exact h.startHead fun s d => s.runHurdle q d
  case passed =>
    have goes : s.breaks q = false := by
      rcases passes with edge | disabled | resumed | stepped <;> simp [State.breaks, *]
    exact ⟨_, by rw [h.exec_ctlBreak, goes]; rfl, rfl, h.carries_began.ended⟩
  case halted =>
    have breaks : s.breaks q = true := by simp [State.breaks, hregion, henabled, hpass, hstep]
    rw [h.exec_ctlBreak, breaks]
    rfl
  case experts =>
    exact h.startHead fun s d => s.runExperts q d

/-! ## Commands that wait, and their completion -/

/-- The command in flight waits in a way that its event allows (R226). -/
theorem State.waitingCmd_eq_some {s : State} {q : QueueRef} {c : InFlight} (hc : (s.queue q).cur = some c) (hs : c.status = none)
    {p : CmdWait → Bool} (hp : p c.wait = true) : s.waitingCmd q p = some c := by
  simp [State.waitingCmd, hc, hs, hp]

/-- A command that signals no hurdle completes with its status, without an arrival (R233, R237). -/
theorem State.complete_unsignalled (s : State) (q : QueueRef) {c : InFlight} (st : Status) (h : dSignal c.desc = 0) :
    s.complete q c st = .next (s.finishCmd q c st false) := by
  simp [State.complete, h]

/-- Settles O21: each event finds the command that waits for it, and that command's end is `endCmd`'s. -/
theorem commandsWaitAndComplete : Obligations.CommandsWaitAndComplete := by
  refine ⟨⟨fun s q c t hc hs hwait due => ?poll, fun s q c hc hs hf hwait hop hlimit due => ?limit, fun s q c hc hs hf hwait due => ?time⟩,
    fun s q c st hq hc hs hsignal => ?complete⟩
  case poll =>
    show execCtlWaitPoll q s = _
    rw [execCtlWaitPoll, State.waitingCmd_eq_some hc hs (by rw [hwait])]
    simp [hwait, need, due]
  case limit =>
    have carried : s.carries q c.addr c.after := ⟨c, hc, hs, hf, rfl, rfl⟩
    refine ⟨_, ?_, carried.endedAs (by decide), State.endCmd_mem (by decide)⟩
    show execCtlWaitLimit q s = _
    rw [execCtlWaitLimit, State.waitingCmd_eq_some hc hs (by simpa using hwait)]
    simp [need, hop, hlimit, due]
  case time =>
    have carried : s.carries q c.addr c.after := ⟨c, hc, hs, hf, rfl, rfl⟩
    refine ⟨_, ?_, carried.ended, State.endCmd_done_mem s q⟩
    show execCtlWaitTimePassed q s = _
    rw [execCtlWaitTimePassed, State.waitingCmd_eq_some hc hs (by simp [hwait])]
    simp [need, due]
  case complete =>
    show execCommandComplete q s = _
    simp only [execCommandComplete, need, hq, hc, hs, if_true]
    exact s.complete_unsignalled q st hsignal

/-! ## The job engine's rows -/

/-- A row of the job engine takes the oldest accepted descriptor, where it is of the row's opcode. -/
theorem State.jbeHead_eq {s : State} {f : Fetched} {rest : List Fetched} (h : s.jbe = f :: rest) {op : Nat} (hop : dOpcode f.desc = op)
    (run : Fetched → State → State) : s.jbeHead op run = .next (run f { s with jbe := rest }) := by
  simp [State.jbeHead, h, hop, need]

/-- Settles O32: each row is the branch of its work that the descriptor's checks choose. -/
theorem jobEngineComplete : Obligations.JobEngineComplete := by
  intro s f rest hjbe s' t out
  refine ⟨fun hop => ?submit, fun st hop hst => ?refused, fun hop hok => ?abort, fun hop hok => ?badAbort, fun hop hok hout => ?query⟩
  case submit =>
    exact State.jbeHead_eq hjbe hop fun f s => s.submit f
  case refused =>
    have answered : s'.submit f = s'.cqAnswer f 0 (dTag f.desc) st := by simp only [State.submit, hst]
    exact ⟨_, State.jbeHead_eq hjbe hop fun f s => s.submit f, answered, by rw [answered]; exact ⟨rfl, rfl, rfl⟩⟩
  case abort =>
    show execJbeAbort s = _
    rw [execJbeAbort, State.jbeHead_eq hjbe hop]
    simp only [if_pos hok]
    rfl
  case badAbort =>
    show execJbeAbort s = _
    rw [execJbeAbort, State.jbeHead_eq hjbe hop]
    simp only [hok, Bool.false_eq_true, if_false]
    rfl
  case query =>
    have good : (!jbeOk f.desc || bits f.desc 176 48 % 64 != 0) = false := by
      simp [hok, show bits f.desc 176 48 % 64 = 0 from hout]
    show execJbeQuery s = _
    rw [execJbeQuery, State.jbeHead_eq hjbe hop]
    simp only [good, Bool.false_eq_true, if_false]
    rfl

end Sys2Proof.Machine

namespace Sys2Proof.Machine

/-! ## What a write of panel storage leaves of the jobs and of the tally intake -/

/-- What the job engine keeps of tally records: the jobs, each with its next SEQ, and the intake (R531). -/
def State.tallySide (s : State) : Sparse Job × List TallyRec := (s.jobs, s.intake)

theorem State.jobs_of_tallySide {s t : State} (h : t.tallySide = s.tallySide) : t.jobs = s.jobs := (Prod.ext_iff.1 h).1
theorem State.intake_of_tallySide {s t : State} (h : t.tallySide = s.tallySide) : t.intake = s.intake := (Prod.ext_iff.1 h).2

/-- Steps that each keep the jobs and the intake keep them together. -/
theorem State.tallySide_foldl {α : Type} {f : State → α → State} (h : ∀ s x, (f s x).tallySide = s.tallySide) (l : List α) (s : State) :
    (l.foldl f s).tallySide = s.tallySide := by
  induction l generalizing s with
  | nil => rfl
  | cons x rest ih => exact (ih (f s x)).trans (h s x)

/-! Registers, errors and reports (R401-R406). -/

@[simp] theorem State.put_tallySide (s : State) (f : Field) (node b i v : Nat) : (s.put f node b i v).tallySide = s.tallySide := rfl
@[simp] theorem State.bump_tallySide (s : State) (f : Field) (node b i k : Nat) : (s.bump f node b i k).tallySide = s.tallySide := rfl
@[simp] theorem State.modBlock_tallySide (s : State) (node b : Nat) (f : Block → Block) : (s.modBlock node b f).tallySide = s.tallySide := rfl
@[simp] theorem State.report_tallySide (s : State) (e : LogEntry) : (s.report e).tallySide = s.tallySide := rfl
@[simp] theorem State.countEvent_tallySide (s : State) (k window : Nat) : (s.countEvent k window).2.tallySide = s.tallySide := rfl

@[simp] theorem State.event_tallySide (s : State) (at' : Site) (cls code addr arg st eng queue : Nat) :
    (s.event at' cls code addr arg st eng queue).tallySide = s.tallySide := by
  obtain ⟨r, h⟩ := s.event_eq at' cls code addr arg st eng queue
  rw [h]; rfl

@[simp] theorem State.reportCtl_tallySide (s : State) (at' : Site) (sev : Severity) (e : LogEntry) :
    (s.reportCtl at' sev e).tallySide = s.tallySide := by
  unfold State.reportCtl
  split
  · obtain ⟨l, h⟩ := s.countCe_eq at'.node at'.page sev
    rw [h]; rfl
  · rfl

@[simp] theorem State.error_tallySide (s : State) (at' : Site) (errBit : Nat) (sev : Severity) (addr detail : Nat) :
    (s.error at' errBit sev addr detail).tallySide = s.tallySide := by
  simp [State.error, State.errorWith, apply_ite State.tallySide]

@[simp] theorem State.holdBack_tallySide (s : State) (r : Retire) : (s.holdBack r).tallySide = s.tallySide := rfl

@[simp] theorem State.toRetire_tallySide (s : State) (r : Retire) : (s.toRetire r).tallySide = s.tallySide := by
  unfold State.toRetire
  split <;> rfl

/-- A unit classified as faulty is held back, suspected or retired (R483). -/
theorem State.classified_tallySide (s : State) (node page errBit : Nat) (r : Retire) {act : State → State}
    (h : (act s).tallySide = s.tallySide) : (s.classified node page errBit r act).tallySide = s.tallySide := by
  unfold State.classified
  split
  · rfl
  · split
    · rfl
    · split
      · exact State.event_tallySide ..
      · exact h

/-! Reading and writing a block's window, with the errors met (R190-R193). -/

@[simp] theorem State.remapRow_tallySide (s : State) (node blk bank row : Nat) : (s.remapRow node blk bank row).tallySide = s.tallySide := by
  simp [State.remapRow, apply_ite State.tallySide]

@[simp] theorem State.sramFound_tallySide (s : State) (node blk off : Nat) (double : Bool) :
    (s.sramFound node blk off double).tallySide = s.tallySide := by
  simp [State.sramFound, apply_ite State.tallySide]

@[simp] theorem State.readBlk_tallySide (s : State) (node blk off n : Nat) : (s.readBlk node blk off n).2.2.tallySide = s.tallySide := by
  have found (double : Bool) := State.tallySide_foldl fun (s : State) g => s.sramFound_tallySide node blk (g - blkKeyAt node blk 0) double
  have remapped := State.tallySide_foldl fun (s : State) (r : Nat × Nat) => s.remapRow_tallySide node blk r.1 r.2
  exact (remapped _ _).trans ((found true _ _).trans (found false _ _))

@[simp] theorem State.breakReservation_tallySide (s : State) (node blk off n : Nat) :
    (s.breakReservation node blk off n).tallySide = s.tallySide := by
  unfold State.breakReservation
  repeat' split
  all_goals rfl

@[simp] theorem State.asChange_tallySide (s : State) (r : Requester) (node blk off : Nat) (ls : Lanes) :
    (s.asChange r node blk off ls).tallySide = s.tallySide := by
  unfold State.asChange
  split <;> rfl

@[simp] theorem State.writeBlk_tallySide (s : State) (node blk off : Nat) (ls : Lanes) (poison : Bool) :
    (s.writeBlk node blk off ls poison).tallySide = s.tallySide := by
  unfold State.writeBlk
  exact (State.breakReservation_tallySide ..).trans (State.tallySide_foldl (fun s _ => s.readBlk_tallySide ..) _ s)

/-! Reading and writing a stack, with the errors met (R318, R328, R484). -/

@[simp] theorem State.countSector_tallySide (s : State) (st off : Nat) : (s.countSector st off).tallySide = s.tallySide := by
  unfold State.countSector
  dsimp only
  split
  · exact State.classified_tallySide _ _ _ _ _ (State.toRetire_tallySide ..)
  · rfl

@[simp] theorem State.stackFound_tallySide (s : State) (st off kind : Nat) : (s.stackFound st off kind).tallySide = s.tallySide := by
  simp [State.stackFound, apply_ite State.tallySide]

@[simp] theorem State.readStack_tallySide (s : State) (st off n : Nat) : (s.readStack st off n).2.2.tallySide = s.tallySide := by
  have found (kind : Nat) := State.tallySide_foldl fun (s : State) g => s.stackFound_tallySide st (g - st * stackSize) kind
  exact (found 2 _ _).trans ((found 1 _ _).trans (found 3 _ _))

@[simp] theorem State.writeStackCopy_tallySide (s : State) (st off : Nat) (ls : Lanes) (poison : Bool) :
    (s.writeStackCopy st off ls poison).tallySide = s.tallySide :=
  State.tallySide_foldl (fun s _ => s.readStack_tallySide ..) _ s

/-! A write at a panel address (R36, R69, R317). -/

@[simp] theorem State.writeLoc_tallySide (s : State) (r : Requester) (d : Nat) (l : Loc) (ls : Lanes) (poison : Bool) :
    (s.writeLoc r d l ls poison).2.tallySide = s.tallySide := by
  unfold State.writeLoc
  split
  · rfl
  · split
    · rfl
    · cases l with
      | stack st off => exact State.writeStackCopy_tallySide ..
      | scratch node blk off => simp
      | host a => cases poison <;> rfl
      | reg => rfl
      | peer => rfl

@[simp] theorem State.writeBoth_tallySide (s : State) (r : Requester) (d : Nat) (l : Loc) (ls : Lanes) (poison : Bool) :
    (s.writeBoth r d l ls poison).2.tallySide = s.tallySide := by
  cases l <;> simp [State.writeBoth, apply_ite Prod.snd, apply_ite State.tallySide]

@[simp] theorem State.answer_tallySide (s : State) (node : Nat) (p : Packet) (st : Status) : (s.answer node p st).tallySide = s.tallySide := by
  unfold State.answer
  split <;> rfl

@[simp] theorem State.dropStale_tallySide (s : State) (n : Nat) (p : Packet) : (s.dropStale n p).tallySide = s.tallySide := by
  have answered : ((s.bump F.rtrEpoch_staleCount n 0 0).answer n p .epochStale).tallySide = s.tallySide := State.answer_tallySide ..
  unfold State.dropStale
  extract_lets t
  split
  · split <;> exact answered
  · exact answered

@[simp] theorem State.launch_tallySide (s : State) (node : Nat) (p : Packet) : (s.launch node p).tallySide = s.tallySide := by
  unfold State.launch
  extract_lets q
  split
  · split
    · exact State.answer_tallySide ..
    · rfl
  · exact State.dropStale_tallySide ..
  · rfl
  · rfl

@[simp] theorem State.countTimeout_tallySide (s : State) (node dest : Nat) : (s.countTimeout node dest).tallySide = s.tallySide := by
  unfold State.countTimeout
  extract_lets window ts
  split
  · exact State.launch_tallySide ..
  · rfl

@[simp] theorem State.unreachable_tallySide (s : State) (node tag dest : Nat) : (s.unreachable node tag dest).2.tallySide = s.tallySide := by
  unfold State.unreachable
  split
  · rfl
  · extract_lets p
    split
    · unfold State.raiseWake
      split <;> rfl
    · exact State.countTimeout_tallySide ..
    · rfl

@[simp] theorem State.twoConditions_tallySide (s : State) (r : Requester) (x y : Status) : (s.twoConditions r x y).tallySide = s.tallySide := by
  unfold State.twoConditions
  split <;> rfl

/-- A write of panel storage changes no job and leaves the tally intake, whatever its packets meet on their way. -/
theorem State.writeRange_tallySide (s : State) (r : Requester) (fuel a : Nat) (ls : Lanes) (poison : Bool) :
    (s.writeRange r fuel a ls poison).2.tallySide = s.tallySide := by
  induction fuel generalizing s a ls with
  | zero => rfl
  | succ fuel ih =>
    unfold State.writeRange
    split
    · rfl
    · refine (State.twoConditions_tallySide ..).trans ((ih ..).trans ?_)
      split
      · rfl
      · next d l _ =>
        have reached := s.unreachable_tallySide r.node r.tag d
        split
        · next h => rwa [h] at reached
        · next h => exact (State.writeBoth_tallySide ..).trans (by rwa [h] at reached)

/-! ## A tally record and its job -/

/-- The state once the oldest record has left the intake and is written to its job's ring (R531). -/
def State.recorded (s : State) (r : TallyRec) (rest : List TallyRec) : State :=
  let s := { s with intake := rest }.put F.hubTally_intake 180 0 0 rest.length
  match s.job? r.tag with
  | some j =>
    if j.tallyEntries = 0 then s else
    (s.putBytes (s.jobEngine r.tag) (j.tallyRing + 64 * (j.tallySeq % j.tallyEntries)) (leBytes 64 (putBits r.bits 88 24 j.tallySeq))).2.modJob
      r.tag fun j => { j with tallySeq := j.tallySeq + 1 }
  | none => s

/-- TALLY_RECORD takes the oldest record; then its unit's flushes and its job's end are looked at (R532). -/
theorem exec_tallyRecord {s : State} {r : TallyRec} {rest : List TallyRec} (h : s.intake = r :: rest) :
    exec .tallyRecord s = .next (((s.recorded r rest).wakeTally r.node r.blk).jobSettle r.tag) := by
  show execTallyRecord s = _
  rw [execTallyRecord, h]
  rfl

/-- A job that is there takes its change. -/
theorem State.job?_modJob_same {s : State} {tag : Nat} {j : Job} (h : s.job? tag = some j) (f : Job → Job) :
    (s.modJob tag f).job? tag = some (f j) := by
  rw [State.modJob, h]
  exact Sparse.find?_set_same ..

theorem State.modJob_intake (s : State) (tag : Nat) (f : Job → Job) : (s.modJob tag f).intake = s.intake := by
  unfold State.modJob
  split <;> rfl

theorem State.intake_recorded (s : State) (r : TallyRec) (rest : List TallyRec) : (s.recorded r rest).intake = rest := by
  unfold State.recorded
  extract_lets t
  split
  · split
    · rfl
    · exact (State.modJob_intake ..).trans (State.intake_of_tallySide (t.writeRange_tallySide ..))
  · rfl

/-- The SEQ of the record's job goes up by one: no write of the record reaches the job itself. -/
theorem State.job?_recorded {s : State} {r : TallyRec} (rest : List TallyRec) {j : Job} (hj : s.job? r.tag = some j) (ring : 0 < j.tallyEntries) :
    (s.recorded r rest).job? r.tag = some { j with tallySeq := j.tallySeq + 1 } := by
  have listed : ({ s with intake := rest }.put F.hubTally_intake 180 0 0 rest.length).job? r.tag = some j := hj
  simp only [State.recorded, listed, if_neg (Nat.ne_of_gt ring)]
  apply State.job?_modJob_same
  rw [State.job?, State.putBytes, State.jobs_of_tallySide (State.writeRange_tallySide ..)]
  exact hj

/-! ## Experts at the release of their tables -/

/-- Once the hurdle of undecided experts' tables has released, the panel decides, or asks the host that has the duty (R300-R301). -/
theorem exec_tallyTableFinal_of_released {s : State} {node id g : Nat} {e : Experts} (edge : isEdge node = true)
    (holds : (s.drove node).experts = some e) (undecided : e.decided = false) (unasked : s.asks.any (fun a => a.what == .droves node) = false)
    (unassisted : s.assists.any (fun a => a.what == .droves node) = false) (waits : e.waitGen = some (id, g))
    (released : s.released e.q.node 0 e.tag id g = some .done) :
    exec (.tallyTableFinal node) s = .next (if s.hostDuty node (pageOf .drv node 0) 4 then s.ask 4 node (pageOf .drv node 0) e.table 0 (.droves node)
      else s.decideExperts node none) := by
  show execTallyTableFinal node s = _
  rw [execTallyTableFinal, need_of_true edge]
  simp only [holds, waits, released]
  exact need_of_true (by simp only [undecided, unasked, unassisted]; rfl)

/-- Settles O31: a stalled stream and released tables take the branch that their hypotheses choose; writing a tally record, whatever it meets on its
way, keeps the jobs and the intake, so the record's job is still there for its SEQ to go up. -/
theorem droveEventsComplete : Obligations.DroveEventsComplete := by
  refine ⟨fun s node seq x edge waits due => ?stalled,
    fun s node id g e edge holds undecided unasked unassisted waits released => ?tables,
    fun s r rest h => ⟨s.recorded r rest, exec_tallyRecord h, s.intake_recorded r rest, fun j hj ring => ?record⟩⟩
  case stalled =>
    show execStreamStallTimeout node seq s = _
    rw [execStreamStallTimeout, need_of_true edge]
    simp only [waits]
    exact need_of_true (by simpa using due)
  case record =>
    exact ⟨_, State.job?_recorded rest hj ring, rfl⟩
  case tables =>
    rw [exec_tallyTableFinal_of_released edge holds undecided unasked unassisted waits released]
    exact ⟨fun panel => by rw [panel]; rfl, fun host => by rw [if_pos host]⟩

end Sys2Proof.Machine

namespace Sys2Proof.Machine

/-! ## What a fault leaves of the panel -/

/-- The panel without what faults are recorded in and what they lead to: the registers, event rings, reports and log (R401-R406), the counted
events and the retirements and assists that they decide (R418, R483). -/
def State.sansFaults (s : State) : State :=
  { s with regs := [], rings := [], reports := [], log := {}, events := [], detected := [], retiring := [], heldBack := [], asks := [] }

theorem State.now_of_sansFaults {s t : State} (h : t.sansFaults = s.sansFaults) : t.now = s.now :=
  show t.sansFaults.now = s.sansFaults.now by rw [h]
theorem State.mem_of_sansFaults {s t : State} (h : t.sansFaults = s.sansFaults) : t.mem = s.mem :=
  show t.sansFaults.mem = s.sansFaults.mem by rw [h]
theorem State.stack_of_sansFaults {s t : State} (h : t.sansFaults = s.sansFaults) (st : Nat) : t.stack st = s.stack st :=
  show t.sansFaults.stack st = s.sansFaults.stack st by rw [h]

@[simp] theorem State.put_sansFaults (s : State) (f : Field) (node b i v : Nat) : (s.put f node b i v).sansFaults = s.sansFaults := rfl
@[simp] theorem State.bump_sansFaults (s : State) (f : Field) (node b i k : Nat) : (s.bump f node b i k).sansFaults = s.sansFaults := rfl
@[simp] theorem State.alert_sansFaults (s : State) : s.alert.sansFaults = s.sansFaults := rfl

@[simp] theorem State.event_sansFaults (s : State) (at' : Site) (cls code addr arg st eng queue : Nat) :
    (s.event at' cls code addr arg st eng queue).sansFaults = s.sansFaults := by
  obtain ⟨r, h⟩ := s.event_eq at' cls code addr arg st eng queue
  rw [h]; rfl

@[simp] theorem State.reportCtl_sansFaults (s : State) (at' : Site) (sev : Severity) (e : LogEntry) :
    (s.reportCtl at' sev e).sansFaults = s.sansFaults := by
  unfold State.reportCtl
  split
  · obtain ⟨l, h⟩ := s.countCe_eq at'.node at'.page sev
    rw [h]; rfl
  · rfl

@[simp] theorem State.error_sansFaults (s : State) (at' : Site) (errBit : Nat) (sev : Severity) (addr detail : Nat) :
    (s.error at' errBit sev addr detail).sansFaults = s.sansFaults := by
  simp [State.error, State.errorWith, apply_ite State.sansFaults]

@[simp] theorem State.moveUnit_sansFaults (s : State) (node page : Nat) (u : UState) : (s.moveUnit node page u).sansFaults = s.sansFaults :=
  State.event_sansFaults ..

@[simp] theorem State.toRetire_sansFaults (s : State) (r : Retire) : (s.toRetire r).sansFaults = s.sansFaults := by
  unfold State.toRetire
  split <;> rfl

/-- Whichever way the fault of a unit is decided, the panel's own work goes on (R483). -/
@[simp] theorem State.classified_toRetire_sansFaults (s : State) (node page errBit : Nat) (r r' : Retire) :
    (s.classified node page errBit r fun s => s.toRetire r').sansFaults = s.sansFaults := by
  unfold State.classified
  split
  · rfl
  split
  · rfl
  split
  · exact State.moveUnit_sansFaults ..
  · exact State.toRetire_sansFaults ..

@[simp] theorem State.countEvent_sansFaults (s : State) (k window : Nat) : (s.countEvent k window).2.sansFaults = s.sansFaults := rfl

@[simp] theorem State.countSector_sansFaults (s : State) (st off : Nat) : (s.countSector st off).sansFaults = s.sansFaults := by
  unfold State.countSector
  dsimp only
  split
  · exact State.classified_toRetire_sansFaults ..
  · rfl

@[simp] theorem State.stackFound_sansFaults (s : State) (st off kind : Nat) : (s.stackFound st off kind).sansFaults = s.sansFaults := by
  simp [State.stackFound, apply_ite State.sansFaults]

/-! ## What reading a stack leaves of panel time -/

/-- Steps that each take no panel time take none together. -/
theorem State.now_foldl {α : Type} {f : State → α → State} (h : ∀ s x, (f s x).now = s.now) (l : List α) (s : State) :
    (l.foldl f s).now = s.now :=
  List.foldlRecOn (motive := fun t : State => t.now = s.now) l f rfl fun t ht x _ => (h t x).trans ht

@[simp] theorem State.stackFound_now (s : State) (st off kind : Nat) : (s.stackFound st off kind).now = s.now :=
  State.now_of_sansFaults (State.stackFound_sansFaults ..)

@[simp] theorem State.readStack_now (s : State) (st off n : Nat) : (s.readStack st off n).2.2.now = s.now := by
  have found (kind : Nat) := State.now_foldl fun (s : State) g => s.stackFound_now st (g - st * stackSize) kind
  exact (found 2 _ _).trans ((found 1 _ _).trans (found 3 _ _))

@[simp] theorem State.scrubStack_now (s : State) (st : Nat) : (s.scrubStack st).now = s.now :=
  State.now_foldl (fun s _ => s.readStack_now ..) _ s

/-! ## Registers of a stack's page -/

/-- A field does not depend on the draws of free values. -/
theorem State.fld_drawn (s : State) (k : Nat) (f : Field) (node b i : Nat) : { s with freeCount := k }.fld f node b i = s.fld f node b i := rfl

/-- Counting in one register leaves the fields of those at other addresses. -/
theorem State.fld_bump_other (s : State) {f g : Field} {node b i node' b' i' : Nat} (h : g.reg.key node' b' i' ≠ f.reg.key node b i) (k : Nat) :
    (s.bump f node b i k).fld g node' b' i' = s.fld g node' b' i' :=
  State.fld_congr (s.word_put_other h _)

@[simp] theorem State.stack_setStack (s : State) (st : Nat) (x : Stack) : (s.setStack st x).stack st = x := Sparse.get_set_same ..
@[simp] theorem State.stack_put (s : State) (f : Field) (node b i v st : Nat) : (s.put f node b i v).stack st = s.stack st := rfl

/-- A register of a stack's page proper: HBM_STAT, HBM_ERR, HBM_SCRUB (R329). -/
structure Reg.OfStack (r : Reg) : Prop where
  page : r.place.kind = .hbm
  own : r.shared = false
  proper : 0x100 ≤ r.place.off
  inside : r.place.off < 0x1000

theorem Reg.hbmStat_ofStack : Reg.hbmStat.OfStack := ⟨rfl, rfl, by decide, by decide⟩
theorem Reg.hbmScrub_ofStack : Reg.hbmScrub.OfStack := ⟨rfl, rfl, by decide, by decide⟩

theorem Reg.OfStack.key_eq {r : Reg} (h : r.OfStack) (node : Nat) : r.key node 0 0 = node * 0x40000 + 3 * 0x1000 + r.place.off := by
  simp only [Reg.key, Reg.home, h.own, h.page, Bool.false_and, Bool.false_eq_true, if_false, pageOf]
  omega

theorem Reg.OfStack.key_ne_header {r h : Reg} (hr : r.OfStack) (hk : h.place.kind = .header) (hs : h.shared = false) (ho : h.place.off < 0x100)
    (node : Nat) : r.key node 0 0 ≠ h.key node (pageOf .hbm node 0) 0 := by
  have := hr.proper
  rw [hr.key_eq, Reg.key_header hk hs, pageOf]
  omega

theorem Reg.OfStack.key_ne_logStat {r : Reg} (hr : r.OfStack) (node master : Nat) : r.key node 0 0 ≠ Reg.logStat.key master 0 0 := by
  have := hr.inside
  have log : Reg.logStat.key master 0 0 = master * 0x40000 + 11 * 0x1000 + 0x100 := by
    simp only [Reg.key, Reg.home, Reg.shared, Reg.place, pageOf, Bool.false_and, Bool.false_eq_true, if_false, Nat.zero_mul, Nat.add_zero]
  rw [hr.key_eq, log]
  omega

/-- From `s` to `t` only faults are recorded, and none of the registers of the stack's page proper changes. -/
structure SameStack (s t : State) (node : Nat) : Prop where
  rest : t.sansFaults = s.sansFaults
  shown : ∀ f : Field, f.reg.OfStack → t.fld f node = s.fld f node

section
variable {s t u : State} {node : Nat}

theorem SameStack.mem (h : SameStack s t node) : t.mem = s.mem := State.mem_of_sansFaults h.rest

theorem SameStack.trans (h : SameStack s t node) (h' : SameStack t u node) : SameStack s u node :=
  ⟨h'.rest.trans h.rest, fun f hf => (h'.shown f hf).trans (h.shown f hf)⟩

theorem SameStack.ite {c : Prop} [Decidable c] (h : SameStack s t node) : SameStack s (if c then t else s) node := by
  split
  · exact h
  · exact ⟨rfl, fun _ _ => rfl⟩

end

/-- An error at a stack's page leaves the registers of the page proper (R401-R403). -/
theorem SameStack.error (s : State) (node sub : Nat) (tag : Option Nat) (errBit : Nat) (sev : Severity) (addr detail : Nat) :
    SameStack s (s.error ⟨node, pageOf .hbm node 0, sub, tag⟩ errBit sev addr detail) node := by
  refine ⟨State.error_sansFaults .., fun f hf => ?_⟩
  obtain ⟨-, -, words⟩ := s.error_frame ⟨node, pageOf .hbm node 0, sub, tag⟩ errBit sev addr detail
  have stat := hf.key_ne_header (h := .errStat) rfl rfl (by decide) node
  have first := hf.key_ne_header (h := .errFirst) rfl rfl (by decide) node
  exact State.fld_congr (words _ _ _ _ (by simp [errorKeys, stat, first]))

/-- A change of its unit's state leaves them too (R399). -/
theorem SameStack.moveUnit (s : State) (node : Nat) (u : UState) : SameStack s (s.moveUnit node (pageOf .hbm node 0) u) node := by
  refine ⟨State.moveUnit_sansFaults .., fun f hf => ?_⟩
  have stat := hf.key_ne_header (h := .unitStat) rfl rfl (by decide) node
  exact State.fld_congr ((State.word_put_other (f := F.unitStat_state) _ stat _).trans (State.event_word ..))

/-- ALERT_N is shown at the master hub, whatever its node (R508). -/
theorem SameStack.alert (s : State) (node : Nat) : SameStack s s.alert node :=
  ⟨s.alert_sansFaults, fun _ hf => State.fld_congr (s.word_put_other (f := F.logStat_alert) (hf.key_ne_logStat node s.master) 1)⟩

theorem Reg.hbmScrub_key_ne_hbmStat (node : Nat) : Reg.hbmScrub.key node 0 0 ≠ Reg.hbmStat.key node 0 0 := by
  have scrub : Reg.hbmScrub.place.off = 0x110 := rfl
  have stat : Reg.hbmStat.place.off = 0x100 := rfl
  rw [Reg.hbmScrub_ofStack.key_eq, Reg.hbmStat_ofStack.key_eq, scrub, stat]
  omega

/-! ## The temperature of a stack -/

/-- Of the levels 1 to 3, those that are kept have a maximum of at most 3 (R322). -/
theorem foldl_max_filter_levels_le (p : Nat → Bool) : ([1, 2, 3].filter p).foldl max 0 ≤ 3 :=
  List.foldlRecOn (motive := (· ≤ 3)) _ _ (Nat.zero_le 3) fun n hn x hx => by
    have level : x ∈ [1, 2, 3] := (List.mem_filter.1 hx).1
    simp at level
    omega

/-- A read of the temperature shows it with its level, and is remembered (R322). -/
def State.tempRead (s : State) (st temp level : Nat) (cool : Sparse Nat) : State :=
  ((s.setStack st { s.stack st with read := some s.now, cool := cool }).put F.hbmStat_temp (156 + st) 0 0 temp).put F.hbmStat_therm (156 + st) 0 0 level

/-- The corrections reported with it, a free number, are counted (R310). What is left of the read is its entry in the log and ALERT_N. -/
def State.tempShown (s : State) (st temp level : Nat) (cool : Sparse Nat) : State :=
  { (s.tempRead st temp level cool).bump F.hbmScrub_odeccCount (156 + st) 0 0 (Config.freeWord s.freeCount).toNat with freeCount := s.freeCount + 1 }

section
variable (s : State) (st temp level : Nat) (cool : Sparse Nat)

theorem State.fld_tempShown (f : Field) (node : Nat) : (s.tempShown st temp level cool).fld f node =
    ((s.tempRead st temp level cool).bump F.hbmScrub_odeccCount (156 + st) 0 0 (Config.freeWord s.freeCount).toNat).fld f node :=
  State.fld_drawn ..

/-- The count of corrections is in another register than the temperature. -/
theorem State.hbmStat_tempShown {f : Field} (hf : f.reg = .hbmStat) :
    (s.tempShown st temp level cool).fld f (156 + st) = (s.tempRead st temp level cool).fld f (156 + st) := by
  have apart : f.reg.key (156 + st) 0 0 ≠ F.hbmScrub_odeccCount.reg.key (156 + st) 0 0 := hf ▸ (Reg.hbmScrub_key_ne_hbmStat (156 + st)).symm
  rw [State.fld_tempShown, State.fld_bump_other _ apart]

theorem State.temp_tempShown (range : temp < 256) : (s.tempShown st temp level cool).fld F.hbmStat_temp (156 + st) = temp := by
  rw [State.hbmStat_tempShown _ _ _ _ _ rfl, State.tempRead, State.fld_put_below (f := F.hbmStat_therm) (g := F.hbmStat_temp) _ rfl (by decide) (by decide),
    State.fld_put_same _ (by decide)]
  exact Nat.mod_eq_of_lt range

theorem State.therm_tempShown (small : level ≤ 3) : (s.tempShown st temp level cool).fld F.hbmStat_therm (156 + st) = level := by
  rw [State.hbmStat_tempShown _ _ _ _ _ rfl, State.tempRead, State.fld_put_same _ (by decide)]
  exact Nat.mod_eq_of_lt (Nat.lt_succ_of_le small)

theorem State.odeccCount_tempShown : (s.tempShown st temp level cool).fld F.hbmScrub_odeccCount (156 + st) =
    min 65535 (s.fld F.hbmScrub_odeccCount (156 + st) + (Config.freeWord s.freeCount).toNat) := by
  have apart := Reg.hbmScrub_key_ne_hbmStat (156 + st)
  have before : (s.tempRead st temp level cool).fld F.hbmScrub_odeccCount (156 + st) = s.fld F.hbmScrub_odeccCount (156 + st) :=
    State.fld_congr ((State.word_put_other (f := F.hbmStat_therm) _ apart _).trans (State.word_put_other (f := F.hbmStat_temp) _ apart _))
  have largest : 2 ^ F.hbmScrub_odeccCount.width - 1 = 65535 := rfl
  rw [State.fld_tempShown, State.fld_bump_same _ (by decide), before, largest, Nat.min_comm]

theorem State.stack_tempShown : (s.tempShown st temp level cool).stack st = { s.stack st with read := some s.now, cool := cool } :=
  s.stack_setStack ..

end

/-- A read that is due shows the temperature and a level, which is 3 above the threshold of 3; logging it and ALERT_N change nothing else (R322). -/
theorem exec_stackTempRead {s : State} {st temp : Nat} (hst : st < 24) (on : s.fld F.hbmStat_state (156 + st) ≠ 0)
    (due : ∀ t, (s.stack st).read = some t → t + ms ≤ s.now) :
    ∃ level cool u, exec (.stackTempRead st temp) s = .next u ∧ SameStack (s.tempShown st temp level cool) u (156 + st) ∧ level ≤ 3 ∧
      (stackLimit 3 < temp → level = 3) := by
  show ∃ level cool u, execStackTempRead st temp s = .next u ∧ _
  rw [execStackTempRead, need_of_true (decide_eq_true hst)]
  extract_lets n x old cool up cleared kept level s1 s2 s3 s4
  rw [need_of_true (bne_iff_ne.2 on)]
  have risen : up ≤ 3 := by
    unfold up
    repeat' split
    all_goals decide
  have small : level ≤ 3 := Nat.max_le.2 ⟨risen, foldl_max_filter_levels_le _⟩
  refine ⟨level, cool, _, need_of_true ?due, (SameStack.error s3 ..).ite.trans (SameStack.alert s4 n).ite, small, fun hot => ?top⟩
  case due =>
    split
    · next t last => exact decide_eq_true (due t last)
    · rfl
  case top =>
    have up3 : up = 3 := if_pos hot
    have : up ≤ level := Nat.le_max_left ..
    omega

/-- A read that is due shows what R322 and R310 say, and leaves storage. -/
theorem exec_stackTempRead_shows {s : State} {st temp : Nat} (hst : st < 24) (on : s.fld F.hbmStat_state (156 + st) ≠ 0) (range : temp < 256)
    (due : ∀ t, (s.stack st).read = some t → t + ms ≤ s.now) :
    ∃ u : State, exec (.stackTempRead st temp) s = .next u ∧ u.fld F.hbmStat_temp (156 + st) = temp ∧ (u.stack st).read = some s.now ∧
      (stackLimit 3 < temp → u.fld F.hbmStat_therm (156 + st) = 3) ∧ u.fld F.hbmScrub_odeccCount (156 + st) =
        min 65535 (s.fld F.hbmScrub_odeccCount (156 + st) + (Config.freeWord s.freeCount).toNat) ∧ u.mem = s.mem := by
  obtain ⟨level, cool, u, ran, noted, small, top⟩ := exec_stackTempRead (temp := temp) hst on due
  refine ⟨u, ran, ?_, ?_, fun hot => ?_, ?_, noted.mem⟩
  · rw [noted.shown _ Reg.hbmStat_ofStack, State.temp_tempShown _ _ _ _ _ range]
  · rw [State.stack_of_sansFaults noted.rest, State.stack_tempShown]
  · rw [noted.shown _ Reg.hbmStat_ofStack, State.therm_tempShown _ _ _ _ _ small, top hot]
  · rw [noted.shown _ Reg.hbmScrub_ofStack, State.odeccCount_tempShown]

/-! ## Scrubbing of a stack -/

/-- A pass that is due ends, and the next starts with no sector scrubbed, whatever errors the last sectors held (R320). -/
theorem exec_stackScrubPass_starts {s : State} {st : Nat} (hst : st < 24) (serves : s.fld F.hbmStat_state (156 + st) = 2)
    (due : ∀ t, (s.stack st).pass = some t → t + s.passTime + s.passExtra st ≤ s.now) :
    ∃ u : State, exec (.stackScrubPass st) s = .next u ∧ (u.stack st).pass = some s.now ∧ u.fld F.hbmScrub_progress (156 + st) = 0 := by
  show ∃ u, execStackScrubPass st s = .next u ∧ _
  rw [execStackScrubPass, need_of_true (decide_eq_true hst)]
  extract_lets n start
  rw [need_of_true (beq_iff_eq.2 serves)]
  have started (t : State) : ((start t).stack st).pass = some t.now ∧ (start t).fld F.hbmScrub_progress n = 0 := by
    refine ⟨by simp [start], ?_⟩
    simp only [start]
    rw [State.fld_put_below (f := F.hbmScrub_forced) (g := F.hbmScrub_progress) _ rfl (by decide) (by decide), State.fld_put_same _ (by decide), Nat.zero_mod]
  split
  · exact ⟨_, rfl, started s⟩
  next t last =>
    have ended : ((s.scrubStack st).count F.hbmScrub_passes n 0 0).now = s.now := s.scrubStack_now st
    rw [need_of_true (decide_eq_true (due t last)), ← ended]
    exact ⟨_, rfl, started _⟩

/-- A pass whose rest is due to take longer than is left of its time is forced (R321). -/
theorem exec_scrubAtRisk_forces {s : State} {st done t : Nat} (hst : st < 24) (hd : done ≤ stackSize / 32) (pass : (s.stack st).pass = some t)
    (serves : s.fld F.hbmStat_state (156 + st) = 2) (unforced : s.flag F.hbmScrub_forced (156 + st) = false)
    (further : s.fld F.hbmScrub_progress (156 + st) ≤ done)
    (late : (t + s.passTime + s.passExtra st - s.now) * 512 ≤ (stackSize - 32 * done) * 100 + 10 * sec * 512) :
    exec (.scrubAtRisk st done) s = .next ((s.put F.hbmScrub_progress (156 + st) 0 0 done).put F.hbmScrub_forced (156 + st) 0 0 1) := by
  show execScrubAtRisk st done s = _
  rw [execScrubAtRisk, need_of_true (by simp only [hst, hd]; rfl)]
  simp only [pass]
  rw [need_of_true (by simp only [serves, unforced, further]; rfl), need_of_true (decide_eq_true late)]

/-! ## Failure and training of a stack -/

/-- A stack that fails training at both rates fails (R325). -/
theorem exec_stackFail_training {s : State} {st : Nat} (hst : st < 24) (intact : s.stackFailed st = false)
    (training : s.fld F.hbmStat_state (156 + st) = 1) : exec (.stackFail st .training) s = .next (s.failStack st .training 0) := by
  show execStackFail st .training s = _
  rw [execStackFail, need_of_true (decide_eq_true hst), need_of_true (congrArg not intact)]
  exact need_of_true (beq_iff_eq.2 training)

/-- A controller that stops also counts against its edge die, which leaves storage (R325, R484). -/
theorem exec_stackFail_stopped {s : State} {st : Nat} (hst : st < 24) (intact : s.stackFailed st = false) (on : s.fld F.hbmStat_state (156 + st) ≠ 0) :
    ∃ u : State, exec (.stackFail st .stopped) s = .next (u.failStack st .stopped 0) ∧ u.mem = s.mem := by
  show ∃ u : State, execStackFail st .stopped s = .next (u.failStack st .stopped 0) ∧ _
  rw [execStackFail, need_of_true (decide_eq_true hst), need_of_true (congrArg not intact)]
  refine ⟨_, need_of_true (bne_iff_ne.2 on), State.mem_of_sansFaults ?_⟩
  have counted : (((s.error ⟨156 + st, 0, 0x3F, none⟩ 29 .ueUnit 0 3).countEvent (eventKey 11 (156 + st)) (86400 * sec)).2).sansFaults = s.sansFaults :=
    (State.countEvent_sansFaults ..).trans (State.error_sansFaults ..)
  split
  · exact (State.classified_toRetire_sansFaults ..).trans counted
  · exact counted

/-- A stack whose retirement has been decided fails with the count that decided it (R325, R484). -/
theorem exec_stackFail_classified {s : State} {st c : Nat} (hst : st < 24) (intact : s.stackFailed st = false)
    (found : s.retiring.find? (fun r => match r with | .stack k _ => k == st | _ => false) = some (.stack st c)) :
    exec (.stackFail st .classified) s = .next ({ s with retiring := s.retiring.erase (.stack st c) }.failStack st .classified c) := by
  show execStackFail st .classified s = _
  rw [execStackFail, need_of_true (decide_eq_true hst), need_of_true (congrArg not intact)]
  dsimp only
  split
  next k c' at' =>
    cases at'.symm.trans found
    rfl
  next other => exact absurd found (other st c)

/-- A stack in training that comes up at 6.4 Gb/s serves at that rate (R311). -/
theorem exec_stackTrainFallback_serves {s : State} {st : Nat} (hst : st < 24) (training : s.fld F.hbmStat_state (156 + st) = 1) :
    ∃ u : State, exec (.stackTrainFallback st true) s = .next u ∧ u.fld F.hbmStat_state (156 + st) = 2 ∧
      u.flag F.hbmStat_rate6g4 (156 + st) = true ∧ u.mem = s.mem := by
  show ∃ u, execStackTrainFallback st true s = .next u ∧ _
  rw [execStackTrainFallback, need_of_true (decide_eq_true hst)]
  extract_lets n t
  rw [need_of_true (beq_iff_eq.2 training), if_pos rfl]
  have noted : SameStack _ (t.moveUnit n (pageOf .hbm n 0) .running) n := (SameStack.error ..).trans (SameStack.moveUnit ..)
  refine ⟨_, rfl, ?state, ?rate, noted.mem⟩
  case state =>
    refine (noted.shown F.hbmStat_state Reg.hbmStat_ofStack).trans ?_
    rw [State.fld_put_below (f := F.hbmStat_rate6g4) (g := F.hbmStat_state) _ rfl (by decide) (by decide), State.fld_put_same _ (by decide)]
    rfl
  case rate =>
    have rate := noted.shown F.hbmStat_rate6g4 Reg.hbmStat_ofStack
    rw [State.fld_put_same _ (by decide)] at rate
    exact congrArg (· != 0) rate

theorem exec_stackTrainFallback_fails {s : State} {st : Nat} (hst : st < 24) (training : s.fld F.hbmStat_state (156 + st) = 1) :
    exec (.stackTrainFallback st false) s = .next (s.failStack st .training 0) := by
  show execStackTrainFallback st false s = _
  rw [execStackTrainFallback, need_of_true (decide_eq_true hst)]
  exact need_of_true (beq_iff_eq.2 training)

/-- Settles O34: each row passes its checks and comes to the state that its lemma above names; what is logged on the way
is left out of `State.sansFaults`, and the registers that the clauses name are not among those a fault writes. -/
theorem stackEventsComplete : Obligations.StackEventsComplete :=
  ⟨fun _ _ _ hst on range due => exec_stackTempRead_shows hst on range due,
    fun _ _ hst serves due => exec_stackScrubPass_starts hst serves due,
    fun _ _ _ _ hst hd pass serves unforced further late => exec_scrubAtRisk_forces hst hd pass serves unforced further late,
    fun _ _ hst intact => ⟨exec_stackFail_training hst intact, exec_stackFail_stopped hst intact, fun _ found => exec_stackFail_classified hst intact found⟩,
    fun _ _ hst training => ⟨exec_stackTrainFallback_serves hst training, exec_stackTrainFallback_fails hst training⟩⟩

end Sys2Proof.Machine

namespace Sys2Proof.Machine

/-! ## Accesses of an endpoint's BAR2 window -/

/-- The panel address that an offset of the BAR2 window stands for, and the job tag its packets carry (R374). -/
def State.bar2Addr (s : State) (hub off : Nat) : Nat := s.fld F.hubBar2Win_base hub * 2 ^ 36 + off
def State.bar2Tag (s : State) (hub : Nat) : Nat := if s.flag F.hubBar2Win_tagEn hub then s.fld F.hubBar2Win_jobTag hub else 64

/-- An address in neither the register nor the host range, where BAR2 reaches storage (R374). -/
theorem not_refusedRange {a : Nat} (h : a < 0x200000000000 ∨ 0x400000000000 ≤ a) : ¬(0x200000000000 ≤ a ∧ a < 0x400000000000) := by omega

section Bar2
variable {s : State} {hub tag off n : Nat} (hh : isHub hub = true) (inside : off + n ≤ 2 ^ 36) (nonempty : 0 < n) (most : n ≤ 4096)
include hh inside nonempty most

section Read
variable (free : (s.endpoint hub).reqs.any (·.tag == tag) = false)
include free

theorem exec_bar2Access_read_early (down : s.barsUp hub = false) :
    exec (.bar2Access hub tag off n none) s = .next (s.say (.hostError hub tag true)) := by
  show execBar2Access hub tag off n none s = _
  rw [execBar2Access, need_of_true (by simpa [hh, nonempty, most, free] using inside)]
  exact if_pos (by simp [down])

/-- An aligned read is refused in the register and host ranges; elsewhere it waits for the packets of its parts (R374-R375). -/
theorem exec_bar2Access_read_up (up : s.barsUp hub = true) (aligned : off % min n 8 = 0) :
    exec (.bar2Access hub tag off n none) s =
      if 0x200000000000 ≤ s.bar2Addr hub off ∧ s.bar2Addr hub off < 0x400000000000 then
        .next ((s.say (.hostError hub tag true)).hostRefused hub (s.bar2Addr hub off) .hole)
      else .next ((accessParts 10 (s.bar2Addr hub off) n).foldl (fun t p =>
        t.request hub { op := .readReq, cls := 2, srcUnit := 0x10, jobTag := s.bar2Tag hub, addr := p.1, oparg0 := p.2 } (.host hub tag))
        (s.modEndpoint hub fun e => { e with reqs := e.reqs ++
          [{ tag := tag, addr := s.bar2Addr hub off, n := n, time := s.now, left := (accessParts 10 (s.bar2Addr hub off) n).length }] })) := by
  show execBar2Access hub tag off n none s = _
  rw [execBar2Access, need_of_true (by simpa [hh, nonempty, most, free] using inside)]
  unfold State.bar2Addr
  exact (if_neg (by simp [up])).trans ((if_neg (by simp [aligned])).trans (if_neg (by simp)))

end Read

section Write
variable {d : List Byte} (whole : d.length = n)
include whole

theorem exec_bar2Access_write_early (down : s.barsUp hub = false) : exec (.bar2Access hub tag off n (some d)) s = .next s := by
  show execBar2Access hub tag off n (some d) s = _
  rw [execBar2Access, need_of_true (by simpa [hh, nonempty, most, whole] using inside)]
  exact if_pos (by simp [down])

/-- An aligned write of 32 bits or more is refused in the register and host ranges; elsewhere each of its parts is posted (R374-R375). -/
theorem exec_bar2Access_write_up (up : s.barsUp hub = true) (aligned : off % min n 8 = 0) (wide : 4 ≤ n) :
    exec (.bar2Access hub tag off n (some d)) s =
      if 0x200000000000 ≤ s.bar2Addr hub off ∧ s.bar2Addr hub off < 0x400000000000 then
        .next (s.hostRefused hub (s.bar2Addr hub off) .hole)
      else .next ((accessParts 10 (s.bar2Addr hub off) n).foldl (fun t p =>
        t.sendBytes hub 0x10 (s.bar2Tag hub) p.1 ((d.drop (p.1 - s.bar2Addr hub off)).take p.2) false false .plain) s) := by
  show execBar2Access hub tag off n (some d) s = _
  rw [execBar2Access, need_of_true (by simpa [hh, nonempty, most, whole] using inside)]
  unfold State.bar2Addr
  exact (if_neg (by simp [up])).trans ((if_neg (by simp [aligned])).trans (if_neg (by simp [wide])))

end Write
end Bar2

/-! ## Resets and timeouts of an endpoint -/

theorem exec_perstRelease {s : State} {hub : Nat} (hh : isHub hub = true) (held : (s.endpoint hub).perst = true) :
    exec (.perstRelease hub) s = .next (s.modEndpoint hub fun e => { e with perst := false }) :=
  (need_of_true hh).trans (need_of_true held)

/-- A host read that has waited 900 us is answered as one that timed out, and no packet still asks for its parts (R375). -/
theorem exec_hostCompletionTimeout {s : State} {hub tag : Nat} {r : HostReq} (hh : isHub hub = true)
    (waits : (s.endpoint hub).reqs.find? (·.tag == tag) = some r) (due : r.time + 900 * us ≤ s.now) :
    exec (.hostCompletionTimeout hub tag) s =
      .next (({ s with outstanding := s.outstanding.filter fun x => x.purpose != Purpose.host hub tag } : State).answerHost hub
        { r with status := .timeout }) := by
  show execHostCompletionTimeout hub tag s = _
  rw [execHostCompletionTimeout, need_of_true hh]
  simp only [waits]
  exact need_of_true (decide_eq_true due)

/-- Settles O43: a reset acts on the endpoint of its hub; an access, whose tag is free or whose data are as long as it says, goes the way that
bring-up and the range of its address choose (`exec_bar2Access_read_up`, `exec_bar2Access_write_up`); a read whose time has come is answered. -/
theorem hostPort : Obligations.HostPort := by
  refine ⟨fun s hub hh => ⟨need_of_true hh, need_of_true hh, exec_perstRelease hh⟩,
    fun s hub tag off n hh inside nonempty most => ⟨?read, ?write⟩,
    fun s hub tag r hh waits due => exec_hostCompletionTimeout hh waits due⟩
  case read =>
    intro free
    refine ⟨exec_bar2Access_read_early hh inside nonempty most free, fun up aligned => ?_⟩
    have served := exec_bar2Access_read_up hh inside nonempty most free up aligned
    exact ⟨fun low high => served.trans (if_pos ⟨low, high⟩), fun reached => served.trans (if_neg (not_refusedRange reached))⟩
  case write =>
    intro d whole
    refine ⟨exec_bar2Access_write_early hh inside nonempty most whole, fun up aligned wide => ?_⟩
    have served := exec_bar2Access_write_up (tag := tag) hh inside nonempty most whole up aligned wide
    exact ⟨fun low high => served.trans (if_pos ⟨low, high⟩), fun reached => served.trans (if_neg (not_refusedRange reached))⟩

end Sys2Proof.Machine

namespace Sys2Proof.Machine

/-! ## What a read of panel storage leaves of the panel -/

/-- The record of a refused access is one of a fault (R409). -/
@[simp] theorem State.accessErr_sansFaults (s : State) (node page addr : Nat) (o : Origin) (k : AccessKind) (tag : Option Nat) :
    (s.accessErr node page addr o k tag).sansFaults = s.sansFaults := by
  unfold State.accessErr
  extract_lets p
  split
  · rfl
  · split
    · rfl
    · exact State.reportCtl_sansFaults ..

/-- The panel without what a read of its storage can change: what faults are recorded in, the storage and the spare rows of its blocks, which repairs
write (R193, R318), the draws of free values, and the packets and wakes by which a read meets what is on its way (R69-R72). -/
def State.sansReads (s : State) : State :=
  { s.sansFaults with mem := {}, blocks := [], freeCount := 0, routers := [], fabric := [], power := [] }

theorem State.sansReads_of_sansFaults {s t : State} (h : t.sansFaults = s.sansFaults) : t.sansReads = s.sansReads := by
  rw [State.sansReads, h, State.sansReads]

theorem State.fetched_of_sansReads {s t : State} (h : t.sansReads = s.sansReads) : t.fetched = s.fetched :=
  show t.sansReads.fetched = s.sansReads.fetched by rw [h]
theorem State.sqLast_of_sansReads {s t : State} (h : t.sansReads = s.sansReads) : t.sqLast = s.sqLast :=
  show t.sansReads.sqLast = s.sansReads.sqLast by rw [h]

/-- Steps that each change no more than reads do change no more together. -/
theorem State.sansReads_foldl {α : Type} {f : State → α → State} (h : ∀ s x, (f s x).sansReads = s.sansReads) (l : List α) (s : State) :
    (l.foldl f s).sansReads = s.sansReads :=
  List.foldlRecOn (motive := fun t : State => t.sansReads = s.sansReads) l f rfl fun t ht x _ => (h t x).trans ht

@[simp] theorem State.put_sansReads (s : State) (f : Field) (node b i v : Nat) : (s.put f node b i v).sansReads = s.sansReads := rfl
@[simp] theorem State.bump_sansReads (s : State) (f : Field) (node b i k : Nat) : (s.bump f node b i k).sansReads = s.sansReads := rfl
@[simp] theorem State.modBlock_sansReads (s : State) (node b : Nat) (f : Block → Block) : (s.modBlock node b f).sansReads = s.sansReads := rfl

@[simp] theorem State.error_sansReads (s : State) (at' : Site) (errBit : Nat) (sev : Severity) (addr detail : Nat) :
    (s.error at' errBit sev addr detail).sansReads = s.sansReads := State.sansReads_of_sansFaults (State.error_sansFaults ..)
@[simp] theorem State.accessErr_sansReads (s : State) (node page addr : Nat) (o : Origin) (k : AccessKind) (tag : Option Nat) :
    (s.accessErr node page addr o k tag).sansReads = s.sansReads := State.sansReads_of_sansFaults (State.accessErr_sansFaults ..)
@[simp] theorem State.stackFound_sansReads (s : State) (st off kind : Nat) : (s.stackFound st off kind).sansReads = s.sansReads :=
  State.sansReads_of_sansFaults (State.stackFound_sansFaults ..)

/-! Storage: a block's window (R192-R193) and a stack (R318). -/

@[simp] theorem State.remapRow_sansReads (s : State) (node blk bank row : Nat) : (s.remapRow node blk bank row).sansReads = s.sansReads := by
  simp [State.remapRow, apply_ite State.sansReads]

@[simp] theorem State.sramFound_sansReads (s : State) (node blk off : Nat) (double : Bool) :
    (s.sramFound node blk off double).sansReads = s.sansReads := by
  simp [State.sramFound, apply_ite State.sansReads]

@[simp] theorem State.readBlk_sansReads (s : State) (node blk off n : Nat) : (s.readBlk node blk off n).2.2.sansReads = s.sansReads := by
  have found (double : Bool) := State.sansReads_foldl fun (s : State) g => s.sramFound_sansReads node blk (g - blkKeyAt node blk 0) double
  have remapped := State.sansReads_foldl fun (s : State) (r : Nat × Nat) => s.remapRow_sansReads node blk r.1 r.2
  exact (remapped _ _).trans ((found true _ _).trans (found false _ _))

@[simp] theorem State.readStack_sansReads (s : State) (st off n : Nat) : (s.readStack st off n).2.2.sansReads = s.sansReads := by
  have found (kind : Nat) := State.sansReads_foldl fun (s : State) g => s.stackFound_sansReads st (g - st * stackSize) kind
  exact (found 2 _ _).trans ((found 1 _ _).trans (found 3 _ _))

/-! Registers (R410-R414). -/

@[simp] theorem State.readReg_sansReads (s : State) (o : Option Origin) (node page off n : Nat) :
    (s.readReg o node page off n).2.2.sansReads = s.sansReads := by
  unfold State.readReg
  extract_lets a
  split
  · split
    · exact State.accessErr_sansReads ..
    split
    · exact State.accessErr_sansReads ..
    split
    case h_3 =>
      split
      · exact State.accessErr_sansReads ..
      · rfl
    case h_1 => exact State.accessErr_sansReads ..
    all_goals rfl
  · exact State.accessErr_sansReads ..

@[simp] theorem State.readRegs_sansReads (s : State) (o : Option Origin) (node page off k : Nat) :
    (s.readRegs o node page off k).2.2.sansReads = s.sansReads := by
  induction k generalizing s off with
  | zero => rfl
  | succ k ih => exact (ih ..).trans (State.readReg_sansReads ..)

@[simp] theorem State.readPage_sansReads (s : State) (o : Option Origin) (node page off n : Nat) :
    (s.readPage o node page off n).2.2.sansReads = s.sansReads := by
  unfold State.readPage
  split
  · exact State.readReg_sansReads ..
  split
  · exact State.accessErr_sansReads ..
  · exact State.readRegs_sansReads ..

@[simp] theorem State.readLoc_sansReads (s : State) (r : Requester) (d : Nat) (l : Loc) (n : Nat) :
    (s.readLoc r d l n).2.2.sansReads = s.sansReads := by
  unfold State.readLoc
  split
  · rfl
  split
  · rfl
  cases l with
  | stack st off => exact State.readStack_sansReads ..
  | scratch node blk off => exact State.readBlk_sansReads ..
  | reg node page off => exact State.readPage_sansReads ..
  | host a => rfl
  | peer => rfl

/-! The way to another node (R69-R72). -/

@[simp] theorem State.answer_sansReads (s : State) (node : Nat) (p : Packet) (st : Status) : (s.answer node p st).sansReads = s.sansReads := by
  unfold State.answer
  split <;> rfl

@[simp] theorem State.dropStale_sansReads (s : State) (n : Nat) (p : Packet) : (s.dropStale n p).sansReads = s.sansReads := by
  have answered : ((s.bump F.rtrEpoch_staleCount n 0 0).answer n p .epochStale).sansReads = s.sansReads := State.answer_sansReads ..
  unfold State.dropStale
  extract_lets t
  split
  · split <;> exact answered
  · exact answered

@[simp] theorem State.launch_sansReads (s : State) (node : Nat) (p : Packet) : (s.launch node p).sansReads = s.sansReads := by
  unfold State.launch
  extract_lets q
  split
  · split
    · exact State.answer_sansReads ..
    · rfl
  · exact State.dropStale_sansReads ..
  · rfl
  · rfl

@[simp] theorem State.countTimeout_sansReads (s : State) (node dest : Nat) : (s.countTimeout node dest).sansReads = s.sansReads := by
  unfold State.countTimeout
  extract_lets window ts
  split
  · exact State.launch_sansReads ..
  · rfl

@[simp] theorem State.raiseWake_sansReads (s : State) (node : Nat) : (s.raiseWake node).sansReads = s.sansReads := by
  unfold State.raiseWake
  split <;> rfl

@[simp] theorem State.unreachable_sansReads (s : State) (node tag dest : Nat) : (s.unreachable node tag dest).2.sansReads = s.sansReads := by
  unfold State.unreachable
  split
  · rfl
  extract_lets p
  split
  · exact State.raiseWake_sansReads ..
  · exact State.countTimeout_sansReads ..
  · rfl

@[simp] theorem State.twoConditions_sansReads (s : State) (r : Requester) (x y : Status) : (s.twoConditions r x y).sansReads = s.sansReads := by
  unfold State.twoConditions
  split <;> rfl

/-- A read of panel storage, whatever its packets meet, changes no more than `State.sansReads` leaves out (R36). -/
theorem State.readRange_sansReads (s : State) (r : Requester) (fuel a n : Nat) : (s.readRange r fuel a n).2.2.sansReads = s.sansReads := by
  induction fuel generalizing s a n with
  | zero => rfl
  | succ fuel ih =>
    unfold State.readRange
    split
    · rfl
    refine (State.twoConditions_sansReads ..).trans ((ih ..).trans ?_)
    split
    · rfl
    next d l _ =>
      have reached := s.unreachable_sansReads r.node r.tag d
      split
      · next h => rwa [h] at reached
      · next h => exact (State.readLoc_sansReads ..).trans (by rwa [h] at reached)

/-! ## Fetches from the submission queues -/

section Fetch
variable (hub q : Nat)

/-- A fetch adds its descriptor to those fetched; the queue fetched from last is noted apart from it (R381). -/
theorem State.fetchOne_adds (s : State) (i : Nat) : ∃ f, (s.fetchOne hub q i).fetched = s.fetched ++ [f] ∧ (s.fetchOne hub q i).sqLast = s.sqLast := by
  have read := s.readRange_sansReads ⟨s.servedHub hub, 0x14, 0⟩ (packets 64) (s.fld F.hubSqcfg_base hub 0 q + 64 * i) 64
  have last := State.sqLast_of_sansReads read
  exact ⟨_, congrArg (· ++ [_]) (State.fetched_of_sansReads read), last⟩

theorem State.length_fetched_foldl_fetchOne (place : Nat → Nat) (l : List Nat) (s : State) :
    (l.foldl (fun s i => s.fetchOne hub q (place i)) s).fetched.length = s.fetched.length + l.length := by
  induction l generalizing s with
  | nil => rfl
  | cons i rest ih =>
    obtain ⟨f, added, -⟩ := s.fetchOne_adds hub q (place i)
    rw [List.foldl_cons, ih, added, List.length_append, List.length_singleton, List.length_cons, Nat.add_assoc, Nat.add_comm 1]

theorem State.sqLast_foldl_fetchOne (place : Nat → Nat) (l : List Nat) (s : State) :
    (l.foldl (fun s i => s.fetchOne hub q (place i)) s).sqLast = s.sqLast :=
  List.foldlRecOn (motive := fun t : State => t.sqLast = s.sqLast) l _ rfl fun t ht i _ =>
    have ⟨_, _, kept⟩ := t.fetchOne_adds hub q (place i)
    kept.trans ht

end Fetch

/-- The hub fetches from the first ready queue after the one it fetched from last, up to 8 descriptors (R381). -/
theorem exec_sqFetch_fetches {s : State} {hub q : Nat} (hh : isHub hub = true)
    (next : ((List.range 16).map fun i => (Sparse.get 15 s.sqLast hub + 1 + i) % 16).find? (s.sqReady hub) = some q) :
    ∃ u : State, exec (.sqFetch hub) s = .next u ∧ Sparse.get 15 u.sqLast hub = q ∧
      u.fetched.length = s.fetched.length + min 8 (s.sqPending hub q) := by
  show ∃ u, execSqFetch hub s = .next u ∧ _
  rw [execSqFetch, need_of_true hh]
  simp only [next]
  refine ⟨_, rfl, ?last, (State.length_fetched_foldl_fetchOne hub q _ _ _).trans (by rw [List.length_range])⟩
  case last =>
    exact (congrArg (Sparse.get 15 · hub) (State.sqLast_foldl_fetchOne hub q _ _ _)).trans (Sparse.get_set_same ..)

/-! ## A fetched descriptor -/

/-- HUB_SQTAG and HUB_SQSTAT of one queue lie at different addresses (R378). -/
theorem Reg.hubSqtag_key_ne_hubSqstat (hub sq : Nat) : Reg.hubSqtag.key hub 0 sq ≠ Reg.hubSqstat.key hub 0 sq := by
  simp only [Reg.key, Reg.home, Reg.shared, Reg.place]
  omega

theorem State.tagMask_put_head (s : State) (hub sq v : Nat) :
    (s.put F.hubSqstat_head hub 0 sq v).fld F.hubSqtag_tagMask hub 0 sq = s.fld F.hubSqtag_tagMask hub 0 sq :=
  State.fld_congr (State.word_put_other (f := F.hubSqstat_head) s (Reg.hubSqtag_key_ne_hubSqstat hub sq) v)

/-- A descriptor that was read clean, of an opcode of the job engine and a tag its queue admits, joins the job engine's queue (R381). -/
theorem exec_sqDescriptor_accepted {s : State} {f : Fetched} {rest : List Fetched} (oldest : s.fetched = f :: rest) (clean : f.read = .done)
    (op : dOpcode f.desc = 0x70 ∨ dOpcode f.desc = 0x71 ∨ dOpcode f.desc = 0x72)
    (admitted : bit (s.fld F.hubSqtag_tagMask f.hub 0 f.sq) (dTag f.desc) = true) :
    ∃ u : State, exec .sqDescriptor s = .next u ∧ u.fetched = rest ∧ u.jbe = s.jbe ++ [{ f with head := (f.index + 1) % s.sqSize f.hub f.sq }] ∧
      u.mem = s.mem := by
  have known : (dOpcode f.desc == 0x70 || dOpcode f.desc == 0x71 || dOpcode f.desc == 0x72) = true := by simpa [or_assoc] using op
  have tagged (v : Nat) : bit (({ s with fetched := rest }.put F.hubSqstat_head f.hub 0 f.sq v).fld F.hubSqtag_tagMask f.hub 0 f.sq)
      (dTag f.desc) = true := by
    rw [State.tagMask_put_head]
    exact admitted
  show ∃ u, execSqDescriptor s = .next u ∧ _
  rw [execSqDescriptor, oldest]
  dsimp only
  rw [if_neg (by simp [clean]), if_neg (by simp only [known, tagged]; decide)]
  exact ⟨_, rfl, rfl, rfl, rfl⟩

/-! ## Completion entries -/

section CqEntryWrite
variable {s : State} {hub q : Nat} {e : CqEntry} (hh : isHub hub = true) (hq : q < 16) (waits : s.cqNext hub q = some e)
  (enabled : s.flag F.hubCqcfg_enable hub 0 q = true) (served : s.ringServed hub (s.fld F.hubCqcfg_base hub 0 q) = true)
include hh hq waits enabled served

theorem exec_cqEntryWrite_written (room : s.cqFull hub q = false) :
    exec (.cqEntryWrite hub q) s = .next (if ((s.cqPut hub q e).cqNext hub q).isNone then
      (s.cqPut hub q e).put F.hubCqstat_full hub 0 q 0 else s.cqPut hub q e) := by
  show execCqEntryWrite hub q s = _
  rw [execCqEntryWrite, need_of_true (by simp [hh, hq])]
  simp only [waits]
  exact (need_of_true (by simp [enabled, served])).trans (if_neg (by simp [room]))

theorem exec_cqEntryWrite_held (full : s.cqFull hub q = true) (unheld : s.flag F.hubCqstat_full hub 0 q = false) :
    exec (.cqEntryWrite hub q) s = .next (s.cqHold hub q) := by
  show execCqEntryWrite hub q s = _
  rw [execCqEntryWrite, need_of_true (by simp [hh, hq])]
  simp only [waits]
  exact (need_of_true (by simp [enabled, served])).trans ((if_pos full).trans (need_of_true (by simp [unheld])))

end CqEntryWrite

/-! ## Doorbells -/

section Doorbell
variable {s : State} {hub tag off n : Nat} {data : Option (List Byte)}

theorem exec_sqDoorbell (hh : isHub hub = true) (fits : bar4Fits off n data = true) (low : off < 0x10000) :
    exec (.sqDoorbell hub tag off n data) s = .next (s.bar4 hub tag off n data) :=
  need_of_true (by simp [hh, fits, low])

theorem exec_cqDoorbell (hh : isHub hub = true) (fits : bar4Fits off n data = true) (high : 0x10000 ≤ off) :
    exec (.cqDoorbell hub tag off n data) s = .next (s.bar4 hub tag off n data) :=
  need_of_true (by simp [hh, fits, high])

/-- An aligned write of a whole doorbell wakes the panel and gives its queue the new tail or head (R379, R468). -/
theorem State.bar4_doorbell {bs : List Byte} (up : s.barsUp hub = true) (page : off % 0x1000 = 0) (inside : off < 0x20000)
    (wide : 4 ≤ n) (aligned : off % n = 0) : s.bar4 hub tag off n (some bs) =
      if off / 0x1000 < 16 then (s.wakeEvent 2 (off / 0x1000 + 2048 * (hub - 180))).newTail hub (off / 0x1000) (leNat bs)
      else (s.wakeEvent 2 (off / 0x1000 + 2048 * (hub - 180))).newHead hub (off / 0x1000 - 16) (leNat bs) := by
  have queue : ¬(32 ≤ off / 0x1000 ∨ 8 ≤ off % 0x1000) := by omega
  exact (if_neg (by simp [up])).trans ((if_neg fun misaligned => misaligned aligned).trans ((if_neg queue).trans ((if_neg (Nat.not_lt.2 wide)).trans (if_pos page))))

/-- A misaligned write of BAR4 is refused (R412). -/
theorem State.bar4_misaligned (write : data.isSome = true) (up : s.barsUp hub = true) (misaligned : off % n ≠ 0) :
    s.bar4 hub tag off n data = s.hostRefused hub off .misaligned := by
  obtain ⟨bs, rfl⟩ := Option.isSome_iff_exists.1 write
  exact (if_neg (by simp [up])).trans (if_pos misaligned)

end Doorbell

/-- Settles O33: a doorbell's write is one of BAR4, whose page chooses the queue; a fetch reads panel storage, which leaves what the hub has fetched
(`State.readRange_sansReads`); a descriptor and an entry pass their checks. -/
theorem hostQueuesComplete : Obligations.HostQueuesComplete := by
  refine ⟨fun s hub tag off n data hh fits => ⟨exec_sqDoorbell hh fits, exec_cqDoorbell hh fits, ?doorbells, ?misaligned⟩,
    fun s hub q hh next => exec_sqFetch_fetches hh next,
    fun s f rest oldest clean op admitted => exec_sqDescriptor_accepted oldest clean op admitted,
    fun s hub q e hh hq waits enabled served =>
      ⟨exec_cqEntryWrite_written hh hq waits enabled served, exec_cqEntryWrite_held hh hq waits enabled served⟩⟩
  case doorbells =>
    rintro bs rfl up page inside wide aligned
    refine ⟨fun low => ?tail, fun high => ?head⟩
    case tail => rw [exec_sqDoorbell hh fits low, State.bar4_doorbell up page inside wide aligned, if_pos (by omega)]
    case head => rw [exec_cqDoorbell hh fits high, State.bar4_doorbell up page inside wide aligned, if_neg (by omega)]
  case misaligned =>
    intro write up misaligned low
    rw [exec_sqDoorbell hh fits low, State.bar4_misaligned write up misaligned]

end Sys2Proof.Machine

namespace Sys2Proof.Machine

/-! ## The queue, and a step with no command waiting -/

/-- Settles O1: taking the front command is the first branch of a step. -/
theorem stepRunsTheFrontCommand : Obligations.StepRunsTheFrontCommand := by
  intro s c rest front
  rw [step, front]

/-- No router holds a packet (R46, R56). -/
def RoutersEmpty (m : Sparse Router) : Prop := ∀ e ∈ m, e.2.inputs = [] ∧ e.2.reservoir = []

theorem Sparse.mem_set {α : Type} {m : Sparse α} {k : Nat} {v : α} {e : Nat × α} (h : e ∈ Sparse.set m k v) : e = (k, v) ∨ e ∈ m := by
  induction m with
  | nil => exact .inl (List.mem_singleton.1 h)
  | cons x rest ih =>
    obtain ⟨j, w⟩ := x
    rw [Sparse.set] at h
    split at h
    · exact List.mem_cons.1 h
    split at h
    · exact (List.mem_cons.1 h).imp_right (List.mem_cons_of_mem _)
    · exact (List.mem_cons.1 h).elim (fun here => .inr (here ▸ List.mem_cons_self)) fun below => (ih below).imp_right (List.mem_cons_of_mem _)

theorem Sparse.get_cases {α : Type} (d : α) (m : Sparse α) (k : Nat) : Sparse.get d m k = d ∨ (k, Sparse.get d m k) ∈ m := by
  induction m with
  | nil => exact .inl rfl
  | cons x rest ih =>
    obtain ⟨j, w⟩ := x
    rw [Sparse.get, Sparse.find?]
    split
    · next same => exact .inr (same ▸ List.mem_cons_self)
    · exact ih.imp_right (List.mem_cons_of_mem _)

/-- Changing a router's clock puts no packet into it. -/
theorem RoutersEmpty.upd {m : Sparse Router} (h : RoutersEmpty m) (n : Nat) {f : Router → Router}
    (hf : ∀ r, (f r).inputs = r.inputs ∧ (f r).reservoir = r.reservoir) : RoutersEmpty (Sparse.upd {} m n f) := by
  intro e he
  obtain rfl | old := Sparse.mem_set he
  · obtain ⟨inputs, reservoir⟩ := hf (Sparse.get {} m n)
    have none : (Sparse.get ({} : Router) m n).inputs = [] ∧ (Sparse.get ({} : Router) m n).reservoir = [] :=
      (Sparse.get_cases {} m n).elim (fun fresh => by rw [fresh]; exact ⟨rfl, rfl⟩) fun listed => h _ listed
    exact ⟨inputs.trans none.1, reservoir.trans none.2⟩
  · exact h e old

/-- A fabric cycle with no packet in any router: time passes and the lanes' acknowledgements come in, nothing else (R64). -/
theorem State.fabricCycle_of_empty {s : State} (h : RoutersEmpty s.routers) :
    ∃ lanes, s.fabricCycle = { s with fabricTime := s.fabricTime + 2, lanes := lanes } := by
  have empty : s.routers.all (fun e => e.2.inputs.isEmpty && e.2.reservoir.isEmpty) = true :=
    List.all_eq_true.2 fun e he => by simp [h e he]
  unfold State.fabricCycle
  simp only [empty, if_true]
  split
  · exact ⟨s.lanes, rfl⟩
  · exact ⟨_, rfl⟩

/-- With no command waiting for its turn at a drove engine, none goes on (R217). -/
theorem State.takeTurns_of_none {s : State} (h : ∀ q c, (s.queue q).cur = some c → c.wait ≠ .turn) : s.takeTurns = s := by
  unfold State.takeTurns
  rw [List.filter_eq_nil_iff.2 fun q _ => ?_]
  · rfl
  · split
    · next c cur => simpa using h q c cur
    · decide

/-- With no block holding weights, none releases any (R250). -/
theorem State.settleWeights_of_none {s : State} (h : ∀ e ∈ s.blocks, e.2.west.feeds = [] ∧ e.2.east.feeds = []) : s.settleWeights = s := by
  unfold State.settleWeights
  refine List.foldlRecOn (motive := fun t : State => t = s) _ _ rfl fun t ht e he => ?_
  obtain ⟨west, east⟩ := h e he
  simpa [west, east] using ht

/-- A fabric cycle in which nothing moves on its own. -/
theorem State.cycle_of_idle {s : State} (empty : RoutersEmpty s.routers) (turns : ∀ q c, (s.queue q).cur = some c → c.wait ≠ .turn)
    (weights : ∀ e ∈ s.blocks, e.2.west.feeds = [] ∧ e.2.east.feeds = []) :
    ∃ lanes, s.fabricCycle.takeTurns.settleWeights = { s with fabricTime := s.fabricTime + 2, lanes := lanes } := by
  obtain ⟨lanes, cycle⟩ := State.fabricCycle_of_empty empty
  rw [cycle, State.takeTurns_of_none (s := { s with fabricTime := s.fabricTime + 2, lanes := lanes }) turns]
  exact ⟨lanes, State.settleWeights_of_none weights⟩

/-- A quiet panel's fabric cycle: panel time takes one to three units, the fabric's clocks and the master's rate correction go on, PTP 1PPS may rise
(R434-R437). -/
theorem State.tick_of_quiet {s : State} (quiet : s.quiet) : ∃ d routers lanes plant outbox, 1 ≤ d ∧ d ≤ 3 ∧ s.tick =
    { s with now := (s.now + d) % 2 ^ 64, fabricTime := s.fabricTime + 2, routers := routers, lanes := lanes, plant := plant, outbox := outbox } := by
  unfold State.tick
  extract_lets acc
  generalize pace : (if 1000000000 ≤ acc then ((3 : Nat), acc - 1000000000) else if acc ≤ -1000000000 then (1, acc + 1000000000) else (2, acc)) = rate
  have steps : 1 ≤ rate.1 ∧ rate.1 ≤ 3 := by
    rw [← pace]
    split
    · simp
    · split <;> simp
  obtain ⟨d, rest⟩ := rate
  dsimp -zeta only at steps ⊢
  extract_lets t fix slip one others out clocked
  have clocks (r : Router) : (one r).inputs = r.inputs ∧ (one r).reservoir = r.reservoir := ⟨rfl, rfl⟩
  have empty : RoutersEmpty others := by
    simp only [others]
    split
    · exact quiet.routers
    · refine List.foldlRecOn (motive := RoutersEmpty) _ _ quiet.routers fun m hm n _ => ?_
      split
      · exact hm
      split
      · exact hm
      · exact hm.upd n clocks
  clear_value others out
  obtain ⟨lanes, cycle⟩ := State.cycle_of_idle (s := { s with now := t, routers := others, plant := { s.plant with steer := rest } })
    empty quiet.turns quiet.weights
  refine ⟨d, others, lanes, { s.plant with steer := rest }, if out then s.outbox ++ [.ppsOut s.master] else s.outbox, steps.1, steps.2, ?_⟩
  cases out
  · exact cycle
  · exact congrArg (fun u : State => u.say (.ppsOut u.master)) cycle

/-- Settles O2: of a quiet panel's fabric cycle every part named here is a field that `State.tick_of_quiet` leaves alone. -/
theorem idleStepPassesTime : Obligations.IdleStepPassesTime := by
  refine ⟨fun s idle => by rw [step, idle], fun s quiet => ?_⟩
  obtain ⟨d, routers, lanes, plant, outbox, low, high, tick⟩ := State.tick_of_quiet quiet
  rw [tick]
  refine ⟨fun room => ?_, rfl, fun _ => rfl, rfl, rfl, rfl, rfl, rfl⟩
  show s.now < (s.now + d) % 2 ^ 64
  omega

end Sys2Proof.Machine

namespace Sys2Proof.Machine

/-! ## Granted writes that ask for something -/

/-- Whether a number is written by a writer does not depend on the word that the register takes: only the debug window asks for the panel's state, and its
registers hold no number (R542). -/
theorem State.writesNumber_storeWrite (s : State) (w : RegWr) : (s.storeWrite w).writesNumber w = s.writesNumber w := by
  unfold State.writesNumber
  by_cases num : w.r.numeric = true
  · have same (f : Field) : (w.covers f && f.type == .wo && (s.storeWrite w).isWriter w f) = (w.covers f && f.type == .wo && s.isWriter w f) := by
      by_cases named : f.reg = w.r
      · have window : (f.reg != .dbgAcc && f.reg != .dbgAccData) = true := by
          rw [named]
          generalize w.r = r at num
          rw [Bool.and_eq_true, bne_iff_ne, bne_iff_ne]
          exact ⟨by rintro rfl; simp [Reg.numeric] at num, by rintro rfl; simp [Reg.numeric] at num⟩
        simp only [State.isWriter, window, Bool.or_true, Bool.true_or]
      · simp only [RegWr.covers, beq_false_of_ne named, Bool.false_and]
    simp only [same]
  · simp [num]

/-- A write row whose register is not RTR_FLIP_AT stores its word and has its effect. -/
theorem Takes.runs {s : State} {a : RegAccess} {w : RegWr} {fs : List Field} (h : Takes s a w fs) (hr : w.r ≠ .rtrFlipAt) :
    Sys2Proof.Machine.fieldRow fs a s = .next ((s.storeWrite w).afterWrite w) := by
  rw [h.fieldRow, State.applyWrite_eq hr]

/-- A row whose write has an effect that is known comes to it. -/
theorem Takes.does {s u : State} {a : RegAccess} {w : RegWr} {fs : List Field} (h : Takes s a w fs) (hr : w.r ≠ .rtrFlipAt)
    (effect : (s.storeWrite w).afterWrite w = u) : Sys2Proof.Machine.fieldRow fs a s = .next u := by
  rw [h.runs hr, effect]

/-- A field that a write asks by, of a register whose bytes act as written (R398, R405, R453). -/
def Field.asking (f : Field) : Bool :=
  f.type == .wo && !f.reg.numeric && f.reg != .hubBudget && f.reg != .dutyMode && f.reg != .unitCtrl

/-- The write of a row of one asking field asks. -/
theorem Takes.asks {s : State} {a : RegAccess} {w : RegWr} {f : Field} (h : Takes s a w [f]) (asking : f.asking = true) :
    (bits w.raw f.lo f.width != 0) = true := by
  obtain ⟨g, hg, hr, asked⟩ := h.field
  obtain rfl := List.mem_singleton.1 hg
  simp only [Field.asking, Bool.and_eq_true, beq_iff_eq, Bool.not_eq_true', bne_iff_ne] at asking
  obtain ⟨⟨⟨⟨wo, num⟩, budget⟩, duty⟩, ctrl⟩ := asking
  rw [hr] at num budget duty ctrl
  exact bne_iff_ne.2 (asked wo num budget duty ctrl)

/-- The register of a row of several fields of one register. -/
theorem Takes.reg_of_all {s : State} {a : RegAccess} {w : RegWr} {fs : List Field} (h : Takes s a w fs) {r : Reg} (all : ∀ f ∈ fs, f.reg = r) : w.r = r := by
  obtain ⟨f, hf, hr, -⟩ := h.field
  exact hr.symm.trans (all f hf)

theorem bits_lor (a b lo n : Nat) : bits (Nat.lor a b) lo n = Nat.lor (bits a lo n) (bits b lo n) := by
  show (a ||| b) / 2 ^ lo % 2 ^ n = (a / 2 ^ lo % 2 ^ n) ||| (b / 2 ^ lo % 2 ^ n)
  rw [← Nat.shiftRight_eq_div_pow, ← Nat.shiftRight_eq_div_pow, ← Nat.shiftRight_eq_div_pow, Nat.shiftRight_or_distrib, Nat.or_mod_two_pow]

/-- Of the word that HUB_BOOTCTL acts on, the bits above FORCE_FULL are as written (R527). -/
theorem bootctl_asked (new raw : Nat) {k : Nat} (low : 1 ≤ k) (high : k < 4) :
    wordField (BitVec.ofNat 64 (Nat.lor (bits new 0 1) (bits raw 0 4))) k 1 = bits raw k 1 := by
  have none : bits (bits new 0 1) k 1 = 0 := by
    have small : bits new 0 1 < 2 ^ k := Nat.lt_of_lt_of_le (bits_lt new 0 1) (Nat.pow_le_pow_right (by decide) low)
    rw [bits, Nat.div_eq_of_lt small, Nat.zero_mod]
  have within : bits (bits raw 0 4) k 1 = bits raw k 1 := by
    simp only [bits, Nat.pow_zero, Nat.div_one]
    interval_cases k <;> omega
  rw [wordField, bits_toNat_ofNat _ (by omega), bits_lor, none, within]
  exact Nat.zero_or _

theorem bits_one (v i : Nat) : (bits v i 1 = 1) = (bit v i = true) := by simp [bits, bit]

/-- HUB_BOOTCTL's effect: PANEL_RESET goes before COMPUTE_RESET, and that before UPDATE (R522, R524, R526-R527). -/
theorem State.afterWrite_bootctl {u : State} {w : RegWr} (hr : w.r = .hubBootctl) :
    (w.asks F.hubBootctl_panelReset → u.afterWrite w = u.onForceFull.flushAndReset false) ∧
    (¬ w.asks F.hubBootctl_panelReset → u.afterWrite w =
      if bit w.raw 3 then (if bit w.raw 1 then u.onForceFull.computeReset else u.onForceFull).onUpdate
      else if bit w.raw 1 then u.onForceFull.computeReset else u.onForceFull) := by
  have effect : u.afterWrite w = u.onBootctl (BitVec.ofNat 64 (Nat.lor (bits w.new 0 1) (bits w.raw 0 4))) := by
    simp only [State.afterWrite, hr]
  have small : bits w.raw 2 1 < 2 := bits_lt ..
  rw [effect, State.onBootctl]
  simp only [bootctl_asked, show 1 ≤ 2 from by decide, show 2 < 4 from by decide, show 1 ≤ 1 from by decide, show 1 < 4 from by decide,
    show 1 ≤ 3 from by decide, show 3 < 4 from by decide, RegWr.asks, F.hubBootctl_panelReset]
  refine ⟨fun asked => if_pos (by omega), fun unasked => ?_⟩
  rw [if_neg (by omega)]
  simp only [bits_one]

/-- A write of UNIT_CTRL has the effect of R398, whichever of its fields the row names. -/
theorem Takes.unitCtrl {s : State} {a : RegAccess} {w : RegWr} {f : Field} (h : Takes s a w [f]) (hf : f.reg = .unitCtrl) :
    Sys2Proof.Machine.fieldRow [f] a s = .next ((s.storeWrite w).onUnitCtrl w.node w.page (BitVec.ofNat 64 w.old)
      (BitVec.ofNat 64 (putBits w.new 1 1 (bits w.raw 1 1)))) := by
  have hr : w.r = .unitCtrl := h.reg.trans hf
  exact h.does (by simp [hr]) (by simp only [State.afterWrite, hr])

/-- A write of HUB_BOOTCTL has its effect, whichever of its fields the row names. -/
theorem Takes.bootctl {s : State} {a : RegAccess} {w : RegWr} {f : Field} (h : Takes s a w [f]) (hf : f.reg = .hubBootctl) :
    (w.asks F.hubBootctl_panelReset → Sys2Proof.Machine.fieldRow [f] a s = .next ((s.storeWrite w).onForceFull.flushAndReset false)) ∧
    (¬ w.asks F.hubBootctl_panelReset →
      let v := if bit w.raw 1 then (s.storeWrite w).onForceFull.computeReset else (s.storeWrite w).onForceFull
      Sys2Proof.Machine.fieldRow [f] a s = .next (if bit w.raw 3 then v.onUpdate else v)) := by
  have hr : w.r = .hubBootctl := h.reg.trans hf
  obtain ⟨reset, other⟩ := (s.storeWrite w).afterWrite_bootctl hr
  exact ⟨fun asked => h.does (by simp [hr]) (reset asked), fun unasked => h.does (by simp [hr]) (other unasked)⟩

/-- The baseline that the write of REBASE itself leaves is a free value (R473). -/
def State.freeBaseline (u : State) (node : Nat) : State := u.draw.2.setBaseline node ((Config.freeWord u.draw.1).toNat % 65536)

/-- REBASE: the measurement takes the place of the free baseline (R473). -/
theorem exec_rebase {s : State} {a : RegAccess} {w : RegWr} (h : Takes s a w [F.pwrContact_rebase]) (r : Nat) :
    exec (.rebase a r) s = .next (((s.storeWrite w).freeBaseline w.node).setBaseline w.node r) := by
  have hr : w.r = .pwrContact := h.reg
  obtain ⟨-, -, -, node, -⟩ := h.grants.names_kept
  have written : s.accessWrite a = (some .done, (s.storeWrite w).freeBaseline w.node) := by
    rw [h.grants.accessWrite, State.applyWrite_eq (by simp [hr])]
    simp only [State.afterWrite, hr, h.asks (by decide), if_true]
    rfl
  show execRebase a r s = _
  rw [execRebase, need_of_true h.reaches, written, ← node]
  rfl

/-- Settles O40: each row stores its word and has the effect of its register (`Takes.does`), for which the write asks (`Takes.asks`). -/
theorem requestWrites : Obligations.RequestWrites := by
  intro s a w u raw
  have number : s.writesNumber w = true → u.writesNumber w = true := fun h => (s.writesNumber_storeWrite w).trans h
  refine ⟨?unit, fun h => ?inject, fun h => ?lock, fun h num => ?assist, fun h num => ?rate, fun h num => ?share, fun h num => ?fan, fun h num => ?head,
    ?boot, fun h => ?resume, fun h noResume => ?step, fun h => ?freeze, fun h noFreeze => ?thaw, fun h => ?debug, fun h => ?access,
    fun abort h active => ?standby, fun r h => ?rebase⟩
  case unit =>
    intro f row hf h
    simp only [List.mem_cons, Prod.mk.injEq, List.not_mem_nil, or_false] at hf
    obtain ⟨rfl, rfl⟩ | ⟨rfl, rfl⟩ | ⟨rfl, rfl⟩ := hf <;> exact h.unitCtrl rfl
  case inject =>
    have hr : w.r = .errInject := h.reg
    exact h.does (by simp [hr]) (by simp only [State.afterWrite, hr, h.asks (by decide), if_true, u])
  case lock =>
    have hr : w.r = .lock := h.reg
    exact h.does (by simp [hr]) (by simp only [State.afterWrite, hr, u])
  case assist =>
    have hr : w.r = .hubAssistReply := h.reg_of_all (by decide)
    exact h.does (by simp [hr]) (by simp only [State.afterWrite, hr, number num, if_true, u])
  case rate =>
    have hr : w.r = .timRate := h.reg
    exact h.does (by simp [hr]) (by simp only [State.afterWrite, hr, number num, if_true, u, raw])
  case share =>
    have hr : w.r = .pwrLimit := h.reg
    exact h.does (by simp [hr]) (by simp only [State.afterWrite, hr, number num, if_true, u, raw])
  case fan =>
    have hr : w.r = .hubFcHost := h.reg_of_all (by decide)
    exact h.does (by simp [hr]) (by simp only [State.afterWrite, hr, number num, if_true, u, raw])
  case head =>
    have hr : w.r = .logHringHead := h.reg
    exact h.does (by simp [hr]) (by simp only [State.afterWrite, hr, number num, if_true, u])
  case boot =>
    intro f row hf h
    simp only [List.mem_cons, Prod.mk.injEq, List.not_mem_nil, or_false] at hf
    obtain ⟨rfl, rfl⟩ | ⟨rfl, rfl⟩ | ⟨rfl, rfl⟩ | ⟨rfl, rfl⟩ := hf <;> exact h.bootctl rfl
  case resume =>
    have hr : w.r = .dbgBrk := h.reg
    exact h.does (by simp [hr]) (by simp only [State.afterWrite, hr, h.asks (by decide), if_true, u])
  case step =>
    have hr : w.r = .dbgBrk := h.reg
    have unasked : (bits w.raw F.dbgBrk_resume.lo F.dbgBrk_resume.width != 0) = false := by simpa [RegWr.asks] using noResume
    exact h.does (by simp [hr]) (by simp only [State.afterWrite, hr, h.asks (by decide), unasked, if_true, Bool.false_eq_true, if_false, u])
  case freeze =>
    have hr : w.r = .dbgFreeze := h.reg
    exact h.does (by simp [hr]) (by simp only [State.afterWrite, hr, h.asks (by decide), if_true, u])
  case thaw =>
    have hr : w.r = .dbgFreeze := h.reg
    have unasked : (bits w.raw F.dbgFreeze_freeze.lo F.dbgFreeze_freeze.width != 0) = false := by simpa [RegWr.asks] using noFreeze
    exact h.does (by simp [hr]) (by simp only [State.afterWrite, hr, h.asks (by decide), unasked, if_true, Bool.false_eq_true, if_false, u])
  case debug =>
    have hr : w.r = .dbgMode := h.reg
    refine ⟨fun on => h.does (by simp [hr]) (by simp [State.afterWrite, hr, on, u]), fun off => h.does (by simp [hr]) ?_⟩
    have cleared : bits w.new 0 1 = 0 := by simpa [bit, bits] using off
    have changed : (bits w.new F.dbgMode_debug.lo F.dbgMode_debug.width != bits w.old F.dbgMode_debug.lo F.dbgMode_debug.width) = bit w.old 0 := by
      show (bits w.new 0 1 != bits w.old 0 1) = _
      rw [cleared]
      simp only [bit, bits, Nat.pow_zero, Nat.pow_one, Nat.div_one]
      rcases Nat.mod_two_eq_zero_or_one w.old with even | odd
      · rw [even]; rfl
      · rw [odd]; rfl
    simp only [State.afterWrite, hr, changed, off, Bool.not_false, Bool.and_true, u]
  case access =>
    have hr : w.r = .dbgAcc := h.reg
    exact h.does (by simp [hr]) (by simp only [State.afterWrite, hr, h.asks (by decide), if_true, u])
  case standby =>
    show execStandbyReq a abort s = _
    rw [execStandbyReq, need_of_true h.reaches]
    simp only [h.grants.accessWrite, if_true, active]
  case rebase =>
    obtain ⟨-, mem, queues, blocks, -⟩ := s.storeWrite_eq w
    refine ⟨_, exec_rebase h r, (State.fld_put_same (f := F.pwrContact_baseline) _ (by decide) w.node 0 0 _).trans ?_, mem, blocks, queues⟩
    exact Nat.mod_eq_of_lt (Nat.lt_succ_of_le (Nat.min_le_right ..))

end Sys2Proof.Machine

namespace Sys2Proof.Machine

/-! ## The vendor commands of management -/

section
variable {s : State} {cmd waiting len : Nat} {payload : List Byte} {valid : Bool} {f : State → State}

/-- With four requests waiting a fifth is answered BUSY (R416). -/
theorem State.vendor_busy (alive : s.plant.bothLost = false) (full : 4 ≤ waiting) :
    s.vendor cmd waiting len payload valid f = .next (s.vendorSay cmd [5]) := by
  simp only [State.vendor, alive, Bool.false_eq_true, if_false, if_pos full]

/-- Before bring-up step 4 has ended a request is answered NOT_READY (R416). -/
theorem State.vendor_notReady (alive : s.plant.bothLost = false) (room : waiting < 4) (early : s.fld F.hubBoot_step 180 ≤ 4) :
    s.vendor cmd waiting len payload valid f = .next (s.vendorSay cmd [4]) := by
  simp only [State.vendor, alive, Bool.false_eq_true, if_false, if_neg (Nat.not_le.2 room), if_pos early]

variable (alive : s.plant.bothLost = false) (room : waiting < 4) (booted : 4 < s.fld F.hubBoot_step 180)
include alive room booted

/-- A payload of another length is answered INVALID_LENGTH (R416). -/
theorem State.vendor_invalidLength (length : payload.length ≠ len) : s.vendor cmd waiting len payload valid f = .next (s.vendorSay cmd [3]) := by
  simp only [State.vendor, alive, Bool.false_eq_true, if_false, if_neg (Nat.not_le.2 room), if_neg (Nat.not_le.2 booted), if_pos length]

/-- A request of the command's length with valid data is served (R416). -/
theorem State.vendor_serves (length : payload.length = len) (sound : valid = true) : s.vendor cmd waiting len payload valid f = .next (f s) := by
  simp only [State.vendor, alive, Bool.false_eq_true, if_false, if_neg (Nat.not_le.2 room), if_neg (Nat.not_le.2 booted), length, sound, ne_eq,
    not_true_eq_false, Bool.not_true]
end

/-- The widths that a register access of management may have (R416). -/
theorem width_valid {n : Nat} (h : n = 4 ∨ n = 8) : (n == 4 || n == 8) = true := by simpa using h

/-- An access that completed is answered SUCCESS with its bytes (R416). -/
theorem State.accessBody_done {u : State} {a : RegAccess} {x : Option Status} (h : x = some .done) (more : List Nat) :
    u.accessBody a (x.getD .timeout) ++ (if x.getD .timeout = .done then more else []) = [0] ++ more := by
  simp only [h, Option.getD_some, State.accessBody, if_true]

/-- An access that did not complete, or that never answered, is answered with its status alone (R416). -/
theorem State.accessBody_refused {u : State} {a : RegAccess} {x : Option Status} (h : x ≠ some .done) (more : List Nat) :
    u.accessBody a (x.getD .timeout) ++ (if x.getD .timeout = .done then more else []) = u.accessBody a (x.getD .timeout) := by
  have other : x.getD .timeout ≠ .done := by
    cases x with
    | none => simp
    | some st => exact fun same => h (congrArg some same)
  rw [if_neg other, List.append_nil]

/-- Each vendor command is a request of its own command and length (R416). -/
theorem exec_vendor (s : State) (payload : List Byte) (waiting : Nat) :
    ∀ row ∈ ([(.mctpRegRead, 1, 9), (.mctpRegWrite, 2, 17), (.getState, 3, 0), (.setBudget, 4, 2), (.getEnergy, 5, 1), (.logRead, 6, 5),
        (.mctpAssistReply, 7, 8)] : List ((List Byte → Nat → Instr) × Nat × Nat)),
      ∃ valid f, exec (row.1 payload waiting) s = s.vendor row.2.1 waiting row.2.2 payload valid f := by
  intro row named
  simp only [List.mem_cons, List.not_mem_nil, or_false] at named
  obtain rfl | rfl | rfl | rfl | rfl | rfl | rfl := named
  · exact ⟨_, _, execMctpRegRead.eq_1 payload waiting s⟩
  · exact ⟨_, _, execMctpRegWrite.eq_1 payload waiting s⟩
  · exact ⟨_, _, execGetState.eq_1 payload waiting s⟩
  · exact ⟨_, _, execSetBudget.eq_1 payload waiting s⟩
  · exact ⟨_, _, execGetEnergy.eq_1 payload waiting s⟩
  · exact ⟨_, _, execLogRead.eq_1 payload waiting s⟩
  · exact ⟨_, _, execMctpAssistReply.eq_1 payload waiting s⟩

/-- Settles O45: each row is `State.vendor` at its command and length, which answers by the first condition that holds and else serves the command. -/
theorem vendorCommands : Obligations.VendorCommands := by
  intro s payload waiting alive
  refine ⟨fun row named => ?_, fun room booted => ?_⟩
  · obtain ⟨valid, f, runs⟩ := exec_vendor s payload waiting row named
    rw [runs]
    exact ⟨State.vendor_busy alive, State.vendor_notReady alive, State.vendor_invalidLength alive⟩
  refine ⟨?read, ?write, fun length => ?state, fun length => ?budget, fun length known => ?energy, fun length low high => ?log, fun length => ?assist⟩
  case read =>
    intro a length width address
    show (_ → execMctpRegRead payload waiting s = _) ∧ (_ → execMctpRegRead payload waiting s = _)
    simp only [execMctpRegRead, address, State.vendor_serves alive room booted length (width_valid width)]
    exact ⟨fun done => by rw [State.accessBody_done done], fun refused => by rw [State.accessBody_refused refused]⟩
  case write =>
    intro a length width address
    show execMctpRegWrite payload waiting s = _
    simp only [execMctpRegWrite, address, State.vendor_serves alive room booted length (width_valid width)]
  case state =>
    show execGetState payload waiting s = _
    rw [execGetState, State.vendor_serves alive room booted length rfl]
  case budget =>
    show (_ → execSetBudget payload waiting s = _) ∧ (_ → execSetBudget payload waiting s = _)
    rw [execSetBudget, State.vendor_serves alive room booted length rfl]
    dsimp only
    exact ⟨fun done => by rw [State.accessBody_done done], fun refused => by rw [State.accessBody_refused refused]⟩
  case energy =>
    show execGetEnergy payload waiting s = _
    rw [execGetEnergy, State.vendor_serves alive room booted length (decide_eq_true known)]
  case log =>
    have valid : (decide (1 ≤ leNat (payload.drop 4)) && decide (leNat (payload.drop 4) ≤ 30)) = true := by simp [low, high]
    have served : exec (.logRead payload waiting) s = _ := (execLogRead.eq_1 payload waiting s).trans (State.vendor_serves alive room booted length valid)
    refine ⟨_, served, List.length_take_le .., fun e listed => ?_⟩
    obtain ⟨held, first⟩ := List.mem_filter.1 (List.mem_of_mem_take listed)
    exact ⟨of_decide_eq_true first, (List.mem_append.1 held).symm.imp_right fun old => (List.mem_filter.1 old).1⟩
  case assist =>
    show execMctpAssistReply payload waiting s = _
    rw [execMctpAssistReply, State.vendor_serves alive room booted length rfl]

end Sys2Proof.Machine

namespace Sys2Proof.Machine

/-! ## Management messages -/

/-- What answering a management message leaves as it is: memory, the queues and the blocks. -/
def State.SameWork (s u : State) : Prop := u.mem = s.mem ∧ u.queues = s.queues ∧ u.blocks = s.blocks

theorem State.SameWork.refl (s : State) : s.SameWork s := ⟨rfl, rfl, rfl⟩

theorem State.SameWork.of_openBytes (s : State) (n : Nat) : s.SameWork (s.openBytes n).2 := .refl s

/-- PLDM type 0 draws bytes that the spec leaves open, nothing more (R417). -/
theorem State.pldmBase_sameWork (s : State) (cmd : Nat) (payload : List Byte) : s.SameWork (s.pldmBase cmd payload).2 := by
  unfold State.pldmBase
  extract_lets arg
  split
  · exact .of_openBytes s 1
  · split
    · exact .of_openBytes s 8
    · exact .refl s
  · exact .refl s
  · split <;> exact .refl s
  · exact .refl s

/-- PLDM type 2 sets the event receiver or draws bytes that the spec leaves open (R417). -/
theorem State.pldmPlatform_sameWork (s : State) (cmd : Nat) (payload : List Byte) : s.SameWork (s.pldmPlatform cmd payload).2 := by
  unfold State.pldmPlatform
  extract_lets arg k
  split
  · exact .refl s
  · split <;> exact .refl s
  · split <;> exact .refl s
  · exact .of_openBytes s 34
  · split
    · exact .refl s
    · exact .of_openBytes s 64
  · exact .refl s

/-- Every MCTP control message is answered (R415). -/
theorem exec_mctpControl_answers {s : State} (alive : s.plant.bothLost = false) (inst cmd : Nat) (payload : List Byte) :
    ∃ (u : State) (body : List Nat), exec (.mctpControl inst cmd payload) s = .next (u.controlSay inst cmd body) ∧ s.SameWork u := by
  have same (n : Nat) := State.SameWork.of_openBytes s n
  show ∃ u body, execMctpControl inst cmd payload s = _ ∧ _
  unfold execMctpControl
  extract_lets arg say
  rw [if_neg (by simp [alive])]
  split
  · split
    · exact ⟨s, _, rfl, .refl s⟩
    split
    · exact ⟨s, _, rfl, .refl s⟩
    · exact ⟨_, _, rfl, .refl s⟩
  · split <;> exact ⟨s, _, rfl, .refl s⟩
  · split
    · exact ⟨s, _, rfl, .refl s⟩
    · exact ⟨_, _, rfl, same 16⟩
  · split
    · exact ⟨s, _, rfl, .refl s⟩
    split
    · exact ⟨s, _, rfl, .refl s⟩
    split
    · exact ⟨_, _, rfl, same 4⟩
    · exact ⟨s, _, rfl, .refl s⟩
  · split <;> exact ⟨s, _, rfl, .refl s⟩
  · split
    · exact ⟨s, _, rfl, .refl s⟩
    split
    · exact ⟨s, _, rfl, .refl s⟩
    · exact ⟨_, _, rfl, same 2⟩
  · exact ⟨s, _, rfl, .refl s⟩

/-- Every PLDM message is answered (R417). -/
theorem exec_pldmRequest_answers {s : State} (alive : s.plant.bothLost = false) (inst typ cmd : Nat) (payload : List Byte) :
    ∃ (u : State) (body : List Nat), exec (.pldmRequest inst typ cmd payload) s = .next (u.pldmSay inst typ cmd body) ∧ s.SameWork u := by
  show ∃ u body, execPldmRequest inst typ cmd payload s = _ ∧ _
  rw [execPldmRequest, if_neg (by simp [alive])]
  by_cases base : typ = 0
  · rw [if_pos base]
    exact ⟨_, _, rfl, s.pldmBase_sameWork cmd payload⟩
  rw [if_neg base]
  by_cases platform : typ = 2
  · rw [if_pos platform]
    exact ⟨_, _, rfl, s.pldmPlatform_sameWork cmd payload⟩
  · rw [if_neg platform]
    exact ⟨s, _, rfl, .refl s⟩

/-- A sensor whose state has changed is noted, and reported where there is a receiver (R417). -/
theorem exec_platformEvent {s : State} {sensor : Nat} (alive : s.plant.bothLost = false) (first : 1 ≤ sensor) (last : sensor ≤ 30)
    (news : s.sensorState sensor ≠ s.lastState sensor) :
    let v := s.modPlant fun p => { p with sensed := Sparse.set p.sensed sensor (s.sensorState sensor) }
    ∃ bytes, exec (.platformEvent sensor) s = .next (if s.plant.receiver.isSome then v.say (.platformEvent bytes) else v) := by
  intro v
  show ∃ bytes, execPlatformEvent sensor s = _
  rw [execPlatformEvent, need_of_true (by simp [first, last]), need_of_true (by simp [alive, news])]
  exact ⟨_, rfl⟩

/-- Settles O46: the endpoint ID's messages by evaluation, the others by the answer each branch gives, and the address by its field, which is put below its
valid bit. -/
theorem managementMessages : Obligations.ManagementMessages := by
  refine ⟨fun s alive => ⟨fun inst eid low high => ?setEid, fun inst => ?getEid, fun inst cmd payload => exec_mctpControl_answers alive inst cmd payload,
    fun inst typ cmd payload => exec_pldmRequest_answers alive inst typ cmd payload, fun sensor first last news => ?event⟩, fun s addr short => ?address⟩
  case setEid =>
    have byte : (BitVec.ofNat 8 eid).toNat = eid := by simp; omega
    show execMctpControl inst 1 [0, BitVec.ofNat 8 eid] s = _
    simp only [execMctpControl, alive, Bool.false_eq_true, if_false, List.length_cons, List.length_nil, List.getD_cons_zero, List.getD_cons_succ, byte]
    rw [if_neg (by decide), if_neg (by simp; omega)]
  case getEid =>
    show execMctpControl inst 2 [] s = _
    simp only [execMctpControl, alive, Bool.false_eq_true, if_false]
    rfl
  case event =>
    obtain ⟨bytes, runs⟩ := exec_platformEvent alive first last news
    refine ⟨_, runs, ?_⟩
    split
    · next told => exact ⟨rfl, rfl, rfl, fun none => by simp [none] at told⟩
    · exact ⟨rfl, rfl, rfl, fun _ => rfl⟩
  case address =>
    refine ⟨_, need_of_true (decide_eq_true short), ?_, ?_, rfl, fun k other => ?_⟩
    · calc ((s.put F.hubMgmt_dynAddr 180 0 0 addr).put F.hubMgmt_dynValid 180 0 0 1).fld F.hubMgmt_dynAddr 180
          = (s.put F.hubMgmt_dynAddr 180 0 0 addr).fld F.hubMgmt_dynAddr 180 :=
          State.fld_put_below (f := F.hubMgmt_dynValid) (g := F.hubMgmt_dynAddr) _ rfl (by decide) (by decide) ..
        _ = addr % 128 := State.fld_put_same _ (by decide) ..
        _ = addr := Nat.mod_eq_of_lt short
    · rw [State.flag, State.fld_put_same _ (by decide)]
      rfl
    · exact (Sparse.find?_set_other _ _ _ other).trans (Sparse.find?_set_other _ _ _ other)

end Sys2Proof.Machine

namespace Sys2Proof.Machine

/-! ## Idle, Nap and Standby -/

/-- Settles O49: each row's guards are the statement's conditions. -/
theorem idleAndNap : Obligations.IdleAndNap := by
  refine ⟨fun s node region => ⟨fun running active steady idle due => ?idleEntry, fun idle => ?idleExit, fun t since idle running enabled free due => ?nap,
    fun asleep notStopped notReset room => ?napExit⟩, fun s => ⟨fun standby => ?wake, rfl, fun set due => ?timer⟩⟩
  case idleEntry =>
    show execRegionIdleEntry node s = _
    rw [execRegionIdleEntry, need_of_true region, need_of_true (by simp [running, active, steady, idle]), need_of_true (decide_eq_true due)]
  case idleExit =>
    show execRegionIdleExit node s = _
    rw [execRegionIdleExit, need_of_true region, need_of_true (by simp [idle])]
  case nap =>
    have asked : (s.fld F.pwrStat_state node == 1 && s.unit node 0 == .running && s.flag F.pwrCtrl_napEn node && s.napFree node) = true := by
      simp [idle, running, enabled, free]
    refine ⟨?_, fun k point => ?_⟩
    · show execNapEntry node none s = _
      simp only [execNapEntry, since]
      rw [need_of_true (by simp [region]), need_of_true asked, need_of_true (decide_eq_true due)]
    · show execNapEntry node (some k) s = _
      simp only [execNapEntry, since]
      rw [need_of_true (by simp [region, point]), need_of_true asked, need_of_true (decide_eq_true due)]
  case napExit =>
    show execNapExit node s = _
    rw [execNapExit, need_of_true region, need_of_true (by simp [asleep, notStopped, notReset]), need_of_true (decide_eq_true room)]
  case wake =>
    show execPanelWake s = _
    rw [execPanelWake, need_of_true (by simp [standby])]
  case timer =>
    show execWakeTimer s = _
    rw [execWakeTimer]
    exact (need_of_true (by simpa using set)).trans (need_of_true (decide_eq_true due))

end Sys2Proof.Machine

namespace Sys2Proof.Machine

/-! ## What an alarm leaves of the panel -/

/-- The panel without what faults are recorded in and without what it has said to the outside: a vector raised, a pin set (R402, R481). -/
def State.sansAlarms (s : State) : State := { s.sansFaults with outbox := [] }

theorem State.sansAlarms_of_sansFaults {s t : State} (h : t.sansFaults = s.sansFaults) : t.sansAlarms = s.sansAlarms := by
  rw [State.sansAlarms, h, State.sansAlarms]

theorem State.mem_of_sansAlarms {s t : State} (h : t.sansAlarms = s.sansAlarms) : t.mem = s.mem :=
  show t.sansAlarms.mem = s.sansAlarms.mem by rw [h]
theorem State.plant_of_sansAlarms {s t : State} (h : t.sansAlarms = s.sansAlarms) : t.plant = s.plant :=
  show t.sansAlarms.plant = s.sansAlarms.plant by rw [h]
theorem State.master_of_sansAlarms {s t : State} (h : t.sansAlarms = s.sansAlarms) : t.master = s.master :=
  show t.sansAlarms.master = s.sansAlarms.master by rw [h]
theorem State.pow_of_sansAlarms {s t : State} (h : t.sansAlarms = s.sansAlarms) (node : Nat) : t.pow node = s.pow node :=
  show t.sansAlarms.pow node = s.sansAlarms.pow node by rw [h]

/-- Steps that each raise an alarm at most do no more together. -/
theorem State.sansAlarms_foldl {α : Type} {f : State → α → State} (h : ∀ s x, (f s x).sansAlarms = s.sansAlarms) (l : List α) (s : State) :
    (l.foldl f s).sansAlarms = s.sansAlarms :=
  List.foldlRecOn (motive := fun t : State => t.sansAlarms = s.sansAlarms) l f rfl fun t ht x _ => (h t x).trans ht

@[simp] theorem State.put_sansAlarms (s : State) (f : Field) (node b i v : Nat) : (s.put f node b i v).sansAlarms = s.sansAlarms := rfl
@[simp] theorem State.bump_sansAlarms (s : State) (f : Field) (node b i k : Nat) : (s.bump f node b i k).sansAlarms = s.sansAlarms := rfl
@[simp] theorem State.alert_sansAlarms (s : State) : s.alert.sansAlarms = s.sansAlarms := rfl
@[simp] theorem State.say_sansAlarms (s : State) (m : OutMsg) : (s.say m).sansAlarms = s.sansAlarms := rfl
@[simp] theorem State.vector_sansAlarms (s : State) (v : Nat) : (s.vector v).sansAlarms = s.sansAlarms := rfl

@[simp] theorem State.errorWith_sansAlarms (s : State) (at' : Site) (kind errBit : Nat) (sev : Severity) (addr detail : Nat) (injected : Bool) :
    (s.errorWith at' kind errBit sev addr detail injected).sansAlarms = s.sansAlarms := by
  have kept : (s.errorWith at' kind errBit sev addr detail injected).sansFaults = s.sansFaults := by
    simp [State.errorWith, apply_ite State.sansFaults]
  exact State.sansAlarms_of_sansFaults kept

@[simp] theorem State.error_sansAlarms (s : State) (at' : Site) (errBit : Nat) (sev : Severity) (addr detail : Nat) :
    (s.error at' errBit sev addr detail).sansAlarms = s.sansAlarms := State.errorWith_sansAlarms ..

/-! ## The log's commits, spills and scrubs -/

/-- The retirement of a log bank is recorded at both hubs and raised (R506-R507). -/
@[simp] theorem State.retireBank_sansAlarms (s : State) (hub bank word : Nat) : (s.retireBank hub bank word).sansAlarms = s.sansAlarms := by
  unfold State.retireBank
  split
  · rfl
  extract_lets s1 gone all s2 s3
  have latched : s2.sansAlarms = s1.sansAlarms := State.sansAlarms_foldl (fun t h => by simp [apply_ite State.sansAlarms]) _ s1
  rw [State.vector_sansAlarms, State.alert_sansAlarms, State.errorWith_sansAlarms, latched]
  rfl

/-- A scrub of the log's store corrects and retires (R506). -/
theorem State.logScrub_sansAlarms (s : State) (bad : List (Nat × Nat × Nat)) (corrected : Nat) :
    (bad.foldl (fun t w => t.retireBank w.1 w.2.1 w.2.2)
      ((List.range corrected).foldl (fun t _ => t.error ⟨t.master, pageOf .log t.master 0, 0x3F, none⟩ 0 .ce 0 0) s)).sansAlarms = s.sansAlarms :=
  (State.sansAlarms_foldl (fun t _ => t.retireBank_sansAlarms ..) _ _).trans (State.sansAlarms_foldl (fun t _ => t.error_sansAlarms ..) _ s)

/-- While the log goes on and is kept on the panel, the oldest report is dropped where there is no room and else committed, after a GAP entry for what was
dropped before it (R502). -/
theorem exec_logReport {s u : State} {e : LogEntry} {rest : List LogEntry} (oldest : s.reports = e :: rest) (alive : s.plant.bothLost = false)
    (hu : u = { s with reports := rest }) (runs : u.log.stopped = false) (kept : u.lg F.logStat_hostRingOnly = 0) :
    ((u.logFree = 0 ∨ (e.isFault = true ∧ e.severity = 0 ∧ u.logFree < 256)) → exec .logReport s = .next ((u.dropEntry e).pins e)) ∧
    (¬ (u.logFree = 0 ∨ (e.isFault = true ∧ e.severity = 0 ∧ u.logFree < 256)) → u.log.droppedLow + u.log.droppedHigh = 0 →
      exec .logReport s = .next ((u.commit e).signals e)) := by
  have same : (u.logFree = 0 ∨ ((e.isFault && e.severity == 0) = true ∧ u.logFree < 256)) ↔
      (u.logFree = 0 ∨ (e.isFault = true ∧ e.severity = 0 ∧ u.logFree < 256)) := by simp [and_assoc]
  have row : exec .logReport s =
      if u.logFree = 0 ∨ ((e.isFault && e.severity == 0) = true ∧ u.logFree < 256) then .next ((u.dropEntry e).pins e)
      else .next (((if 0 < u.log.droppedLow + u.log.droppedHigh then
        { u with log := { u.log with droppedLow := 0, droppedHigh := 0 } }.commit (faultEntry u.now ⟨u.master, pageOf .log u.master 0, 0x3F, none⟩ 13 0 31 0
          (bits u.log.droppedLow 0 32 + 2 ^ 32 * bits u.log.droppedHigh 0 32) false false) else u).commit e).signals e) := by
    show execLogReport s = _
    subst hu
    rw [execLogReport, oldest]
    refine (need_of_true (by rw [alive]; rfl)).trans ((if_neg (by rw [runs]; decide)).trans ((if_neg ?_).trans rfl))
    rw [kept]
    decide
  rw [row]
  exact ⟨fun full => if_pos (same.2 full), fun room none => by rw [if_neg fun full => room (same.1 full), if_neg (by omega)]⟩

/-- Settles O52: the log's rows by their guards, the scrub by what alarms leave of the panel (`State.logScrub_sansAlarms`). -/
theorem logCommitsSpillsAndScrubs : Obligations.LogCommitsSpillsAndScrubs := by
  refine ⟨fun s e rest oldest alive => ⟨fun stopped => ?stopped, fun runs ring => ?report⟩,
    fun s works runs eight hardware => ?spill, fun s bad n banks due => ?scrub, fun s power uncharged due => ?holdup⟩
  case stopped =>
    show execLogReport s = _
    simp only [execLogReport, oldest]
    rw [need_of_true (by rw [alive]; rfl), if_pos stopped]
  case report =>
    obtain ⟨drops, commits⟩ := exec_logReport oldest alive rfl runs ring
    refine ⟨drops, fun free room low high => commits ?_ (by rw [low, high])⟩
    rintro (none | ⟨fault, least, few⟩)
    · exact absurd none (Nat.ne_of_gt free)
    · exact absurd few (Nat.not_lt.2 (room fault least))
  case spill =>
    have some : (!s.unspilled.isEmpty) = true := by
      cases l : s.unspilled with
      | nil => simp [l] at eight
      | cons e rest => rfl
    have asked : (s.flashWorks && !s.unspilled.isEmpty && !s.log.stopped) = true := by rw [works, some, runs]; rfl
    have runs (ok : Bool) : exec (.logSpill ok) s = if ok then .next (s.writeFlash (s.unspilled.take 8))
        else .next (((s.putLg F.logSpill_flashFail 1).error ⟨s.master, pageOf .log s.master 0, 0x3F, none⟩ 12 .de 0 0).alert) := by
      show execLogSpill ok s = _
      rw [execLogSpill]
      exact (need_of_true asked).trans ((need_of_true (by rw [hardware]; rfl)).trans ((need_of_true (by simp [eight])).trans (by rw [hardware]; rfl)))
    exact ⟨runs true, runs false⟩
  case scrub =>
    have kept := State.logScrub_sansAlarms (s.modPlant fun p => { p with scrubAt := s.now }) bad n
    refine ⟨_, (need_of_true banks).trans (need_of_true (decide_eq_true due)), (State.mem_of_sansAlarms kept).trans rfl,
      (congrArg Plant.scrubAt (State.plant_of_sansAlarms kept)).trans rfl, ?_⟩
    rintro rfl rfl
    rfl
  case holdup =>
    refine ⟨_, (need_of_true (by simp [power, uncharged])).trans (need_of_true (decide_eq_true due)), ?_, ?_, rfl⟩
    · have apart : Reg.logStat.key 180 0 0 ≠ Reg.logStat.key 181 0 0 := by decide
      have other := (s.put F.logStat_holdupReady 180 0 0 1).word_put_other (f := F.logStat_holdupReady) (node := 181) (node' := 180) (b := 0) (b' := 0)
        (i := 0) (i' := 0) apart 1
      exact (State.fld_congr (f := F.logStat_holdupReady) other).trans
        (State.fld_put_same (f := F.logStat_holdupReady) s (by decide) 180 0 0 1)
    · exact State.fld_put_same (f := F.logStat_holdupReady) _ (by decide) 181 0 0 1

end Sys2Proof.Machine

namespace Sys2Proof.Machine

/-! ## The master, the tray and the plant -/

/-- The hub that is master (R495), the tray's flash (R447, R511, R526) and the panel's supply, pins and loops (R443-R460): what work on jobs, blocks, queues
and packets leaves alone. -/
def State.fixtures (s : State) : Nat × Tray × Plant := (s.master, s.tray, s.plant)

theorem State.fixtures_of_sansReads {s t : State} (h : t.sansReads = s.sansReads) : t.fixtures = s.fixtures :=
  show t.sansReads.fixtures = s.sansReads.fixtures by rw [h]
theorem State.fixtures_of_sansFaults {s t : State} (h : t.sansFaults = s.sansFaults) : t.fixtures = s.fixtures :=
  show t.sansFaults.fixtures = s.sansFaults.fixtures by rw [h]
theorem State.master_of_fixtures {s t : State} (h : t.fixtures = s.fixtures) : t.master = s.master := congrArg (·.1) h
theorem State.tray_of_fixtures {s t : State} (h : t.fixtures = s.fixtures) : t.tray = s.tray := congrArg (·.2.1) h
theorem State.plant_of_fixtures {s t : State} (h : t.fixtures = s.fixtures) : t.plant = s.plant := congrArg (·.2.2) h

/-- Steps that each leave the fixtures alone leave them alone together. -/
theorem State.fixtures_foldl {α : Type} {f : State → α → State} (h : ∀ s x, (f s x).fixtures = s.fixtures) (l : List α) (s : State) :
    (l.foldl f s).fixtures = s.fixtures :=
  List.foldlRecOn (motive := fun t : State => t.fixtures = s.fixtures) l f rfl fun t ht x _ => (h t x).trans ht

/-! Registers, records and faults (R396-R406). -/

@[simp] theorem State.put_fixtures (s : State) (f : Field) (node b i v : Nat) : (s.put f node b i v).fixtures = s.fixtures := rfl
@[simp] theorem State.bump_fixtures (s : State) (f : Field) (node b i k : Nat) : (s.bump f node b i k).fixtures = s.fixtures := rfl
@[simp] theorem State.setWord_fixtures (s : State) (r : Reg) (node b i : Nat) (w : Word) : (s.setWord r node b i w).fixtures = s.fixtures := rfl
@[simp] theorem State.say_fixtures (s : State) (m : OutMsg) : (s.say m).fixtures = s.fixtures := rfl
@[simp] theorem State.event_fixtures (s : State) (at' : Site) (cls code addr arg st eng queue : Nat) :
    (s.event at' cls code addr arg st eng queue).fixtures = s.fixtures := State.fixtures_of_sansFaults (State.event_sansFaults ..)
@[simp] theorem State.error_fixtures (s : State) (at' : Site) (errBit : Nat) (sev : Severity) (addr detail : Nat) :
    (s.error at' errBit sev addr detail).fixtures = s.fixtures := State.fixtures_of_sansFaults (State.error_sansFaults ..)
@[simp] theorem State.accessErr_fixtures (s : State) (node page addr : Nat) (o : Origin) (k : AccessKind) (tag : Option Nat) :
    (s.accessErr node page addr o k tag).fixtures = s.fixtures := State.fixtures_of_sansFaults (State.accessErr_sansFaults ..)

/-- Units that change their state (R399). -/
@[simp] theorem State.movePages_fixtures (s : State) (node : Nat) (ps : List Nat) (u : UState) : (s.movePages node ps u).fixtures = s.fixtures :=
  State.fixtures_foldl (fun t p => by
    split
    · rfl
    · exact State.fixtures_of_sansFaults (State.moveUnit_sansFaults ..)) ps s

/-- A page whose registers are cleared (R400). -/
@[simp] theorem State.clearPage_fixtures (s : State) (node page : Nat) : (s.clearPage node page).fixtures = s.fixtures := by
  unfold State.clearPage
  split
  · rfl
  refine State.fixtures_foldl (fun t r => ?_) _ s
  dsimp only
  split
  · rfl
  refine State.fixtures_foldl (fun v i => ?_) _ t
  split <;> rfl

/-! Blocks, cells and pens (R122, R141, R164, R290-R294). -/

@[simp] theorem State.modBlock_fixtures (s : State) (node b : Nat) (f : Block → Block) : (s.modBlock node b f).fixtures = s.fixtures := rfl
@[simp] theorem State.setBlock_fixtures (s : State) (node b : Nat) (x : Block) : (s.setBlock node b x).fixtures = s.fixtures := rfl
@[simp] theorem State.showVec_fixtures (s : State) (node blk : Nat) : (s.showVec node blk).fixtures = s.fixtures := rfl
@[simp] theorem State.showOut_fixtures (s : State) (node blk : Nat) : (s.showOut node blk).fixtures = s.fixtures := rfl
@[simp] theorem State.updPens_fixtures (s : State) (node blk : Nat) (u : PenUnit) : (s.updPens node blk u).fixtures = s.fixtures := rfl
@[simp] theorem State.penReset_fixtures (s : State) (node blk : Nat) : (s.penReset node blk).fixtures = s.fixtures := rfl
@[simp] theorem State.clearBreak_fixtures (s : State) (node blk : Nat) : (s.clearBreak node blk).fixtures = s.fixtures := rfl

@[simp] theorem State.updHolders_fixtures (s : State) (node unit : Nat) (u : PenUnit) : (s.updHolders node unit u).fixtures = s.fixtures := by
  unfold State.updHolders
  dsimp only
  split <;> rfl

/-- A block reset (R400). -/
@[simp] theorem State.resetBlock_fixtures (s : State) (node blk : Nat) : (s.resetBlock node blk).fixtures = s.fixtures := by
  unfold State.resetBlock
  extract_lets s1 s2
  have cleared := State.fixtures_foldl (fun t p => t.clearPage_fixtures node p) (blockPages node blk) s2
  rw [State.showVec_fixtures, State.clearBreak_fixtures, cleared]
  rfl

/-! Stacks and power (R316, R439, R462). -/

@[simp] theorem State.modPow_fixtures (s : State) (node : Nat) (f : RegionPower → RegionPower) : (s.modPow node f).fixtures = s.fixtures := rfl
@[simp] theorem State.setStack_fixtures (s : State) (st : Nat) (x : Stack) : (s.setStack st x).fixtures = s.fixtures := rfl

@[simp] theorem State.setPwr_fixtures (s : State) (node v : Nat) : (s.setPwr node v).fixtures = s.fixtures := by
  unfold State.setPwr
  dsimp only
  split
  · rfl
  · exact State.event_fixtures ..

@[simp] theorem State.wakeStack_fixtures (s : State) (st : Nat) : (s.wakeStack st).fixtures = s.fixtures := by
  unfold State.wakeStack
  split <;> rfl

@[simp] theorem State.restStack_fixtures (s : State) (st : Nat) : (s.restStack st).fixtures = s.fixtures := by
  unfold State.restStack
  split <;> rfl

/-! Packets (R50-R74). -/

@[simp] theorem State.modRouter_fixtures (s : State) (node : Nat) (f : Router → Router) : (s.modRouter node f).fixtures = s.fixtures := rfl
@[simp] theorem State.send_fixtures (s : State) (p : Packet) : (s.send p).fixtures = s.fixtures := rfl

@[simp] theorem State.answer_fixtures (s : State) (node : Nat) (p : Packet) (st : Status) : (s.answer node p st).fixtures = s.fixtures :=
  State.fixtures_of_sansReads (State.answer_sansReads ..)
@[simp] theorem State.launch_fixtures (s : State) (node : Nat) (p : Packet) : (s.launch node p).fixtures = s.fixtures :=
  State.fixtures_of_sansReads (State.launch_sansReads ..)

@[simp] theorem State.multicast_fixtures (s : State) (p : Packet) (members : List Nat) : (s.multicast p members).fixtures = s.fixtures := by
  unfold State.multicast
  extract_lets on off last s1
  have first : s1.fixtures = s.fixtures := by
    simp only [s1]
    split
    · rfl
    · exact State.launch_fixtures ..
  split
  · exact first
  · exact (State.fixtures_foldl (fun t m => t.launch_fixtures ..) off s1).trans first

theorem State.remember_fixtures (s : State) (c : Bool) (l : List Request) : (if c then { s with outstanding := l } else s).fixtures = s.fixtures := by
  split <;> rfl

@[simp] theorem State.inject_fixtures (s : State) (node : Nat) (p : Packet) (purpose : Purpose) (line : Nat) :
    (s.inject node p purpose line).fixtures = s.fixtures := by
  unfold State.inject
  extract_lets p' req o s1
  split
  · split
    · exact (State.answer_fixtures ..).trans (State.accessErr_fixtures ..)
    · exact State.accessErr_fixtures ..
  split
  · exact State.multicast_fixtures ..
  split
  · exact (State.answer_fixtures ..).trans (State.remember_fixtures ..)
  · exact (State.launch_fixtures ..).trans (State.remember_fixtures ..)

@[simp] theorem State.request_fixtures (s : State) (node : Nat) (p : Packet) (purpose : Purpose) : (s.request node p purpose).fixtures = s.fixtures :=
  State.inject_fixtures ..
@[simp] theorem State.sendRelease_fixtures (s : State) (node unit tag base : Nat) (purpose : Purpose) :
    (s.sendRelease node unit tag base purpose).fixtures = s.fixtures := State.request_fixtures ..
@[simp] theorem State.sendBytes_fixtures (s : State) (node unit tag addr : Nat) (bs : List Byte) (poison pen : Bool) (purpose : Purpose) :
    (s.sendBytes node unit tag addr bs poison pen purpose).fixtures = s.fixtures := State.request_fixtures ..

/-! Frames between panels (R330-R353). -/

@[simp] theorem State.modLink_fixtures (s : State) (node b : Nat) (f : Bundle → Bundle) : (s.modLink node b f).fixtures = s.fixtures := rfl
@[simp] theorem State.setLink_fixtures (s : State) (node b : Nat) (x : Bundle) : (s.setLink node b x).fixtures = s.fixtures := rfl
@[simp] theorem State.setLinkState_fixtures (s : State) (node b : Nat) (l : LState) : (s.setLinkState node b l).fixtures = s.fixtures :=
  State.event_fixtures ..

@[simp] theorem State.emit_fixtures (s : State) (node b : Nat) (f : Frame) : (s.emit node b f).fixtures = s.fixtures := by
  unfold State.emit
  split <;> rfl

@[simp] theorem State.pump_fixtures (s : State) (node b fuel : Nat) : (s.pump node b fuel).fixtures = s.fixtures := by
  induction fuel generalizing s with
  | zero => rfl
  | succ fuel ih =>
    rw [State.pump]
    split
    · rfl
    split
    · rfl
    · exact (ih _).trans (State.emit_fixtures ..)

@[simp] theorem State.queueOn_fixtures (s : State) (node b : Nat) (f : FrameBody) : (s.queueOn node b f).fixtures = s.fixtures := by
  unfold State.queueOn
  dsimp only
  split
  · exact State.pump_fixtures ..
  · refine (State.setLinkState_fixtures ..).trans ?_
    split <;> rfl
  · rfl

@[simp] theorem State.tellPanel_fixtures (s : State) (panel : Nat) (f : FrameBody) : (s.tellPanel panel f).fixtures = s.fixtures := by
  unfold State.tellPanel
  split
  · exact State.queueOn_fixtures ..
  · rfl

/-! Pens held and asked for (R294-R298). -/

@[simp] theorem State.penAsk_fixtures (s : State) (node : Nat) (p : Packet) (purpose : Purpose) (handle : Option Nat) :
    (s.penAsk node p purpose handle).fixtures = s.fixtures := by
  unfold State.penAsk
  dsimp only
  split
  · exact State.updHolders_fixtures ..
  · exact (State.inject_fixtures ..).trans (State.updHolders_fixtures ..)

@[simp] theorem State.penNext_fixtures (s : State) (node unit : Nat) : (s.penNext node unit).fixtures = s.fixtures := by
  unfold State.penNext
  dsimp only
  split
  · rfl
  split
  · rfl
  · exact (State.penAsk_fixtures ..).trans (State.updHolders_fixtures ..)

@[simp] theorem State.penNextAll_fixtures (s : State) (node unit : Nat) : (s.penNextAll node unit).fixtures = s.fixtures :=
  State.fixtures_foldl (fun t _ => t.penNext_fixtures node unit) _ s

/-- Holders that are granted and not revoked are released (R297). -/
theorem State.releases_fixtures (s : State) (node : Nat) (hs : List Holder) :
    (hs.foldl (fun t h => if h.granted && !h.revoked then t.sendRelease node h.unit h.tag h.base .penOrphan else t) s).fixtures = s.fixtures :=
  State.fixtures_foldl (fun t h => by
    split
    · exact State.sendRelease_fixtures ..
    · rfl) hs s

@[simp] theorem State.abortPens_fixtures (s : State) (node unit tag : Nat) : (s.abortPens node unit tag).fixtures = s.fixtures := by
  unfold State.abortPens
  extract_lets u mine s1 out s2
  exact (State.penNextAll_fixtures ..).trans ((s2.releases_fixtures node mine).trans (State.updHolders_fixtures ..))

@[simp] theorem State.releaseHolders_fixtures (s : State) (node blk : Nat) : (s.releaseHolders node blk).fixtures = s.fixtures :=
  (State.releases_fixtures ..).trans rfl

@[simp] theorem State.penRevoke_fixtures (s : State) (node blk : Nat) (st : Status) : (s.penRevoke node blk st).fixtures = s.fixtures := by
  unfold State.penRevoke
  extract_lets u s1 u'
  refine (State.updPens_fixtures ..).trans (State.fixtures_foldl (fun t q => ?_) u.pens s)
  exact (State.send_fixtures ..).trans ((State.event_fixtures ..).trans rfl)

@[simp] theorem State.penDrain_fixtures (s : State) (node blk : Nat) (st : Status) : (s.penDrain node blk st).fixtures = s.fixtures :=
  State.fixtures_foldl (fun t _ => t.answer_fixtures ..) (s.penUnit node blk).pending s

/-! Queues and jobs (R200-R230, R270-R283). -/

@[simp] theorem State.setQueue_fixtures (s : State) (q : QueueRef) (x : Queue) : (s.setQueue q x).fixtures = s.fixtures := rfl
@[simp] theorem State.modQueue_fixtures (s : State) (q : QueueRef) (f : Queue → Queue) : (s.modQueue q f).fixtures = s.fixtures := rfl
@[simp] theorem State.modCur_fixtures (s : State) (q : QueueRef) (f : InFlight → InFlight) : (s.modCur q f).fixtures = s.fixtures := rfl
@[simp] theorem State.stopList_fixtures (s : State) (q : QueueRef) : (s.stopList q).fixtures = s.fixtures := rfl
@[simp] theorem State.takeCur_fixtures (s : State) (q : QueueRef) (a d : Nat) : (s.takeCur q a d).fixtures = s.fixtures := rfl
@[simp] theorem State.setJob_fixtures (s : State) (tag : Nat) (j : Job) : (s.setJob tag j).fixtures = s.fixtures := rfl

@[simp] theorem State.modJob_fixtures (s : State) (tag : Nat) (f : Job → Job) : (s.modJob tag f).fixtures = s.fixtures := by
  unfold State.modJob
  split <;> rfl

@[simp] theorem State.unreported_fixtures (s : State) (q : QueueRef) (reported st : Status) : (s.unreported q reported st).fixtures = s.fixtures := by
  unfold State.unreported
  split <;> rfl

@[simp] theorem State.endAs_fixtures (s : State) (q : QueueRef) (st : Status) : (s.endAs q st).fixtures = s.fixtures := by
  unfold State.endAs
  split
  · split
    · rfl
    · exact State.unreported_fixtures ..
  · rfl

@[simp] theorem State.get_fixtures (s : State) (r : Requester) (a n : Nat) : (s.get r a n).2.2.fixtures = s.fixtures :=
  State.fixtures_of_sansReads (State.readRange_sansReads ..)

@[simp] theorem State.readBlk_fixtures (s : State) (node blk off n : Nat) : (s.readBlk node blk off n).2.2.fixtures = s.fixtures :=
  State.fixtures_of_sansReads (State.readBlk_sansReads ..)

@[simp] theorem State.breakReservation_fixtures (s : State) (node blk off n : Nat) : (s.breakReservation node blk off n).fixtures = s.fixtures := by
  unfold State.breakReservation
  split
  · split
    · split
      · split <;> rfl
      · rfl
    · rfl
  · rfl

@[simp] theorem State.writeBlk_fixtures (s : State) (node blk off : Nat) (ls : Lanes) (poison : Bool) :
    (s.writeBlk node blk off ls poison).fixtures = s.fixtures :=
  (State.breakReservation_fixtures ..).trans (State.fixtures_foldl (fun t _ => t.readBlk_fixtures ..) _ s)

@[simp] theorem State.keepLine_fixtures (s : State) (q : QueueRef) (a : Nat) (bs : List Byte) : (s.keepLine q a bs).fixtures = s.fixtures := by
  unfold State.keepLine
  extract_lets old slot s1
  split
  · rfl
  · exact State.writeBlk_fixtures ..

end Sys2Proof.Machine

namespace Sys2Proof.Machine

/-! ## Aborts and resets of units -/

@[simp] theorem State.fetchLine_fixtures (s : State) (q : QueueRef) (a : Nat) : (s.fetchLine q a).2.2.fixtures = s.fixtures := by
  unfold State.fetchLine
  split
  · rfl
  · dsimp only
    split
    · exact (State.keepLine_fixtures ..).trans (s.get_fixtures (s.walker q) (a / 512 * 512) 512)
    · exact s.get_fixtures (s.walker q) (a / 512 * 512) 512

@[simp] theorem State.reportAhead_fixtures (s : State) (q : QueueRef) : (s.reportAhead q).fixtures = s.fixtures := by
  unfold State.reportAhead
  split <;> rfl

@[simp] theorem State.startList_fixtures (s : State) (q : QueueRef) (tag addr : Nat) : (s.startList q tag addr).fixtures = s.fixtures := by
  unfold State.startList
  extract_lets busy s1 s2
  refine (State.reportAhead_fixtures ..).trans ((State.modJob_fixtures ..).trans ?_)
  show s1.fixtures = _
  simp only [s1]
  split <;> rfl

@[simp] theorem State.freeQueue_fixtures (s : State) (q : QueueRef) : (s.freeQueue q).fixtures = s.fixtures := by
  unfold State.freeQueue
  extract_lets x s1
  have first : s1.fixtures = s.fixtures := State.reportAhead_fixtures ..
  split
  · exact first
  · exact (State.startList_fixtures ..).trans first

@[simp] theorem State.undefineRange_fixtures (s : State) (node a n : Nat) : (s.undefineRange node a n).fixtures = s.fixtures := by
  unfold State.undefineRange
  split <;> rfl

@[simp] theorem State.undefineBlk_fixtures (s : State) (node blk off n : Nat) : (s.undefineBlk node blk off n).fixtures = s.fixtures := rfl

@[simp] theorem State.undefinePens_fixtures (s : State) (q : QueueRef) (hs : List Nat) (off n : Nat) : (s.undefinePens q hs off n).fixtures = s.fixtures :=
  State.fixtures_foldl (fun t _ => t.undefineRange_fixtures ..) _ s

@[simp] theorem State.undefineFeeds_fixtures (s : State) (members : List Nat) (side tag seq : Nat) :
    (s.undefineFeeds members side tag seq).fixtures = s.fixtures := by
  refine State.fixtures_foldl (fun t m => State.fixtures_foldl (fun v blk => ?_) _ t) members s
  dsimp only
  split
  · rfl
  · split <;> split <;> rfl

/-- The destination of a command that is cut off takes free values (R208). -/
@[simp] theorem State.undefineDest_fixtures (s : State) (q : QueueRef) (d : Nat) : (s.undefineDest q d).fixtures = s.fixtures := by
  unfold State.undefineDest
  split
  · exact State.fixtures_foldl (fun t _ => t.undefineRange_fixtures ..) _ s
  · exact State.undefinePens_fixtures ..
  · exact State.undefinePens_fixtures ..
  · refine State.fixtures_foldl (fun t r => ?_) _ s
    split
    · exact State.undefineRange_fixtures ..
    · rfl
  · exact State.undefineFeeds_fixtures ..
  · exact State.undefineFeeds_fixtures ..
  · split
    · exact State.fixtures_foldl (fun t _ => t.undefineBlk_fixtures ..) _ s
    · rfl
  · split
    · exact State.fixtures_foldl (fun t _ => t.undefineBlk_fixtures ..) _ s
    · rfl
  · split
    · exact State.fixtures_foldl (fun t _ => t.undefineBlk_fixtures ..) _ s
    · rfl
  · exact State.undefineRange_fixtures ..
  · rfl

@[simp] theorem State.abortQueue_fixtures (s : State) (tag : Nat) (st : Status) (q : QueueRef) : (s.abortQueue tag st q).fixtures = s.fixtures := by
  unfold State.abortQueue
  extract_lets x s1
  have first : s1.fixtures = s.fixtures := by
    simp only [s1]
    split
    · exact State.modJob_fixtures ..
    · rfl
  split
  · exact first
  split
  · split
    · exact first
    · exact (State.endAs_fixtures ..).trans ((State.undefineDest_fixtures ..).trans first)
  · split
    · exact (State.endAs_fixtures ..).trans first
    · exact (State.modJob_fixtures ..).trans ((State.freeQueue_fixtures ..).trans first)

@[simp] theorem State.showDrove_fixtures (s : State) (node : Nat) : (s.showDrove node).fixtures = s.fixtures := by
  unfold State.showDrove
  split <;> rfl

@[simp] theorem State.abortEdge_fixtures (s : State) (tag node : Nat) : (s.abortEdge tag node).fixtures = s.fixtures := by
  unfold State.abortEdge
  extract_lets d tables d'
  split
  · rfl
  · exact State.showDrove_fixtures ..

@[simp] theorem State.abortBlock_fixtures (s : State) (tag node blk : Nat) : (s.abortBlock tag node blk).fixtures = s.fixtures := by
  unfold State.abortBlock
  extract_lets b gone mine b1 b2 unhold s1 s2 s3
  refine (State.abortPens_fixtures ..).trans ?_
  simp only [s3]
  split <;> rfl

@[simp] theorem State.jobEnd_fixtures (s : State) (tag : Nat) : (s.jobEnd tag).fixtures = s.fixtures := by
  unfold State.jobEnd
  split
  · rfl
  split
  · exact (State.fixtures_foldl (fun t e => t.abortEdge_fixtures tag (156 + e)) _ _).trans rfl
  · rfl

@[simp] theorem State.jobSettle_fixtures (s : State) (tag : Nat) : (s.jobSettle tag).fixtures = s.fixtures := by
  unfold State.jobSettle
  split
  · rfl
  split
  · split <;> rfl
  · rfl

@[simp] theorem State.abortLocal_fixtures (s : State) (tag : Nat) (st : Status) (failAddr : Nat) : (s.abortLocal tag st failAddr).fixtures = s.fixtures := by
  unfold State.abortLocal
  split
  · rfl
  next j _ =>
  split
  · rfl
  extract_lets s1 s2 s3 s4
  have queues : s2.fixtures = s.fixtures := (State.fixtures_foldl (fun t q => t.abortQueue_fixtures tag st q) _ s1).trans rfl
  have nodes : s4.fixtures = s3.fixtures := State.fixtures_foldl (fun t n => by
    split
    · exact State.abortEdge_fixtures ..
    · exact State.fixtures_foldl (fun v b => v.abortBlock_fixtures tag n b) _ t) j.nodes s3
  exact (State.jobSettle_fixtures ..).trans ((State.jobEnd_fixtures ..).trans (nodes.trans ((State.modJob_fixtures ..).trans queues)))

/-- An aborted job ends its commands and frees what it holds (R276-R283). -/
@[simp] theorem State.abortJob_fixtures (s : State) (tag : Nat) (st : Status) (failAddr : Nat) : (s.abortJob tag st failAddr).fixtures = s.fixtures := by
  unfold State.abortJob
  split
  · rfl
  next j _ =>
  split
  · rfl
  split
  · exact State.abortLocal_fixtures ..
  split
  · refine (State.fixtures_foldl (fun t m => ?_) j.members _).trans (s.abortLocal_fixtures tag st failAddr)
    split
    · rfl
    · exact State.tellPanel_fixtures ..
  · exact (State.tellPanel_fixtures ..).trans (State.abortLocal_fixtures ..)

@[simp] theorem State.abortWhere_fixtures (s : State) (p : QueueRef → Bool) (st : Status) : (s.abortWhere p st).fixtures = s.fixtures :=
  State.fixtures_foldl (fun t e => by
    split
    · exact State.abortJob_fixtures ..
    · rfl) s.jobs s

@[simp] theorem State.killQueues_fixtures (s : State) (node blk : Nat) : (s.killQueues node blk).fixtures = s.fixtures := by
  refine State.fixtures_foldl (fun t q => ?_) (unitQueues node blk) s
  extract_lets x tags s1 s2
  have stopped : s1.fixtures = t.fixtures := State.fixtures_foldl (fun v _ => v.modJob_fixtures ..) tags t
  have emptied : s2.fixtures = s1.fixtures := by
    simp only [s2]
    split <;> rfl
  exact (State.fixtures_foldl (fun v _ => (State.jobSettle_fixtures ..).trans (v.jobEnd_fixtures _)) tags s2).trans (emptied.trans stopped)

@[simp] theorem State.orphanRequests_fixtures (s : State) (node : Nat) (mine : Request → Bool) : (s.orphanRequests node mine).fixtures = s.fixtures := rfl

@[simp] theorem State.dropBlock_fixtures (s : State) (node blk : Nat) (st : Status) : (s.dropBlock node blk st).fixtures = s.fixtures := by
  unfold State.dropBlock
  extract_lets s1 s2 s3
  have pens : s1.fixtures = s.fixtures := (State.releaseHolders_fixtures ..).trans ((State.penRevoke_fixtures ..).trans (State.penDrain_fixtures ..))
  exact (s2.killQueues_fixtures node blk).trans pens

/-! Folds and reservoirs (R46, R56-R60). -/

@[simp] theorem State.forwardFold_fixtures (s : State) (node m : Nat) (p : Packet) : (s.forwardFold node m p).fixtures = s.fixtures :=
  (State.launch_fixtures ..).trans (State.event_fixtures ..)

@[simp] theorem State.foldResult_fixtures (s : State) (node : Nat) (p : Packet) (bs : List Byte) (poison : Bool) (purpose : Purpose) :
    (s.foldResult node p bs poison purpose).fixtures = s.fixtures :=
  State.fixtures_foldl (fun t _ => t.sendBytes_fixtures ..) _ s

@[simp] theorem State.poisonFold_fixtures (s : State) (node : Nat) (p : Packet) : (s.poisonFold node p).fixtures = s.fixtures := by
  unfold State.poisonFold
  dsimp only
  split
  · exact State.forwardFold_fixtures ..
  · exact State.foldResult_fixtures ..

@[simp] theorem State.flushFolds_fixtures (s : State) (node : Nat) : (s.flushFolds node).fixtures = s.fixtures :=
  (State.fixtures_foldl (fun t p => t.poisonFold_fixtures node p) _ _).trans rfl

@[simp] theorem State.emptyReservoir_fixtures (s : State) (node : Nat) (st : Status) : (s.emptyReservoir node st).fixtures = s.fixtures := by
  unfold State.emptyReservoir
  extract_lets held s1
  refine (State.fixtures_foldl (fun t p => ?_) held s1).trans rfl
  split
  · exact State.answer_fixtures ..
  · rfl

@[simp] theorem State.dropRegion_fixtures (s : State) (node : Nat) (st : Status) : (s.dropRegion node st).fixtures = s.fixtures := by
  unfold State.dropRegion
  extract_lets s1 s2
  have blocks : s2.fixtures = s1.fixtures := State.fixtures_foldl (fun t b => t.dropBlock_fixtures node b st) _ s1
  exact (State.flushFolds_fixtures ..).trans ((State.emptyReservoir_fixtures ..).trans (blocks.trans (State.abortWhere_fixtures ..)))

/-! Resets of units (R400, R490). -/

@[simp] theorem State.overrule_fixtures (s : State) (node : Nat) : (s.overrule node).fixtures = s.fixtures :=
  (State.fixtures_foldl (f := State.holdBack) (fun _ _ => rfl) _ _).trans rfl

@[simp] theorem State.resetDrove_fixtures (s : State) (node : Nat) : (s.resetDrove node).fixtures = s.fixtures := by
  unfold State.resetDrove
  extract_lets page s1 s2
  have dropped : s1.fixtures = s.fixtures := (State.killQueues_fixtures ..).trans (State.abortWhere_fixtures ..)
  exact (State.movePages_fixtures ..).trans ((State.clearPage_fixtures ..).trans dropped)

@[simp] theorem State.resetController_fixtures (s : State) (node : Nat) : (s.resetController node).fixtures = s.fixtures :=
  (State.movePages_fixtures ..).trans ((State.clearPage_fixtures ..).trans ((State.emptyReservoir_fixtures ..).trans (State.restStack_fixtures ..)))

/-- A unit's reset leaves the tray and the panel's supply alone (R400). -/
@[simp] theorem State.resetUnit_fixtures (s : State) (node page : Nat) : (s.resetUnit node page).fixtures = s.fixtures := by
  unfold State.resetUnit
  split
  · extract_lets s1 s2
    have blocks : s2.fixtures = s1.fixtures := State.fixtures_foldl (fun t b => t.resetBlock_fixtures node b) _ s1
    have dropped : s1.fixtures = s.fixtures := (State.dropRegion_fixtures ..).trans (State.overrule_fixtures ..)
    exact (State.movePages_fixtures ..).trans ((State.clearPage_fixtures ..).trans (blocks.trans dropped))
  · exact (State.movePages_fixtures ..).trans ((State.resetBlock_fixtures ..).trans (State.dropBlock_fixtures ..))
  · exact State.resetDrove_fixtures ..
  · exact State.resetController_fixtures ..
  · exact (State.movePages_fixtures ..).trans (State.clearPage_fixtures ..)

/-- A reset unit takes up the version that the update brings (R526). -/
theorem State.resetUnit_updateVersion (s : State) (node page : Nat) : (s.resetUnit node page).updateVersion = s.updateVersion := by
  have tray : (s.resetUnit node page).tray = s.tray := State.tray_of_fixtures (State.resetUnit_fixtures ..)
  simp only [State.updateVersion, State.otherSlot, tray]

end Sys2Proof.Machine

namespace Sys2Proof.Machine

/-! ## Drains, self-tests and assists -/

/-- Settles O42: the rows by their guards; a reset for an update takes the update's version, which it leaves as it is (`State.resetUnit_updateVersion`). -/
theorem unitStatesAndAssists : Obligations.UnitStatesAndAssists := by
  refine ⟨fun s node page why asked draining drained => ?drain, fun s node page ok known starting region => ?selfTest, fun s a rest waits => ?oldest,
    fun s k a own => ?own, fun s id a posted due => ?deadline, fun s fn node page t gap duty due => ?gap⟩
  case drain =>
    intro u
    have may : (s.unit node page == .draining && s.drained node page why) = true := by simp [draining, drained]
    have runs : exec (.drainComplete node page) s = .next (match why with
        | .quiesce => if u.flag F.unitCtrl_quiesce node page then u.movePages node [page] .quiesced else u.movePages node [page] .running
        | .off => u.offUnit node page
        | .reset => u.resetUnit node page
        | .update => (u.resetUnit node page).put F.rgnFw_version node 0 0 u.updateVersion) := by
      show execDrainComplete node page s = _
      simp only [execDrainComplete, asked]
      rw [need_of_true may]
      cases why <;> rfl
    rw [runs]
    refine ⟨?_, ?_, ?_, ?_⟩
    · rintro rfl
      show Host.Outcome.next (if s.flag F.unitCtrl_quiesce node page then u.movePages node [page] .quiesced else u.movePages node [page] .running) = _
      split <;> rfl
    · rintro rfl
      rfl
    · rintro rfl
      rfl
    · rintro rfl
      rw [State.resetUnit_updateVersion]
  case selfTest =>
    intro v
    have site : (s.unit node page == .starting && (!isRegion node || s.role node == 0) && (!isRegion node || page == 0 || s.unit node 0 == .running)) = true := by
      cases place : isRegion node with
      | false => simp [starting]
      | true =>
        obtain ⟨serves, first, -⟩ := region place
        rcases first with rfl | running <;> simp [*]
    have waved : (!isRegion node || decide ((s.pow node).upAt ≤ s.now)) = true := by
      cases place : isRegion node with
      | false => rfl
      | true => simpa using (region place).2.2
    have runs : exec (.selfTestDone node page ok) s =
        .next (if isRegion node && page == 0 && v.flag F.rgnFw_updating node then (v.put F.rgnFw_updating node 0 0 0).updateNext else v) := by
      show execSelfTestDone node page ok s = _
      rw [execSelfTestDone, need_of_true known, need_of_true site, need_of_true waved]
    rw [runs]
    refine ⟨fun other => ?_, fun place first updating => by simp [place, first, updating]⟩
    have unasked : ¬ (isRegion node && page == 0 && v.flag F.rgnFw_updating node) = true := by
      rintro asked
      simp only [Bool.and_eq_true, beq_iff_eq] at asked
      obtain ⟨⟨place, first⟩, updating⟩ := asked
      simp [place, first, updating] at other
    rw [if_neg unasked]
  case oldest =>
    show execAssistPost none s = _
    simp only [execAssistPost, waits]
  case own =>
    show execAssistPost (some k) s = _
    simp only [execAssistPost, own]
  case deadline =>
    show execAssistDeadline (.assist id) s = _
    simp only [execAssistDeadline, posted]
    rw [need_of_true (decide_eq_true due)]
  case gap =>
    show execAssistDeadline (.gap fn node page) s = _
    simp only [execAssistDeadline, gap]
    rw [need_of_true duty, need_of_true (decide_eq_true due)]

end Sys2Proof.Machine

namespace Sys2Proof.Machine

/-! ## The hubs -/

@[simp] theorem State.showPort_fixtures (s : State) (node port : Nat) : (s.showPort node port).fixtures = s.fixtures := rfl

@[simp] theorem State.showNeighbours_fixtures (s : State) (n : Nat) : (s.showNeighbours n).fixtures = s.fixtures :=
  State.fixtures_foldl (fun t port => by split <;> rfl) _ s

/-- The loss of the other hub leaves the master what it is (R495-R496). -/
theorem State.loseHub_master (s : State) (hub : Nat) : (s.loseHub hub).master = s.master := by
  unfold State.loseHub
  extract_lets tags s1 changes s2 s3
  have jobs : s1.fixtures = s.fixtures := State.fixtures_foldl (fun t tag => t.abortJob_fixtures tag .targetRetired 0) _ s
  have units : s3.fixtures = s2.fixtures := (State.showNeighbours_fixtures ..).trans (State.movePages_fixtures ..)
  have kept : s3.master = s1.master := State.master_of_fixtures units
  exact kept.trans (State.master_of_fixtures jobs)

theorem isHub_otherHub (n : Nat) : isHub (otherHub n) = true := by
  unfold otherHub
  split <;> rfl

/-- A takeover makes the other hub master (R496-R497). -/
theorem State.moveMaster_master (s : State) : s.moveMaster.master = otherHub s.master := rfl

/-- Every live router fenced against a hub (R496). -/
def State.fenceOut (s : State) (hub : Nat) : State := (allBelow 182 s.live).foldl (fun s n => s.modRouter n fun r => { r with fenced := some hub }) s

theorem State.fenceOut_master (s : State) (hub : Nat) : (s.fenceOut hub).master = s.master :=
  State.master_of_fixtures (State.fixtures_foldl (fun t n => t.modRouter_fixtures n fun r => { r with fenced := some hub }) _ s)

/-- A takeover: the master fenced out, the role moved, the hub lost (R496). -/
theorem exec_heartbeatLoss_master {s : State} (isMaster : isHub s.master = true) (both : s.plant.bothLost = false) (one : s.plant.hubLost = false)
    (live : s.unit s.master 0 ≠ .retired) (late : Sparse.get 0 s.plant.beats s.master + 3 * ms ≤ s.now ∨ s.plant.hubFault = true) :
    let v := (s.fenceOut s.master).moveMaster.loseHub s.master
    exec (.heartbeatLoss s.master) s = .next ((v.error ⟨v.master, 0, 0x3F, none⟩ 30 .ueUnit 0 s.master).alert) := by
  intro v
  show execHeartbeatLoss s.master s = _
  rw [execHeartbeatLoss, need_of_true isMaster, need_of_true (by simp [both, live]), if_neg (by simp [one]), if_pos rfl, need_of_true (by simpa using late)]
  rfl

/-- Settles O51: the rows by their guards; at a takeover the master role moves and nothing after it moves it back (`State.loseHub_master`). -/
theorem hubs : Obligations.Hubs := by
  refine ⟨fun s hub fabric sideband isHub heard one both interval => ?heartbeat, fun s isMaster both one => ⟨fun live late => ?takeover,
    fun live late => ?standby, fun free => ?handover⟩, fun s lost absent => ?beacon⟩
  case heartbeat =>
    have runs : ∃ probes, exec (.heartbeat hub fabric sideband) s = .next { s.modPlant (fun p =>
        { p with beats := Sparse.set p.beats hub s.now, sent := Sparse.set p.sent hub s.now }) with probes := probes } ∧
        (fabric = true → sideband = true → probes = s.probes) := by
      show ∃ probes, execHeartbeat hub fabric sideband s = _ ∧ _
      rw [execHeartbeat, need_of_true (by simpa [isHub] using heard), need_of_true (by simp [one, both]), need_of_true]
      swap
      · cases sent : Sparse.find? s.plant.sent hub with
        | none => rfl
        | some t => exact decide_eq_true (interval t sent)
      by_cases known : ((fabric && sideband) || (s.probe? hub).isSome) = true
      · exact ⟨s.probes, congrArg Host.Outcome.next (if_pos known), fun _ _ => rfl⟩
      · exact ⟨_, congrArg Host.Outcome.next (if_neg known), fun f b => absurd (by rw [f, b]; rfl) known⟩
    obtain ⟨probes, heard, kept⟩ := runs
    exact ⟨_, heard, Sparse.get_set_same .., rfl, rfl, kept⟩
  case takeover =>
    refine ⟨_, exec_heartbeatLoss_master isMaster both one live late, ?_⟩
    calc _ = ((s.fenceOut s.master).moveMaster.loseHub s.master).master := State.master_of_fixtures (State.error_fixtures ..)
      _ = otherHub (s.fenceOut s.master).master := State.loseHub_master ..
      _ = otherHub s.master := by rw [State.fenceOut_master]
  case standby =>
    have other : otherHub s.master ≠ s.master := by
      unfold otherHub
      split <;> omega
    show execHeartbeatLoss (otherHub s.master) s = _
    rw [execHeartbeatLoss, need_of_true (isHub_otherHub s.master), need_of_true (by simp [both, live]), if_neg (by simp [one]), if_neg other,
      need_of_true (by simp [late])]
  case handover =>
    show execHandoverMaster s = _
    rw [execHandoverMaster, need_of_true (by simp [both, one, free])]
  case beacon =>
    show execBeaconAbsent s = _
    rw [execBeaconAbsent, need_of_true lost, need_of_true (decide_eq_true absent)]

end Sys2Proof.Machine

namespace Sys2Proof.Machine

/-! ## Power, temperature and the forecast -/

@[simp] theorem State.pow_modPow (s : State) (node : Nat) (f : RegionPower → RegionPower) : (s.modPow node f).pow node = f (s.pow node) :=
  Sparse.get_upd_same ..

/-- A region's record of its own does not depend on another region's (R443-R461). -/
theorem State.pow_modPow_other (s : State) {node n : Nat} (h : n ≠ node) (f : RegionPower → RegionPower) : (s.modPow node f).pow n = s.pow n :=
  (Sparse.get_upd ..).trans (if_neg h)

@[simp] theorem State.fld_modPow (s : State) (node : Nat) (f : RegionPower → RegionPower) (g : Field) (n b i : Nat) :
    (s.modPow node f).fld g n b i = s.fld g n b i := rfl

/-! Registers that lie at other places of their nodes' pages (R392). -/

/-- Where a register lies within its node's pages. -/
def Reg.low (r : Reg) (node b : Nat) : Nat := pageOf r.place.kind node b * 0x1000 + r.place.off

theorem Reg.key_eq_low (r : Reg) (node b : Nat) : r.key node b 0 = r.home node * 0x40000 + r.low node b := by
  rw [Reg.key, Reg.low, Nat.zero_mul, Nat.add_zero, Nat.add_assoc]

/-- Registers of any two nodes are two where they lie at different places of the pages. -/
theorem Reg.key_ne_of_low {r r' : Reg} {node b node' b' : Nat} (h : r.low node b < 0x40000) (h' : r'.low node' b' < 0x40000)
    (apart : r.low node b ≠ r'.low node' b') : r.key node b 0 ≠ r'.key node' b' 0 := by
  rw [Reg.key_eq_low, Reg.key_eq_low]
  generalize r.low node b = x at *
  generalize r'.low node' b' = y at *
  omega

/-- The power page of an edge die, and that of any other node (R393). -/
theorem Reg.pwrContact_low (node : Nat) : Reg.pwrContact.low node 0 = 0x2120 ∨ Reg.pwrContact.low node 0 = 0x4120 := by
  cases edge : isEdge node <;> simp [Reg.low, Reg.place, pageOf, edge]
theorem Reg.pwrStat_low (node : Nat) : Reg.pwrStat.low node 0 = 0x2110 ∨ Reg.pwrStat.low node 0 = 0x4110 := by
  cases edge : isEdge node <;> simp [Reg.low, Reg.place, pageOf, edge]
theorem Reg.pwrLimit_low (node : Nat) : Reg.pwrLimit.low node 0 = 0x2108 ∨ Reg.pwrLimit.low node 0 = 0x4108 := by
  cases edge : isEdge node <;> simp [Reg.low, Reg.place, pageOf, edge]
theorem Reg.logStat_low (node : Nat) : Reg.logStat.low node 0 = 11 * 0x1000 + 0x100 := by simp only [Reg.low, Reg.place, pageOf]
theorem Reg.hubBudget_low (node : Nat) : Reg.hubBudget.low node 0 = 0x120 := by simp [Reg.low, Reg.place, pageOf]

theorem Reg.pwrContact_ne_logStat (node master : Nat) : Reg.pwrContact.key node 0 0 ≠ Reg.logStat.key master 0 0 := by
  have contact := Reg.pwrContact_low node
  have log := Reg.logStat_low master
  exact Reg.key_ne_of_low (by omega) (by omega) (by omega)

theorem Reg.hubBudget_ne_pwrStat (node : Nat) : Reg.hubBudget.key 180 0 0 ≠ Reg.pwrStat.key node 0 0 := by
  have budget := Reg.hubBudget_low 180
  have stat := Reg.pwrStat_low node
  exact Reg.key_ne_of_low (by omega) (by omega) (by omega)

theorem Reg.hubBudget_ne_pwrLimit (node : Nat) : Reg.hubBudget.key 180 0 0 ≠ Reg.pwrLimit.key node 0 0 := by
  have budget := Reg.hubBudget_low 180
  have limit := Reg.pwrLimit_low node
  exact Reg.key_ne_of_low (by omega) (by omega) (by omega)

/-! The contact (R447). -/

/-- The contact's register lies apart from those that record faults and alarms. -/
theorem pwrContact_not_mem_errorKeys (node : Nat) : Reg.pwrContact.key node 0 0 ∉ errorKeys ⟨node, pageOf .pwr node 0, 0x3F, none⟩ := by
  simp [errorKeys, Reg.key, Reg.home, Reg.shared, Reg.place, pageOf]

/-- What follows a measurement of the contact: its value stays, and an alarm is raised at most. -/
def State.KeepsMeasured (node : Nat) (s t : State) : Prop :=
  t.fld F.pwrContact_measured node = s.fld F.pwrContact_measured node ∧ t.sansAlarms = s.sansAlarms

theorem State.KeepsMeasured.refl (node : Nat) (s : State) : s.KeepsMeasured node s := ⟨rfl, rfl⟩

theorem State.KeepsMeasured.ite {node : Nat} {s t : State} {c : Prop} [Decidable c] (h : s.KeepsMeasured node t) :
    s.KeepsMeasured node (if c then t else s) := by
  split
  · exact h
  · exact .refl node s

theorem State.KeepsMeasured.trans {node : Nat} {s t u : State} (h : s.KeepsMeasured node t) (h' : t.KeepsMeasured node u) : s.KeepsMeasured node u :=
  ⟨h'.1.trans h.1, h'.2.trans h.2⟩

/-- A flag of the contact, above the measured value, is set and recorded as an error (R447). -/
theorem State.keepsMeasured_flag (s : State) {f : Field} (hr : f.reg = .pwrContact) (high : 32 ≤ f.lo) (within : f.lo ≤ 64) (node : Nat) (sev : Severity) (r : Nat) :
    s.KeepsMeasured node ((s.put f node 0 0 1).error ⟨node, pageOf .pwr node 0, 0x3F, none⟩ 25 sev 0 r) := by
  obtain ⟨-, -, word⟩ := (s.put f node 0 0 1).error_frame ⟨node, pageOf .pwr node 0, 0x3F, none⟩ 25 sev 0 r
  have kept := word .pwrContact node 0 0 (pwrContact_not_mem_errorKeys node)
  refine ⟨(State.fld_congr (f := F.pwrContact_measured) kept).trans ?_, State.error_sansAlarms ..⟩
  exact s.fld_put_below (f := f) (g := F.pwrContact_measured) hr.symm high within node 0 0 1

/-- ALERT_N and a vector leave the contact's register alone. -/
theorem State.keepsMeasured_alarm (s : State) (node v : Nat) : s.KeepsMeasured node (s.alert.vector v) :=
  ⟨State.fld_congr (f := F.pwrContact_measured) (s.word_put_other (f := F.logStat_alert) (Reg.pwrContact_ne_logStat node s.master) 1), rfl⟩


/-! The budget (R454-R455). -/

/-- A share in force leaves the panel's measured power as it is. -/
theorem State.setShare_keeps (s : State) (node x : Nat) : (s.setShare node x).mem = s.mem ∧
    (s.setShare node x).fld F.hubBudget_measured 180 = s.fld F.hubBudget_measured 180 := by
  unfold State.setShare
  generalize min x 65535 = share
  have stat := s.word_put_other (f := F.pwrStat_share) (Reg.hubBudget_ne_pwrStat node) share
  have limit := (s.put F.pwrStat_share node 0 0 share).word_put_other (f := F.pwrLimit_share) (Reg.hubBudget_ne_pwrLimit node) share
  exact ⟨rfl, State.fld_congr (f := F.hubBudget_measured) (limit.trans stat)⟩

theorem State.setShares_keep {α : Type} (node : α → Nat) (share : State → α → Nat) (l : List α) (s : State) :
    let u := l.foldl (fun t e => t.setShare (node e) (share t e)) s
    u.mem = s.mem ∧ u.fld F.hubBudget_measured 180 = s.fld F.hubBudget_measured 180 :=
  List.foldlRecOn (motive := fun t : State => t.mem = s.mem ∧ t.fld F.hubBudget_measured 180 = s.fld F.hubBudget_measured 180) l _ ⟨rfl, rfl⟩
    fun t ⟨mem, power⟩ e _ =>
      have ⟨mem', power'⟩ := t.setShare_keeps (node e) (share t e)
      ⟨mem'.trans mem, power'.trans power⟩

theorem State.scaleShares_keeps (s : State) : s.scaleShares.mem = s.mem ∧
    s.scaleShares.fld F.hubBudget_measured 180 = s.fld F.hubBudget_measured 180 := by
  unfold State.scaleShares
  extract_lets held sum
  split
  · exact ⟨rfl, rfl⟩
  · exact State.setShares_keep (fun e : Nat × Nat => e.1) (fun t e => e.2 * t.available / max 1 sum) held s

/-! Energy (R461). -/

theorem State.addEnergy_power (s : State) (tag uj : Nat) : (s.addEnergy tag uj).power = s.power ∧ (s.addEnergy tag uj).mem = s.mem := by
  unfold State.addEnergy
  dsimp only
  split <;> exact ⟨rfl, rfl⟩

theorem State.addEnergies_power (l : List (Nat × Nat)) (s : State) :
    (l.foldl (fun t p => t.addEnergy p.1 p.2) s).power = s.power ∧ (l.foldl (fun t p => t.addEnergy p.1 p.2) s).mem = s.mem :=
  List.foldlRecOn (motive := fun t : State => t.power = s.power ∧ t.mem = s.mem) l _ ⟨rfl, rfl⟩
    fun t ⟨power, mem⟩ p _ =>
      have ⟨power', mem'⟩ := t.addEnergy_power p.1 p.2
      ⟨power'.trans power, mem'.trans mem⟩

theorem State.pow_of_power {s t : State} (h : t.power = s.power) (node : Nat) : t.pow node = s.pow node := by
  rw [State.pow, h, State.pow]

/-- ENERGY_INTERVAL counts the interval and adds energy to the tags' counters (R461). -/
theorem exec_energyInterval {s : State} {node uj : Nat} {parts : List (Nat × Nat)} (site : isRegion node = true ∨ isEdge node = true)
    (tags : parts.all (fun p => decide (p.1 < 64)) = true) (due : (s.pow node).counted + 10 * us ≤ s.now) :
    let v := s.modPow node fun p => { p with counted := s.now }
    (parts.foldl (fun a p => a + p.2) 0 = 0 → exec (.energyInterval node uj parts) s = .next (v.addEnergy 64 uj)) ∧
    ∃ u : State, exec (.energyInterval node uj parts) s = .next u ∧ u.power = v.power ∧ u.mem = v.mem := by
  intro v
  have place : ((isRegion node || isEdge node) && parts.all (fun p => decide (p.1 < 64))) = true := by
    rw [tags, Bool.and_true, Bool.or_eq_true]
    exact site
  show (_ → execEnergyInterval node uj parts s = _) ∧ ∃ u, execEnergyInterval node uj parts s = _ ∧ _
  rw [execEnergyInterval, need_of_true place, need_of_true (decide_eq_true due)]
  extract_lets sum shares left
  refine ⟨fun none => if_pos none, ?_⟩
  by_cases none : sum = 0
  · rw [if_pos none]
    exact ⟨_, rfl, v.addEnergy_power 64 uj⟩
  · rw [if_neg none]
    obtain ⟨power, mem⟩ := v.addEnergies_power shares
    obtain ⟨power', mem'⟩ := (shares.foldl (fun t p => t.addEnergy p.1 p.2) v).addEnergy_power (shares.headD (64, 0)).1 left
    exact ⟨_, rfl, power'.trans power, mem'.trans mem⟩

/-! The forecast (R460). -/

/-- Ceilings that are set region by region. -/
theorem State.forecastF_foldl (v : Nat → Option Nat) (l : List Nat) (s : State) (n : Nat) :
    ((l.foldl (fun t m => t.modPow m fun x => { x with forecastF := v m }) s).pow n).forecastF = if n ∈ l then v n else (s.pow n).forecastF := by
  induction l generalizing s with
  | nil => rfl
  | cons m rest ih =>
    rw [List.foldl_cons, ih]
    by_cases same : n = m
    · subst same
      simp
    · simp [same, State.pow_modPow_other]

/-- A region that is not predicted hot has no ceiling predicted for it. -/
theorem find?_none_of_any {hot : List (Nat × Nat)} {n : Nat} (h : hot.any (·.1 == n) = false) : hot.find? (·.1 == n) = none := by
  rw [List.find?_eq_none]
  exact fun e listed => by simpa using List.any_eq_false.1 h e listed

/-! The rows. -/

/-- CONTACT_MEASURE: what is measured is shown, whatever it raises (R447). -/
theorem exec_contactMeasure {s : State} {node r : Nat} (region : isRegion node = true) (on : s.coreOn node = true)
    (due : (s.pow node).measured + 10 * ms ≤ s.now) :
    ∃ u : State, exec (.contactMeasure node r) s = .next u ∧ (u.pow node).measured = s.now ∧ u.fld F.pwrContact_measured node = min r 65535 ∧ u.mem = s.mem := by
  show ∃ u, execContactMeasure node r s = _ ∧ _
  rw [execContactMeasure, need_of_true region, need_of_true on, need_of_true (decide_eq_true due)]
  extract_lets page h s1 s2 base s3 s4 s5
  have baseline : s2.power = s1.power ∧ s2.mem = s1.mem := by
    simp only [s2]
    split <;> exact ⟨rfl, rfl⟩
  have flagged (t : State) {f : Field} (hr : f.reg = .pwrContact) (high : 32 ≤ f.lo) (within : f.lo ≤ 64) (sev : Severity) :=
    t.keepsMeasured_flag hr high within node sev r
  have warned : s3.KeepsMeasured node s4 := .ite (flagged s3 rfl (by decide) (by decide) .ce)
  have halved : s4.KeepsMeasured node s5 := .ite ((flagged s4 rfl (by decide) (by decide) .ce).trans (State.keepsMeasured_alarm _ node 53))
  have shows (u : State) (h : s5.KeepsMeasured node u) :
      (u.pow node).measured = s.now ∧ u.fld F.pwrContact_measured node = min r 65535 ∧ u.mem = s.mem := by
    obtain ⟨shown, alarms⟩ := (warned.trans halved).trans h
    have put : s3.fld F.pwrContact_measured node = min r 65535 % 2 ^ 16 := s2.fld_put_same (f := F.pwrContact_measured) (by decide) node 0 0 _
    have same : u.pow node = s1.pow node := (State.pow_of_sansAlarms alarms node).trans (State.pow_of_power baseline.1 node)
    refine ⟨?_, ?_, (State.mem_of_sansAlarms alarms).trans baseline.2⟩
    · rw [same]
      exact congrArg RegionPower.measured (s.pow_modPow node _)
    · rw [shown, put]
      exact Nat.mod_eq_of_lt (Nat.lt_succ_of_le (Nat.min_le_right ..))
  exact ⟨_, rfl, shows _ (.ite ((flagged s5 rfl (by decide) (by decide) .de).trans (State.keepsMeasured_alarm _ node 53)))⟩

/-- BUDGET_LOOP: the measured power is shown, whichever way the shares go (R454-R455). -/
theorem exec_budgetLoop {s : State} {panel fixed : Nat} (goes : s.pstate ≠ 4) (both : s.plant.bothLost = false) (due : s.plant.budgetAt + ms ≤ s.now) :
    ∃ u : State, exec (.budgetLoop panel fixed) s = .next u ∧ u.mem = s.mem ∧ u.fld F.hubBudget_measured 180 = min 8191 (panel / 10) := by
  show ∃ u, execBudgetLoop panel fixed s = _ ∧ _
  rw [execBudgetLoop, need_of_true (by simp [goes, both]), need_of_true (decide_eq_true due)]
  extract_lets s1 l shares short s2
  have put : s1.fld F.hubBudget_measured 180 = min 8191 (panel / 10) :=
    (State.fld_put_same (f := F.hubBudget_measured) _ (by decide) 180 0 0 _).trans (Nat.mod_eq_of_lt (Nat.lt_succ_of_le (Nat.min_le_left ..)))
  split
  · obtain ⟨mem, shown⟩ := s1.scaleShares_keeps
    exact ⟨_, rfl, mem, shown.trans put⟩
  · obtain ⟨mem, shown⟩ := s1.setShares_keep (fun e : Nat × Nat => e.1) (fun _ e => if short then 0 else e.2) shares
    have above (v : Nat) : (s2.put F.hubBudget_infeasible 180 0 0 v).fld F.hubBudget_measured 180 = min 8191 (panel / 10) :=
      (s2.fld_put_below (f := F.hubBudget_infeasible) (g := F.hubBudget_measured) rfl (by decide) (by decide) 180 0 0 v).trans (shown.trans put)
    split
    · exact ⟨_, rfl, mem, above 1⟩
    · exact ⟨_, rfl, mem, above 0⟩

/-- THERMAL_SAMPLE: below 110 degrees a reading is shown and nothing stops (R457). -/
theorem exec_thermalSample {s : State} {node s0 s1 s2 s3 : Nat} (region : isRegion node = true) (sane : max (max s0 s1) (max s2 s3) < 256)
    (due : (s.pow node).sampled + 20 * us ≤ s.now) :
    ∃ u : State, exec (.thermalSample node s0 s1 s2 s3) s = .next u ∧ (max (max s0 s1) (max s2 s3) < 110 →
      u.fld F.pwrTemp_max node = max (max s0 s1) (max s2 s3) ∧ (u.pow node).sampled = s.now ∧ u.mem = s.mem ∧ u.blocks = s.blocks) := by
  show ∃ u, execThermalSample node s0 s1 s2 s3 s = _ ∧ _
  rw [execThermalSample, need_of_true (by rw [region, Bool.true_and]; exact decide_eq_true sane), need_of_true (decide_eq_true due)]
  extract_lets hot v1 run v2 v3 recent v4
  clear_value recent
  refine ⟨_, rfl, fun cool => ?_⟩
  have runs : v3 = v2 := if_neg fun stops => absurd stops.1 (Nat.not_le.2 cool)
  rw [if_neg fun stops => absurd stops.1 (Nat.not_le.2 (Nat.lt_of_lt_of_le cool (by decide)))]
  have shown : v4.fld F.pwrTemp_max node = hot := by
    calc v4.fld F.pwrTemp_max node = _ := State.fld_put_below (f := F.pwrTemp_stops) (g := F.pwrTemp_max) _ rfl (by decide) (by decide) node 0 0 _
      _ = v3.fld F.pwrTemp_max node := v3.fld_put_below (f := F.pwrTemp_throttling) (g := F.pwrTemp_max) rfl (by decide) (by decide) node 0 0 _
      _ = v1.fld F.pwrTemp_max node := (congrArg (State.fld · F.pwrTemp_max node) runs).trans (v1.fld_modPow node _ F.pwrTemp_max node 0 0)
      _ = hot % 256 := State.fld_put_same (f := F.pwrTemp_max) _ (by decide) node 0 0 hot
      _ = hot := Nat.mod_eq_of_lt sane
  have kept : v4.power = v2.power ∧ v4.mem = v2.mem ∧ v4.blocks = v2.blocks := by rw [← runs]; exact ⟨rfl, rfl, rfl⟩
  refine ⟨shown, ?_, kept.2.1, kept.2.2⟩
  calc (v4.pow node).sampled = (v2.pow node).sampled := congrArg RegionPower.sampled (State.pow_of_power kept.1 node)
    _ = s.now := congrArg RegionPower.sampled (v1.pow_modPow node _)

/-- PANEL_RESUME: the pins of a stopped panel are released, and bringing its units back leaves them so (R459). -/
theorem exec_panelResume {s : State} (stopped : s.pstate = 4) (vaon : s.plant.vaon = true) (clocked : s.plant.refLost = false) (alive : s.plant.bothLost = false)
    (cooled : ∀ e ∈ s.power, ∃ t, e.2.cool90 = some t ∧ t + 10 * sec ≤ s.now) :
    ∃ u : State, exec .panelResume s = .next u ∧ u.plant.airflow = true ∧ u.plant.faultN = false ∧ u.plant.thermtripN = false := by
  show ∃ u, execPanelResume s = _ ∧ _
  rw [execPanelResume, need_of_true (by simp [stopped, vaon, clocked, alive]), need_of_true]
  swap
  · refine List.all_eq_true.2 fun e listed => ?_
    obtain ⟨t, since, due⟩ := cooled e listed
    rw [since]
    exact decide_eq_true due
  extract_lets s1 s2 base s3
  have woken : s2.fixtures = s1.fixtures := State.fixtures_foldl (fun t st => by
    split
    · exact State.wakeStack_fixtures ..
    · rfl) _ s1
  have regions : s3.fixtures = s2.fixtures := by
    refine State.fixtures_foldl (fun t n => ?_) _ s2
    split
    · rfl
    extract_lets t1
    have blocks : t1.fixtures = t.fixtures :=
      (State.movePages_fixtures ..).trans (State.fixtures_foldl (fun v b => v.resetBlock_fixtures n b) _ t)
    exact (State.modPow_fixtures ..).trans ((State.setPwr_fixtures ..).trans blocks)
  have plant : s3.plant = s1.plant := State.plant_of_fixtures (regions.trans woken)
  refine ⟨_, rfl, ?_, ?_, ?_⟩
  · exact (congrArg Plant.airflow plant).trans rfl
  · exact (congrArg Plant.faultN plant).trans rfl
  · exact (congrArg Plant.thermtripN plant).trans rfl

/-- FORECAST: the ceilings are those predicted, and no other region keeps one (R460). -/
theorem exec_forecast {s : State} {hot : List (Nat × Nat)} {p : Nat} (regions : hot.all (fun e => isRegion e.1 && decide (e.2 < 16)) = true)
    (goes : s.pstate ≠ 4) (alive : s.plant.bothLost = false) (own : s.hostDuty s.master 0 6 = false) (due : s.plant.forecastAt + ms ≤ s.now) :
    ∃ u : State, exec (.forecast hot p) s = .next u ∧ u.mem = s.mem ∧ u.plant.forecastAt = s.now ∧
      ∀ n, n < 156 → (u.pow n).forecastF = (hot.find? (·.1 == n)).map fun e => opFreq e.2 := by
  show ∃ u, execForecast hot p s = _ ∧ _
  rw [execForecast, need_of_true regions, need_of_true (by simp [goes, alive, own]), need_of_true (decide_eq_true due)]
  extract_lets s1 s2 burning
  have rest : s2.mem = s1.mem ∧ s2.plant = s1.plant :=
    List.foldlRecOn (motive := fun t : State => t.mem = s1.mem ∧ t.plant = s1.plant) _ _ ⟨rfl, rfl⟩ fun t h n _ => h
  refine ⟨_, rfl, rest.1, (congrArg Plant.forecastAt rest.2).trans rfl, fun n inside => ?_⟩
  refine (s1.forecastF_foldl (fun n => (hot.find? (·.1 == n)).map fun e => opFreq e.2) _ n).trans ?_
  split
  · rfl
  next unlisted =>
    have quiet : (s.pow n).forecastF = none ∧ hot.any (·.1 == n) = false := by
      have out : ¬ ((s.pow n).forecastF.isSome || hot.any (·.1 == n)) = true := fun named =>
        unlisted (List.mem_filter.2 ⟨List.mem_range.2 inside, named⟩)
      simpa only [Bool.or_eq_true, not_or, Bool.not_eq_true, Option.isSome_eq_false_iff, Option.isNone_iff_eq_none] using out
    rw [find?_none_of_any quiet.2]
    exact quiet.1

/-- Settles O48: each row by its guards and by what its own lemma says it shows and leaves. -/
theorem powerAndTemperature : Obligations.PowerAndTemperature := by
  refine ⟨fun s power => ⟨fun node known goes => ?panelRail, fun n vaon flushed => ?vaon, fun node region serves => ?regionRail,
      fun node edge live => ?edgeRail, fun node hub => ?hubRail, fun n lost flushed => ?vinCore⟩,
    fun s node r => exec_contactMeasure, fun s node stalls cycles region on adapts single due => ?efficiency, fun s panel fixed => exec_budgetLoop,
    fun s panel above goes due => ?guard, fun s => ⟨fun released => ?assert, fun asserted => ?release⟩, fun s node uj parts site tags due => ?energy,
    fun s node s0 s1 s2 s3 => exec_thermalSample, fun s node t region stopped off goes since due => ?restart,
    fun s goes => ⟨fun cause named => ?stop, fun flows => ?airflow⟩, fun s stopped vaon clocked alive cooled => ?resume, fun s hot p => exec_forecast⟩
  case panelRail =>
    show execRailFault node true s = _
    rw [execRailFault, need_of_true (by simp [known, power]), if_pos rfl, need_of_true (by simp [goes])]
  case vaon =>
    show execPanelStop (.vaon n) s = _
    exact need_of_true (by simpa [vaon, power] using flushed)
  case regionRail =>
    have known : node < 182 := Nat.lt_trans (of_decide_eq_true region) (by decide)
    show execRailFault node false s = _
    rw [execRailFault, need_of_true (by simp [known, power]), if_neg (by decide), if_pos region, need_of_true (decide_eq_true serves)]
  case edgeRail =>
    obtain ⟨above, below⟩ : 156 ≤ node ∧ node < 180 := by simpa [isEdge] using edge
    have noRegion : ¬ isRegion node = true := by simp [isRegion, above]
    show execRailFault node false s = _
    rw [execRailFault, need_of_true (by simp [power]; omega), if_neg (by decide), if_neg noRegion, if_pos edge, need_of_true (by simp [live])]
  case hubRail =>
    have known : (decide (node < 182) && !isRegion node && !isEdge node) = true := by
      obtain rfl | rfl : node = 180 ∨ node = 181 := by simpa [isHub] using hub
      all_goals decide
    simp only [Bool.and_eq_true, Bool.not_eq_true', decide_eq_true_eq] at known
    obtain ⟨⟨known, noRegion⟩, noEdge⟩ := known
    show execRailFault node false s = _
    rw [execRailFault, need_of_true (by simp [known, power]), if_neg (by decide), noRegion, noEdge]
    rfl
  case vinCore =>
    show execVinCoreLoss n lost s = _
    rw [execVinCoreLoss, need_of_true power, need_of_true (by simpa using flushed)]
  case efficiency =>
    refine ⟨_, (need_of_true region).trans ((need_of_true (by simp [on, adapts, single])).trans (need_of_true (decide_eq_true due))), ?_, rfl, rfl, ?_⟩
    · exact congrArg RegionPower.looped (s.pow_modPow node _)
    · intro few many
      refine (congrArg RegionPower.efficiencyF (s.pow_modPow node _)).trans ?_
      show (if cycles < 2 * stalls then _ else if 4 * stalls < cycles then _ else _) = _
      rw [if_neg (Nat.not_lt.2 few), if_neg (Nat.not_lt.2 many)]
  case guard =>
    show execBudgetGuard panel s = _
    rw [execBudgetGuard, need_of_true (by simp [above, goes]), need_of_true (decide_eq_true due)]
  case assert =>
    exact need_of_true (by rw [released]; rfl)
  case release =>
    exact need_of_true asserted
  case energy =>
    obtain ⟨none, u, runs, power, mem⟩ := exec_energyInterval site tags due
    exact ⟨none, u, runs, (congrArg RegionPower.counted (State.pow_of_power power node)).trans (congrArg RegionPower.counted (s.pow_modPow node _)), mem⟩
  case restart =>
    show execRegionThermalRestart node s = _
    rw [execRegionThermalRestart, need_of_true region, need_of_true (by simp [stopped, off, goes]), need_of_true (by rw [since]; exact decide_eq_true due)]
  case stop =>
    simp only [List.mem_cons, List.not_mem_nil, or_false] at named
    obtain rfl | rfl | rfl | rfl := named <;> exact need_of_true (by simp [goes])
  case resume =>
    refine exec_panelResume stopped vaon clocked alive fun e listed => ?_
    have cool := List.all_eq_true.1 cooled e listed
    split at cool
    · next t since => exact ⟨t, since, of_decide_eq_true cool⟩
    · exact absurd cool (by decide)
  case airflow =>
    show execAirflowLoss s = _
    rw [execAirflowLoss, need_of_true flows]
    exact congrArg Host.Outcome.next (if_neg goes)

end Sys2Proof.Machine

namespace Sys2Proof.Machine

/-! ## Probes, retirement and spares -/

/-- Registers up to the end of a region's first page, where its UNIT_STAT and RGN_SITE lie, stay as they are (R392-R393). -/
def State.SameFront (node : Nat) (s t : State) : Prop := ∀ k, k < node * 0x40000 + 0x1000 → Sparse.find? t.regs k = Sparse.find? s.regs k

theorem State.SameFront.refl (node : Nat) (s : State) : s.SameFront node s := fun _ _ => rfl

theorem State.SameFront.trans {node : Nat} {s t u : State} (h : s.SameFront node t) (h' : t.SameFront node u) : s.SameFront node u :=
  fun k low => (h' k low).trans (h k low)

theorem State.SameFront.foldl {α : Type} {node : Nat} {f : State → α → State} (l : List α) (h : ∀ (s : State), ∀ x ∈ l, s.SameFront node (f s x)) (s : State) :
    s.SameFront node (l.foldl f s) :=
  List.foldlRecOn (motive := s.SameFront node) l f (.refl node s) fun t kept x listed => kept.trans (h t x listed)

section
variable {node : Nat} (region : isRegion node = true)
include region

/-- A register of another of the region's pages (R393). -/
theorem State.sameFront_setWord (s : State) {r : Reg} {b : Nat} (page : 1 ≤ pageOf r.place.kind node b) (i : Nat) (w : Word) :
    s.SameFront node (s.setWord r node b i w) := by
  have home : r.home node = node := by
    have below : node < 156 := of_decide_eq_true region
    exact if_neg (by simp; omega)
  refine fun k low => Sparse.find?_set_other _ _ _ ?_
  rw [Reg.key, home]
  generalize pageOf r.place.kind node b = p at page
  omega

theorem State.sameFront_put (s : State) {f : Field} {b : Nat} (page : 1 ≤ pageOf f.reg.place.kind node b) (i v : Nat) : s.SameFront node (s.put f node b i v) :=
  s.sameFront_setWord region page i _

/-- From the ninth page on a region holds its blocks' pages only (R393). -/
theorem pageOf_of_blockPage {page : Nat} (above : 8 ≤ page) {k : PageKind} {b : Nat} (kind : pageKind node page = some (k, b)) (c : Nat) :
    1 ≤ pageOf k node c := by
  unfold pageKind at kind
  rw [if_pos region] at kind
  split at kind
  any_goals omega
  split at kind
  · split at kind <;> simp only [Option.some.injEq, Prod.mk.injEq, reduceCtorEq] at kind
    all_goals
      obtain ⟨rfl, -⟩ := kind
      simp only [pageOf]
      omega
  · exact absurd kind (by simp)

theorem State.sameFront_clearPage (s : State) {page : Nat} (above : 8 ≤ page) : s.SameFront node (s.clearPage node page) := by
  unfold State.clearPage
  split
  · exact .refl node s
  next k b kind =>
  refine .foldl _ (fun t r listed => ?_) s
  extract_lets i0
  have there : 1 ≤ pageOf r.place.kind node i0 := by
    by_cases header : r.place.kind = .header
    · simp only [i0, header, beq_self_eq_true, if_true, pageOf]
      omega
    · obtain ⟨-, own⟩ := List.mem_filter.1 listed
      have own : r.place.kind = k := by simpa [header] using own
      rw [own]
      exact pageOf_of_blockPage region above kind i0
  split
  · exact .refl node t
  refine .foldl _ (fun v i _ => ?_) t
  split
  · exact v.sameFront_setWord region there i _
  · exact .refl node v

/-- A register of a block's page is none of the region's first page. -/
theorem State.sameFront_putBlock (s : State) {f : Field} (kind : f.reg.place.kind = .blk ∨ f.reg.place.kind = .vxc) (blk v : Nat) :
    s.SameFront node (s.put f node blk 0 v) := by
  refine s.sameFront_put region ?_ 0 v
  rcases kind with kind | kind <;> rw [kind, pageOf] <;> omega

theorem State.sameFront_updPens (s : State) (blk : Nat) (u : PenUnit) : s.SameFront node (s.updPens node blk u) := by
  unfold State.updPens State.showPens
  extract_lets x s1 s2 s3
  have granted := (s.setPenUnit node blk u).sameFront_putBlock region (f := F.blkPenStat_grantedUnits) (.inl rfl) blk (x.pens.foldl (fun a p => a + p.units) 0)
  have pending := s1.sameFront_putBlock region (f := F.blkPenStat_pending) (.inl rfl) blk x.pending.length
  have held := s2.sameFront_putBlock region (f := F.blkPenStat_held) (.inl rfl) blk (x.holders.filter (·.granted)).length
  exact ((granted.trans pending).trans held).trans (s3.sameFront_putBlock region (.inl rfl) blk _)

theorem State.sameFront_clearBreak (s : State) (blk : Nat) : s.SameFront node (s.clearBreak node blk) := by
  refine .foldl _ (fun t f listed => t.sameFront_put region ?_ blk 0) s
  have own : f.reg = .dbgBrk := by
    simp only [List.mem_cons, List.not_mem_nil, or_false] at listed
    obtain rfl | rfl | rfl | rfl | rfl := listed <;> rfl
  rw [own]
  simp [Reg.place, pageOf, region]

theorem State.sameFront_showVec (s : State) (blk : Nat) : s.SameFront node (s.showVec node blk) := by
  unfold State.showVec
  extract_lets b retired cells s1 s2
  have busy : s.SameFront node s1 := s.sameFront_putBlock region (.inr rfl) blk _
  have sx : s1.SameFront node s2 := s1.sameFront_putBlock region (.inr rfl) blk _
  exact (busy.trans sx).trans (s2.sameFront_putBlock region (.inr rfl) blk _)

/-- A block's reset touches its own pages and the region's debug page (R400). -/
theorem State.sameFront_resetBlock (s : State) (blk : Nat) : s.SameFront node (s.resetBlock node blk) := by
  unfold State.resetBlock
  extract_lets s1 s2
  have pens : s.SameFront node s2 := (s1.modBlock node blk Block.cleared).sameFront_updPens region blk {}
  have pages : s2.SameFront node ((blockPages node blk).foldl (fun t p => t.clearPage node p) s2) :=
    .foldl _ (fun t p listed => t.sameFront_clearPage region (by
      simp only [blockPages, pageOf, List.mem_cons, List.not_mem_nil, or_false] at listed
      omega)) s2
  exact ((pens.trans pages).trans (State.sameFront_clearBreak region _ blk)).trans (State.sameFront_showVec region _ blk)

theorem State.sameFront_setFreq (s : State) (f : Nat) : s.SameFront node (s.setFreq node f) := by
  have clockPage : 1 ≤ pageOf .clk node 0 := by simp [pageOf, region]
  have powerPage : 1 ≤ pageOf .pwr node 0 := by cases edge : isEdge node <;> simp [pageOf, edge]
  exact (s.sameFront_put region (f := F.clkStat_freq) clockPage 0 f).trans (State.sameFront_put region _ (f := F.pwrStat_op) powerPage 0 (pointAbove f))

end

theorem State.setFreq_freq (s : State) (node f : Nat) : ((s.setFreq node f).pow node).freq = f :=
  congrArg RegionPower.freq (State.pow_modPow ..)

theorem State.SameFront.fld {node : Nat} {s t : State} (h : s.SameFront node t) {f : Field} {b i : Nat} (low : f.reg.key node b i < node * 0x40000 + 0x1000) :
    t.fld f node b i = s.fld f node b i := by
  rw [State.fld, State.fld, State.word, State.word, h _ low]

/-- The wave of a spare is complete: its clock runs, and it still starts as a spare (R446, R487). -/
theorem exec_sparePowered {s : State} {node : Nat} (region : isRegion node = true) (starting : s.unit node 0 = .starting) (spare : s.role node = 1)
    (off : (s.pow node).freq = 0) (due : (s.pow node).upAt ≤ s.now) :
    ∃ u : State, exec (.sparePowered node) s = .next u ∧ (u.pow node).freq = opFreq 10 ∧ u.unit node 0 = .starting ∧ u.role node = 1 := by
  show ∃ u, execSparePowered node s = _ ∧ _
  rw [execSparePowered, need_of_true region, need_of_true (by simp [starting, spare, off]), need_of_true (decide_eq_true due)]
  extract_lets s1
  have blocks : s.SameFront node s1 := .foldl _ (fun t b _ => t.sameFront_resetBlock region b) s
  have clocked : s.SameFront node (s1.setFreq node (opFreq 10)) := blocks.trans (s1.sameFront_setFreq region _)
  have home : ∀ r : Reg, r.shared = false → r.home node = node := fun r own => by simp [Reg.home, own]
  have unitLow : Reg.unitStat.low node 0 = 0x18 := by simp [Reg.low, Reg.place, pageOf]
  have siteLow : Reg.rgnSite.low node 0 = 0x100 := by simp [Reg.low, Reg.place, pageOf]
  have firmwareLow : Reg.rgnFw.low node 0 = 0x108 := by simp [Reg.low, Reg.place, pageOf]
  have apartUnit : Reg.unitStat.key node 0 0 ≠ Reg.rgnFw.key node 0 0 := Reg.key_ne_of_low (by omega) (by omega) (by omega)
  have apartSite : Reg.rgnSite.key node 0 0 ≠ Reg.rgnFw.key node 0 0 := Reg.key_ne_of_low (by omega) (by omega) (by omega)
  have unitFront : Reg.unitStat.key node 0 0 < node * 0x40000 + 0x1000 := by rw [Reg.key_eq_low, home _ rfl, unitLow]; omega
  have siteFront : Reg.rgnSite.key node 0 0 < node * 0x40000 + 0x1000 := by rw [Reg.key_eq_low, home _ rfl, siteLow]; omega
  generalize hv : s1.fld F.rgnFw_version (s1.active.headD 0) = v
  refine ⟨_, rfl, ?_, ?_, ?_⟩
  · rw [State.pow_of_power (State.put_power ..), State.setFreq_freq]
  · have shown := State.fld_congr (f := F.unitStat_state) ((s1.setFreq node (opFreq 10)).word_put_other (f := F.rgnFw_version) apartUnit v)
    rw [State.unit, shown, clocked.fld (f := F.unitStat_state) unitFront]
    exact starting
  · have shown := State.fld_congr (f := F.rgnSite_role) ((s1.setFreq node (opFreq 10)).word_put_other (f := F.rgnFw_version) apartSite v)
    rw [State.role, shown, clocked.fld (f := F.rgnSite_role) siteFront]
    exact spare

theorem State.showFinding_master (s : State) (node : Nat) (fabric sideband : Bool) (clears : Nat) :
    (s.showFinding node fabric sideband clears).master = s.master := by
  simp only [State.showFinding, List.foldl_cons, List.foldl_nil, State.put_master]

/-- PROBE_FINDING: what both paths answered is shown and recorded, and decides (R492-R493). -/
theorem exec_probeFinding {s : State} {node : Nat} {p : Probe} (suspect : s.probe? node = some p) {fab side : Bool} (fabric : p.fabricAnswers = some fab)
    (sideband : p.sidebandAnswers = some side) (untested : p.loopback = false) :
    let cv := if fab && side then s.countEvent (eventKey 14 node) sec else (0, s)
    let u := (cv.2.showFinding node fab side cv.1).stateEntry ⟨s.master, pageOf .log s.master 0, 0x3F, none⟩ .ce .probeFinding 0
      (node + 256 * b2n fab + 512 * b2n side)
    exec (.probeFinding node) s = .next (if fab && side && decide (cv.1 < 3) then u.clearSuspect node else if fab && !side then (u.clearSuspect node).alert
      else if !fab && !side then u.condemn node 4 else u.modProbe node fun p => { p with loopback := true }) := by
  show execProbeFinding node s = _
  simp only [execProbeFinding, suspect, fabric, sideband]
  rw [need_of_true (by rw [untested]; rfl)]
  have counted : (if fab && side then s.countEvent (eventKey 14 node) sec else (0, s)).2.master = s.master := by split <;> rfl
  simp only [apply_ite Host.Outcome.next, State.showFinding_master, counted]

/-- Settles O50: each row by its guards. -/
theorem probesAndRetirement : Obligations.ProbesAndRetirement := by
  refine ⟨fun s node p suspect => ⟨fun ok => ⟨fun silent => ?sideband, fun silent => ?fabric⟩, fun fab side fabric sideband untested => ?finding,
    fun tested transit => ?loopback⟩, fun s node page bit' count decided goes live => ⟨fun region => ?region, fun edge => ?edge⟩,
    fun s node region starting spare => ⟨fun off due => exec_sparePowered region starting spare off due, fun clocked => ?tested⟩,
    fun s node stack edge => ?reset⟩
  case sideband =>
    show execProbeAttempt node true ok s = _
    simp only [execProbeAttempt, suspect, if_true]
    rw [need_of_true (by rw [silent]; rfl)]
  case fabric =>
    show execProbeAttempt node false ok s = _
    simp only [execProbeAttempt, suspect, Bool.false_eq_true, if_false]
    rw [need_of_true (by rw [silent]; rfl)]
  case finding =>
    have runs := exec_probeFinding suspect fabric sideband untested
    generalize (if fab && side then s.countEvent (eventKey 14 node) sec else (0, s)) = cv at runs
    obtain ⟨c, v⟩ := cv
    refine ⟨c, v, _, rfl, rfl, ?_⟩
    rw [runs]
    refine ⟨?_, ?_, ?_, ?_⟩
    · rintro rfl rfl few
      rw [if_pos (by simpa using few)]
    · rintro rfl rfl
      rw [if_neg (by simp), if_pos (by decide)]
    · rintro rfl rfl
      rw [if_neg (by simp), if_neg (by decide), if_pos (by decide)]
    · rintro (⟨rfl, rfl⟩ | ⟨rfl, rfl, many⟩)
      · rw [if_neg (by simp), if_neg (by decide), if_neg (by decide)]
      · rw [if_neg (by simpa using many), if_neg (by decide), if_neg (by decide)]
  case loopback =>
    show execLoopbackTest node transit s = _
    simp only [execLoopbackTest, suspect]
    rw [need_of_true tested]
  case region =>
    show execRegionRetire node s = _
    rw [execRegionRetire, need_of_true (by simp [region])]
    simp only [decided]
    rw [need_of_true (by simp [goes, live]), if_pos region]
  case edge =>
    have noRegion : ¬ isRegion node = true := by
      have above : 156 ≤ node := by simpa [isEdge] using (Bool.and_eq_true_iff.1 edge).1
      simp [isRegion, above]
    show execRegionRetire node s = _
    rw [execRegionRetire, need_of_true (by simp [edge])]
    simp only [decided]
    rw [need_of_true (by simp [goes, live]), if_neg noRegion]
  case tested =>
    have waits : (s.unit node 0 == .starting && s.role node == 1 && (s.pow node).freq != 0) = true := by simp [starting, spare, clocked]
    refine ⟨?_, ?_⟩
    · show execSpareKatDone node true s = _
      rw [execSpareKatDone, need_of_true region, need_of_true waits, if_pos rfl]
    · show execSpareKatDone node false s = _
      rw [execSpareKatDone, need_of_true region, need_of_true waits, if_neg (by decide)]
  case reset =>
    intro page u
    have runs : exec (.unitReset node stack) s = need (s.unit node page == .running || Sparse.find? s.drains (node * 64 + page) == some DrainFor.reset) .wrongState
        (.next (let v := if Sparse.find? s.drains (node * 64 + page) == some DrainFor.reset then u else u.countEdge node 2 (if stack then 3 else 4)
          if stack then v.resetController node else v.resetDrove node)) := need_of_true edge
    rw [runs]
    refine ⟨fun asked => ?_, fun unasked runs => ?_⟩
    · rw [asked]
      exact (need_of_true (by simp)).trans rfl
    · rw [need_of_true (by simp [runs]), beq_false_of_ne unasked]
      rfl

end Sys2Proof.Machine

namespace Sys2Proof.Machine

/-! ## What bringing the panel up leaves of its supply -/

theorem State.fixtures_of_sansAlarms {s t : State} (h : t.sansAlarms = s.sansAlarms) : t.fixtures = s.fixtures :=
  show t.sansAlarms.fixtures = s.sansAlarms.fixtures by rw [h]

theorem State.fixtures_ite {c : Prop} [Decidable c] {s t u : State} (h : t.fixtures = s.fixtures) (h' : u.fixtures = s.fixtures) :
    (if c then t else u).fixtures = s.fixtures := by
  split
  · exact h
  · exact h'

@[simp] theorem State.errorWith_fixtures (s : State) (at' : Site) (kind errBit : Nat) (sev : Severity) (addr detail : Nat) (injected : Bool) :
    (s.errorWith at' kind errBit sev addr detail injected).fixtures = s.fixtures := State.fixtures_of_sansAlarms (State.errorWith_sansAlarms ..)
@[simp] theorem State.retirement_fixtures (s : State) (at' : Site) (errBit : Nat) (sev : Severity) (type count : Nat) :
    (s.retirement at' errBit sev type count).fixtures = s.fixtures := (State.errorWith_fixtures ..).trans rfl
@[simp] theorem State.stateEntry_fixtures (s : State) (at' : Site) (sev : Severity) (ev : StateEvent) (addr data : Nat) :
    (s.stateEntry at' sev ev addr data).fixtures = s.fixtures := State.fixtures_of_sansFaults (State.reportCtl_sansFaults ..)
@[simp] theorem State.toRetire_fixtures (s : State) (r : Retire) : (s.toRetire r).fixtures = s.fixtures :=
  State.fixtures_of_sansFaults (State.toRetire_sansFaults ..)
@[simp] theorem State.tookStep_fixtures (s : State) (b : Bringup) (k : Nat) : (s.tookStep b k).fixtures = s.fixtures := rfl

/-! Fuses, spares and the log (R513-R518). -/

@[simp] theorem State.checkGrades_fixtures (s : State) : s.checkGrades.fixtures = s.fixtures := by
  refine State.fixtures_foldl (fun t n => ?_) _ s
  exact State.fixtures_ite ((State.errorWith_fixtures ..).trans ((State.put_fixtures ..).trans (State.put_fixtures ..)))
    ((State.put_fixtures ..).trans (State.put_fixtures ..))

@[simp] theorem State.checkSpares_fixtures (s : State) : s.checkSpares.fixtures = s.fixtures := by
  refine State.fixtures_foldl (fun t r => ?_) _ s
  exact State.fixtures_ite rfl (State.errorWith_fixtures ..)

@[simp] theorem State.resumeLog_fixtures (s : State) : s.resumeLog.fixtures = s.fixtures := by
  unfold State.resumeLog
  extract_lets top last start lostEntry
  split
  · exact State.fixtures_ite rfl rfl
  · exact State.fixtures_ite rfl rfl

/-- A retirement that the log holds takes effect again; a row may enter the tray's fuses (R517). -/
theorem State.reapply_plant (s : State) (e : LogEntry) : (s.reapply e).plant = s.plant := by
  have moved (t : State) (node : Nat) (ps : List Nat) : (t.movePages node ps .retired).plant = t.plant := State.plant_of_fixtures (State.movePages_fixtures ..)
  unfold State.reapply
  split
  · split
    · dsimp only
      split
      · rfl
      split
      · rfl
      · exact moved ..
    split
    · split
      · exact moved ..
      split
      · exact moved ..
      split <;> rfl
    · rfl
  · split
    · dsimp only
      split <;> rfl
    · rfl

@[simp] theorem State.bootRetire_fixtures (s : State) (node : Nat) : (s.bootRetire node).fixtures = s.fixtures := by
  unfold State.bootRetire
  exact State.fixtures_ite rfl ((State.movePages_fixtures ..).trans (State.retirement_fixtures ..))

@[simp] theorem State.fuseGroups_fixtures (s : State) : s.fuseGroups.fixtures = s.fixtures := by
  refine State.fixtures_foldl (fun t g => ?_) _ s
  split
  · rfl
  · exact State.showPort_fixtures ..

@[simp] theorem State.fuseRows_fixtures (s : State) : s.fuseRows.fixtures = s.fixtures := by
  refine State.fixtures_foldl (fun t x => ?_) _ s
  dsimp only
  split
  · rfl
  split
  · exact State.put_fixtures ..
  · exact State.bump_fixtures ..

@[simp] theorem State.fuseLanes_fixtures (s : State) : s.fuseLanes.fixtures = s.fixtures := by
  refine State.fixtures_foldl (fun t l => ?_) _ s
  exact State.fixtures_ite (State.put_fixtures ..) rfl

@[simp] theorem State.fuseCells_fixtures (s : State) : s.fuseCells.fixtures = s.fixtures := by
  unfold State.fuseCells
  extract_lets s1
  have matrix : s1.fixtures = s.fixtures := by
    refine State.fixtures_foldl (fun t c => ?_) _ s
    exact State.fixtures_ite (State.put_fixtures ..) rfl
  refine (State.fixtures_foldl (fun t c => ?_) _ s1).trans matrix
  exact State.fixtures_ite ((State.showVec_fixtures ..).trans (State.put_fixtures ..)) rfl

/-! Stacks and memory (R316-R325, R519). -/

@[simp] theorem State.sift_fixtures (s : State) (f : Packet → Bool) : (s.sift f).fixtures = s.fixtures := rfl

@[simp] theorem State.failRequests_fixtures (s : State) (st : Nat) : (s.failRequests st).fixtures = s.fixtures := by
  unfold State.failRequests
  extract_lets n isStack held s1 s2 mirrored s3
  have answered : s2.fixtures = s1.fixtures := by
    refine State.fixtures_foldl (fun t p => ?_) held s1
    exact State.fixtures_ite (State.answer_fixtures ..) rfl
  refine (State.fixtures_foldl (fun t r => ?_) mirrored s3).trans ((State.sift_fixtures ..).trans answered)
  split
  · exact State.answer_fixtures ..
  · rfl

@[simp] theorem State.failStack_fixtures (s : State) (st : Nat) (cause : StackCause) (count : Nat) : (s.failStack st cause count).fixtures = s.fixtures := by
  unfold State.failStack
  extract_lets n at' s1 s2 s3
  have noted : s2.fixtures = s.fixtures := by
    simp only [s2]
    split
    · exact (State.retirement_fixtures ..).trans (State.put_fixtures ..)
    · exact (State.error_fixtures ..).trans (State.put_fixtures ..)
  have failed : s3.fixtures = s.fixtures :=
    (State.failRequests_fixtures ..).trans ((State.fixtures_of_sansFaults (State.moveUnit_sansFaults ..)).trans noted)
  have mirrored : ((s3.put F.hbmStat_mirror n 0 0 3).put F.hbmStat_mirror (156 + partner st) 0 0 3).fixtures = s.fixtures :=
    (State.put_fixtures ..).trans ((State.put_fixtures ..).trans failed)
  exact State.fixtures_ite (State.fixtures_ite mirrored failed) (State.fixtures_ite failed failed)

@[simp] theorem State.stackFound_fixtures (s : State) (st off kind : Nat) : (s.stackFound st off kind).fixtures = s.fixtures :=
  State.fixtures_of_sansFaults (State.stackFound_sansFaults ..)

@[simp] theorem State.memoryTest_fixtures (s : State) (b : Bringup) (full : Bool) (slice : Nat) : (s.memoryTest b full slice).fixtures = s.fixtures := by
  unfold State.memoryTest
  extract_lets named covered s1 gone s2
  have found : s1.fixtures = s.fixtures := by
    refine State.fixtures_foldl (fun t x => ?_) _ s
    exact State.fixtures_ite (State.stackFound_fixtures ..) rfl
  have failed : s2.fixtures = s1.fixtures := by
    refine (State.fixtures_foldl (fun t k => ?_) gone _).trans rfl
    exact State.failStack_fixtures ..
  exact failed.trans found

@[simp] theorem State.scratchTest_fixtures (s : State) : s.scratchTest.fixtures = s.fixtures := rfl
@[simp] theorem State.remapRow_fixtures (s : State) (node blk bank row : Nat) : (s.remapRow node blk bank row).fixtures = s.fixtures :=
  State.fixtures_of_sansReads (State.remapRow_sansReads ..)

@[simp] theorem State.countEdge_fixtures (s : State) (node limit detail : Nat) : (s.countEdge node limit detail).fixtures = s.fixtures := by
  have noted (t : State) (k window : Nat) : (t.countEvent k window).2.fixtures = t.fixtures := State.fixtures_of_sansFaults (State.countEvent_sansFaults ..)
  unfold State.countEdge
  generalize 86400 * sec = window
  extract_lets s1
  have counted : (s1.countEvent (eventKey 11 node) window).2.fixtures = s.fixtures := (noted ..).trans (State.error_fixtures ..)
  exact State.fixtures_ite ((State.fixtures_of_sansFaults (State.classified_toRetire_sansFaults ..)).trans counted) counted

/-! Cells that are retired, and blocks that start (R141-R170, R489). -/

@[simp] theorem State.condition_fixtures (s : State) (q : QueueRef) (st : Status) : (s.condition q st).fixtures = s.fixtures := by
  unfold State.condition
  split
  · split
    · exact State.unreported_fixtures ..
    · exact State.unreported_fixtures ..
  · rfl

@[simp] theorem State.endCmd_fixtures (s : State) (q : QueueRef) (st : Status) : (s.endCmd q st).fixtures = s.fixtures := by
  unfold State.endCmd
  exact State.fixtures_ite (State.endAs_fixtures ..) (State.condition_fixtures ..)

@[simp] theorem State.endLaunch_fixtures (s : State) (node blk : Nat) (l : Launch) (st : Status) (cause : Nat) :
    (s.endLaunch node blk l st cause).fixtures = s.fixtures := (State.endCmd_fixtures ..).trans ((State.modCur_fixtures ..).trans ((State.modQueue_fixtures ..).trans ((State.showVec_fixtures ..).trans (State.modBlock_fixtures ..))))

@[simp] theorem State.settleLaunch_fixtures (s : State) (node blk id : Nat) : (s.settleLaunch node blk id).fixtures = s.fixtures := by
  unfold State.settleLaunch
  dsimp only
  split
  · split
    · exact State.fixtures_ite rfl (State.endLaunch_fixtures ..)
    · rfl
  · rfl

@[simp] theorem State.stopLaunch_fixtures (s : State) (node blk : Nat) (l : Launch) (st : Status) (cause : Nat) :
    (s.stopLaunch node blk l st cause).fixtures = s.fixtures := by
  unfold State.stopLaunch
  exact State.fixtures_ite rfl ((State.settleLaunch_fixtures ..).trans (State.condition_fixtures ..))

@[simp] theorem State.reportFloatWork_fixtures (s : State) (node blk c : Nat) : (s.reportFloatWork node blk c).fixtures = s.fixtures := by
  unfold State.reportFloatWork
  extract_lets b live s1 done
  have poisoned : s1.fixtures = s.fixtures := by
    refine State.fixtures_foldl (fun t r => ?_) live s
    exact State.condition_fixtures ..
  refine (State.fixtures_foldl (fun t w => ?_) _ s1).trans poisoned
  exact State.errorWith_fixtures ..

@[simp] theorem State.setSlotMap_fixtures (s : State) (node blk : Nat) (m : List Nat) : (s.setSlotMap node blk m).fixtures = s.fixtures := by
  unfold State.setSlotMap
  generalize m.zip (List.range 32) = places
  refine State.fixtures_foldl (fun t x => ?_) places s
  exact State.setWord_fixtures ..
@[simp] theorem State.setOut_fixtures (s : State) (node blk c : Nat) : (s.setOut node blk c).fixtures = s.fixtures := rfl

@[simp] theorem State.retireCell_fixtures (s : State) (node blk c : Nat) (sev : Severity) (count : Nat) (rounds : Bool) :
    (s.retireCell node blk c sev count rounds).fixtures = s.fixtures := by
  unfold State.retireCell
  split
  · rfl
  extract_lets out sliced b map map' n s1 s2 s3 s4 s5 own s6
  have worked : s1.fixtures = s.fixtures := State.fixtures_ite (State.reportFloatWork_fixtures ..) rfl
  have marked : s4.fixtures = s1.fixtures :=
    (State.put_fixtures ..).trans ((State.put_fixtures ..).trans ((State.put_fixtures ..).trans (State.retirement_fixtures ..)))
  have retired : s6.fixtures = s.fixtures :=
    (State.setOut_fixtures ..).trans ((State.modBlock_fixtures ..).trans ((State.setSlotMap_fixtures ..).trans (marked.trans worked)))
  exact State.fixtures_ite ((State.toRetire_fixtures ..).trans retired) retired

@[simp] theorem State.retireVecCell_fixtures (s : State) (node blk c count : Nat) : (s.retireVecCell node blk c count).fixtures = s.fixtures := by
  unfold State.retireVecCell
  split
  · rfl
  extract_lets site b done s1 s2 s3 hit
  have reported : s3.fixtures = s2.fixtures := by
    refine State.fixtures_foldl (fun t w => ?_) _ s2
    exact State.errorWith_fixtures ..
  rw [State.showVec_fixtures]
  refine (State.fixtures_foldl (fun t l => ?_) hit _).trans ?_
  · exact State.stopLaunch_fixtures ..
  · exact (State.modBlock_fixtures ..).trans (reported.trans ((State.put_fixtures ..).trans (State.retirement_fixtures ..)))

@[simp] theorem State.applyHeld_fixtures (s : State) (node : Nat) : (s.applyHeld node).fixtures = s.fixtures := by
  unfold State.applyHeld
  extract_lets held
  refine (State.fixtures_foldl (fun t r => ?_) held _).trans rfl
  split
  · exact State.retireCell_fixtures ..
  · exact State.retireVecCell_fixtures ..
  · exact State.toRetire_fixtures ..

@[simp] theorem State.fitCells_fixtures (s : State) (node blk : Nat) : (s.fitCells node blk).fixtures = s.fixtures := by
  unfold State.fitCells
  dsimp only
  split
  · rfl
  · rw [State.setOut_fixtures, State.modBlock_fixtures]
    refine (State.fixtures_foldl (fun t m => ?_) _ _).trans ((State.put_fixtures ..).trans (State.put_fixtures ..))
    exact State.setWord_fixtures ..

@[simp] theorem State.closeWindow_fixtures (s : State) (node blk : Nat) : (s.closeWindow node blk).fixtures = s.fixtures := by
  unfold State.closeWindow
  extract_lets b s1 own s2
  have closed : s1.fixtures = s.fixtures := State.modBlock_fixtures ..
  have paused : s2.fixtures = s.fixtures := (State.setOut_fixtures ..).trans ((State.modBlock_fixtures ..).trans closed)
  exact State.fixtures_ite (State.fixtures_ite ((State.setSlotMap_fixtures ..).trans paused) paused) closed

@[simp] theorem State.startRounds_fixtures (s : State) (node blk : Nat) : (s.startRounds node blk).fixtures = s.fixtures :=
  (State.showOut_fixtures ..).trans ((State.modBlock_fixtures ..).trans (State.closeWindow_fixtures ..))

@[simp] theorem State.startBlock_fixtures (s : State) (node blk : Nat) : (s.startBlock node blk).fixtures = s.fixtures := by
  unfold State.startBlock
  extract_lets s1 s2 s3
  have fitted : s3.fixtures = s.fixtures := (State.updPens_fixtures ..).trans ((State.showVec_fixtures ..).trans
    ((State.fitCells_fixtures ..).trans ((State.modBlock_fixtures ..).trans ((State.put_fixtures ..).trans
      (State.movePages_fixtures s node (blockPages node blk) .running)))))
  exact State.fixtures_ite ((State.startRounds_fixtures ..).trans fitted) ((State.showOut_fixtures ..).trans fitted)

@[simp] theorem State.setFreq_fixtures (s : State) (node f : Nat) : (s.setFreq node f).fixtures = s.fixtures := rfl

@[simp] theorem State.startRegion_fixtures (s : State) (node : Nat) : (s.startRegion node).fixtures = s.fixtures := by
  unfold State.startRegion
  extract_lets s1 s2 s3 s4
  have enabled : s2.fixtures = s1.fixtures := by
    refine State.fixtures_foldl (fun t p => ?_) _ s1
    exact State.put_fixtures ..
  have clocked : s4.fixtures = s.fixtures := (State.modPow_fixtures ..).trans ((State.put_fixtures ..).trans ((State.setFreq_fixtures ..).trans
    (enabled.trans (State.movePages_fixtures ..))))
  refine (State.applyHeld_fixtures ..).trans ((State.fixtures_foldl (fun t b => ?_) (List.range 4) s4).trans clocked)
  exact State.startBlock_fixtures ..

end Sys2Proof.Machine

namespace Sys2Proof.Machine

/-! ## The pins -/

/-! The map and the routers (R75-R85, R520). -/

@[simp] theorem State.change_fixtures (s : State) (node page off : Nat) (o : Origin) (kind old new : Nat) :
    (s.change node page off o kind old new).fixtures = s.fixtures := rfl
@[simp] theorem State.setWords_fixtures (s : State) (r : Reg) (node : Nat) (ws : List Word) : (s.setWords r node ws).fixtures = s.fixtures := rfl

@[simp] theorem State.setBank_fixtures (s : State) (node bank st : Nat) : (s.setBank node bank st).fixtures = s.fixtures := by
  unfold State.setBank
  exact State.fixtures_ite (State.put_fixtures ..) (State.put_fixtures ..)

@[simp] theorem State.activate_fixtures (s : State) (node bank t : Nat) : (s.activate node bank t).fixtures = s.fixtures := rfl

@[simp] theorem State.seal_fixtures (s : State) (node : Nat) (o : Origin) : (s.seal node o).fixtures = s.fixtures := by
  unfold State.seal
  extract_lets f0 f1 bank d s1 s2
  have digest : s1.fixtures = s.fixtures := State.put_fixtures ..
  have sealed : s2.fixtures = s1.fixtures :=
    State.fixtures_ite ((State.activate_fixtures ..).trans (State.setBank_fixtures ..)) (State.setBank_fixtures ..)
  exact State.fixtures_ite rfl ((State.change_fixtures ..).trans (sealed.trans digest))

@[simp] theorem State.flipAt_fixtures (s : State) (node : Nat) (o : Origin) (t : Nat) : (s.flipAt node o t).fixtures = s.fixtures := by
  unfold State.flipAt
  extract_lets page old s1
  have cleared : s1.fixtures = s.fixtures := State.fixtures_ite ((State.modRouter_fixtures ..).trans (State.put_fixtures ..)) rfl
  have set := (State.modRouter_fixtures (s.put F.rtrFlipAt_flipAt node 0 0 t) node fun r => { r with flipPending := true }).trans (State.put_fixtures ..)
  exact State.fixtures_ite ((State.change_fixtures ..).trans cleared)
    (State.fixtures_ite (State.accessErr_fixtures ..) ((State.change_fixtures ..).trans set))

@[simp] theorem State.loadRouter_fixtures (s : State) (bank : Nat) (b : Tables) (t : Nat) (first : Bool) (n : Nat) :
    (s.loadRouter bank b t first n).fixtures = s.fixtures := by
  unfold State.loadRouter
  extract_lets s1 s2 s3 s4 s5
  have loaded : s5.fixtures = s.fixtures := (State.seal_fixtures ..).trans ((State.setWords_fixtures ..).trans ((State.setWords_fixtures ..).trans
    ((State.setWords_fixtures ..).trans (State.setWords_fixtures ..))))
  exact State.fixtures_ite loaded ((State.flipAt_fixtures ..).trans loaded)

@[simp] theorem State.assignRoles_fixtures (s : State) (n : Nat) : (s.assignRoles n).fixtures = s.fixtures := by
  refine State.fixtures_foldl (fun t r => ?_) _ s
  refine State.fixtures_foldl (fun v c => ?_) _ t
  dsimp only
  split
  · rfl
  exact State.fixtures_ite (State.put_fixtures ..) (State.fixtures_ite (State.put_fixtures ..) (State.fixtures_ite (State.put_fixtures ..)
    (State.fixtures_ite (State.put_fixtures ..) (State.put_fixtures ..))))

@[simp] theorem State.showGeometry_fixtures (s : State) (n : Nat) : (s.showGeometry n).fixtures = s.fixtures := by
  refine State.fixtures_foldl (fun t h => ?_) _ s
  exact (State.put_fixtures ..).trans ((State.put_fixtures ..).trans ((State.put_fixtures ..).trans ((State.put_fixtures ..).trans (State.put_fixtures ..))))

@[simp] theorem State.showMirror_fixtures (s : State) : s.showMirror.fixtures = s.fixtures := by
  refine State.fixtures_foldl (fun t st => ?_) _ s
  exact State.put_fixtures ..

@[simp] theorem State.showFeed_fixtures (s : State) : s.showFeed.fixtures = s.fixtures := by
  refine State.fixtures_foldl (fun t e => ?_) _ s
  exact State.put_fixtures ..

@[simp] theorem State.showLnum_fixtures (s : State) (n : Nat) : (s.showLnum n).fixtures = s.fixtures := State.put_fixtures ..

@[simp] theorem State.buildMap_fixtures (s : State) : s.buildMap.fixtures = s.fixtures := by
  unfold State.buildMap
  extract_lets n s1 map stack s2 s3
  have roles : s1.fixtures = s.fixtures := by
    refine (State.fixtures_foldl (fun t m => ?_) _ _).trans (s.assignRoles_fixtures n)
    exact State.showNeighbours_fixtures ..
  have loaded : s2.fixtures = s1.fixtures := by
    refine State.fixtures_foldl (fun t b => ?_) _ s1
    exact State.loadRouter_fixtures ..
  have shown : s3.fixtures = s2.fixtures := (State.showFeed_fixtures ..).trans ((State.showMirror_fixtures ..).trans (State.showGeometry_fixtures ..))
  refine (State.fixtures_foldl (fun t r => ?_) _ s3).trans (shown.trans (loaded.trans roles))
  exact State.showLnum_fixtures ..

/-! Dies and links that start (R330, R519, R521). -/

@[simp] theorem State.startDies_fixtures (s : State) : s.startDies.fixtures = s.fixtures := by
  unfold State.startDies
  extract_lets v
  refine State.fixtures_foldl (fun t r => ?_) _ s
  extract_lets t1
  have versioned : t1.fixtures = t.fixtures := State.put_fixtures ..
  have aside : ((corePages r).foldl (fun u p => u.put F.unitCtrl_enable r p 0 0) (t1.setPwr r 4)).fixtures = t1.fixtures := by
    refine (State.fixtures_foldl (fun u p => ?_) _ _).trans (State.setPwr_fixtures ..)
    exact State.put_fixtures ..
  split
  · exact (State.startRegion_fixtures ..).trans versioned
  · exact aside.trans versioned
  · exact aside.trans versioned
  · exact versioned

@[simp] theorem State.ask_fixtures (s : State) (fn node page arg1 arg2 : Nat) (what : Ask) (deadline : Option Nat) :
    (s.ask fn node page arg1 arg2 what deadline).fixtures = s.fixtures := rfl

@[simp] theorem State.fullTraining_fixtures (s : State) (node b : Nat) : (s.fullTraining node b).fixtures = s.fixtures := by
  unfold State.fullTraining
  extract_lets s1
  have trains : s1.fixtures = s.fixtures := (State.setLinkState_fixtures ..).trans (State.modLink_fixtures ..)
  exact State.fixtures_ite ((State.ask_fixtures ..).trans ((State.modLink_fixtures ..).trans trains)) trains

@[simp] theorem State.startTraining_fixtures (s : State) (node b : Nat) : (s.startTraining node b).fixtures = s.fixtures := by
  unfold State.startTraining
  exact State.fixtures_ite ((State.setLinkState_fixtures ..).trans (State.modLink_fixtures ..)) (State.fullTraining_fixtures ..)

@[simp] theorem State.trainAtBoot_fixtures (s : State) (b : Bringup) (full : Bool) (node i : Nat) : (s.trainAtBoot b full node i).fixtures = s.fixtures := by
  unfold State.trainAtBoot
  extract_lets kept s1
  have trains : s1.fixtures = s.fixtures := (State.startTraining_fixtures ..).trans (State.modLink_fixtures ..)
  exact State.fixtures_ite ((State.setLinkState_fixtures ..).trans ((State.modLink_fixtures ..).trans trains)) trains

/-- Readiness writes the tray's boot record and no pin (R521). -/
theorem State.becomeReady_plant (s : State) (full : Bool) (boots : Nat) : (s.becomeReady full boots).plant = s.plant := by
  unfold State.becomeReady
  extract_lets old saved tray s1 s2
  have recorded : s1.plant = s.plant := rfl
  have ready : s2.fixtures = s1.fixtures := (State.put_fixtures ..).trans ((State.put_fixtures ..).trans (State.put_fixtures ..))
  exact (State.plant_of_fixtures ((State.stateEntry_fixtures ..).trans ((State.put_fixtures ..).trans ready))).trans recorded

/-- Bring-up steps 5 to 13 move none of the panel's pins (R515-R521). -/
theorem State.bringUp_plant (s : State) (b : Bringup) (full : Bool) (boots : Nat) : (s.bringUp b full boots).plant = s.plant := by
  have retires (l : List Nat) (t : State) : (l.foldl State.bootRetire t).fixtures = t.fixtures :=
    State.fixtures_foldl (f := State.bootRetire) State.bootRetire_fixtures l t
  unfold State.bringUp
  extract_lets s1 s2 s3 s4 s5 s6 s7 s8 s9 s10 s11 s12 s13 all s14
  have powered : s1.fixtures = s.fixtures := (State.tookStep_fixtures ..).trans (retires ..)
  have bridged : s2.fixtures = s1.fixtures := by
    refine (State.tookStep_fixtures ..).trans ((State.fixtures_foldl (fun t x => ?_) _ _).trans (State.fuseGroups_fixtures s1))
    exact (State.errorWith_fixtures ..).trans (State.showPort_fixtures ..)
  have imaged : s4.fixtures = s2.fixtures := (State.tookStep_fixtures ..).trans ((retires ..).trans (State.put_fixtures ..))
  have stacked : s5.fixtures = s4.fixtures := by
    refine State.fixtures_foldl (fun t st => ?_) _ s4
    split
    · rfl
    extract_lets t1
    have runs : t1.fixtures = t.fixtures := State.movePages_fixtures ..
    exact State.fixtures_ite ((State.put_fixtures ..).trans runs) ((State.setStack_fixtures ..).trans ((State.put_fixtures ..).trans runs))
  have tested : s7.fixtures = s5.fixtures := (State.tookStep_fixtures ..).trans ((State.memoryTest_fixtures ..).trans
    ((State.tookStep_fixtures ..).trans (State.put_fixtures ..)))
  have mapped : s8.fixtures = s7.fixtures := by
    refine (State.tookStep_fixtures ..).trans ((State.fixtures_foldl (fun t x => ?_) _ _).trans ((State.fuseRows_fixtures ..).trans (State.scratchTest_fixtures s7)))
    exact State.fixtures_ite (State.remapRow_fixtures ..) rfl
  have started : s10.fixtures = s8.fixtures := by
    refine (State.fixtures_foldl (fun t n => ?_) _ s9).trans ((retires ..).trans (State.fuseCells_fixtures ..))
    exact State.fixtures_ite (State.movePages_fixtures ..) rfl
  have edged : s11.fixtures = s10.fixtures := by
    refine (State.tookStep_fixtures ..).trans (State.fixtures_foldl (fun t e => ?_) _ s10)
    exact State.fixtures_ite ((State.movePages_fixtures ..).trans (State.countEdge_fixtures ..)) rfl
  have ran : s12.fixtures = s11.fixtures := (State.fuseLanes_fixtures ..).trans ((State.startDies_fixtures ..).trans (State.buildMap_fixtures ..))
  have trained : s13.fixtures = s12.fixtures := by
    refine State.fixtures_foldl (fun t e => ?_) _ s12
    refine State.fixtures_foldl (fun v i => ?_) _ t
    exact State.fixtures_ite (State.trainAtBoot_fixtures ..) rfl
  have linked : s14.fixtures = s13.fixtures := (State.tookStep_fixtures ..).trans (State.put_fixtures ..)
  have kept : s14.fixtures = s.fixtures := by
    rw [linked, trained, ran, edged, started, mapped, tested, stacked, imaged, bridged, powered]
  exact (State.becomeReady_plant ..).trans (State.plant_of_fixtures kept)

/-! Reset released (R512-R514). -/

/-- The pins that reset's release sets: reset, the power enable, the supply (R512, R547). -/
def State.powerPins (s : State) : Bool × Bool × Bool := (s.plant.resetN, s.plant.pwrEn, s.plant.vinCore)

theorem State.powerPins_of_plant {s t : State} (h : t.plant = s.plant) : t.powerPins = s.powerPins := by rw [State.powerPins, h, State.powerPins]
theorem State.powerPins_of_fixtures {s t : State} (h : t.fixtures = s.fixtures) : t.powerPins = s.powerPins :=
  State.powerPins_of_plant (State.plant_of_fixtures h)

theorem State.powerPins_foldl {α : Type} {f : State → α → State} (h : ∀ s x, (f s x).powerPins = s.powerPins) (l : List α) (s : State) :
    (l.foldl f s).powerPins = s.powerPins :=
  List.foldlRecOn (motive := fun t : State => t.powerPins = s.powerPins) l f rfl fun t ht x _ => (h t x).trans ht

theorem State.fault_powerPins (s : State) : s.fault.powerPins = s.powerPins := rfl
theorem State.fault_fld (s : State) (f : Field) (node b i : Nat) : s.fault.fld f node b i = s.fld f node b i := rfl

/-- A bring-up step that fails asserts FAULT_N (R512). -/
theorem State.failStep_powerPins (s : State) (k : Nat) : (s.failStep k).powerPins = s.powerPins := by
  have noted := State.errorWith_fixtures (s.put F.hubBoot_failStep 180 0 0 k) ⟨s.master, 0, 0x3F, none⟩ 8 31 .uePanel 0 k false
  exact (State.fault_powerPins _).trans (State.powerPins_of_fixtures (noted.trans (State.put_fixtures ..)))

theorem Reg.hubBoot_not_mem_errorKeys (node : Nat) : Reg.hubBoot.key 180 0 0 ∉ errorKeys ⟨node, 0, 0x3F, none⟩ := by
  have boot : Reg.hubBoot.low 180 0 = 0x158 := by simp [Reg.low, Reg.place, pageOf]
  have stat : Reg.errStat.low node 0 = 0x20 := by simp [Reg.low, Reg.place, pageOf]
  have first : Reg.errFirst.low node 0 = 0x30 := by simp [Reg.low, Reg.place, pageOf]
  have apartStat : Reg.hubBoot.key 180 0 0 ≠ Reg.errStat.key node 0 0 := Reg.key_ne_of_low (by omega) (by omega) (by omega)
  have apartFirst : Reg.hubBoot.key 180 0 0 ≠ Reg.errFirst.key node 0 0 := Reg.key_ne_of_low (by omega) (by omega) (by omega)
  simp only [errorKeys, List.mem_cons, List.not_mem_nil, or_false, not_or]
  exact ⟨apartStat, apartFirst⟩

/-- The step that failed is shown (R512). -/
theorem State.failStep_shows (s : State) {k : Nat} (small : k < 16) : (s.failStep k).fld F.hubBoot_failStep 180 = k := by
  let u := s.put F.hubBoot_failStep 180 0 0 k
  obtain ⟨-, -, word⟩ := u.error_frame ⟨u.master, 0, 0x3F, none⟩ 31 .uePanel 0 k
  have kept : (u.error ⟨u.master, 0, 0x3F, none⟩ 31 .uePanel 0 k).fld F.hubBoot_failStep 180 = u.fld F.hubBoot_failStep 180 :=
    State.fld_congr (f := F.hubBoot_failStep) (word .hubBoot 180 0 0 (Reg.hubBoot_not_mem_errorKeys u.master))
  calc (s.failStep k).fld F.hubBoot_failStep 180 = (u.error ⟨u.master, 0, 0x3F, none⟩ 31 .uePanel 0 k).fld F.hubBoot_failStep 180 := State.fault_fld ..
    _ = u.fld F.hubBoot_failStep 180 := kept
    _ = k % 16 := s.fld_put_same (f := F.hubBoot_failStep) (by decide) 180 0 0 k
    _ = k := Nat.mod_eq_of_lt small

theorem State.holdHub_powerPins (s : State) (hub : Nat) : (s.holdHub hub).powerPins = s.powerPins := by
  unfold State.holdHub
  extract_lets s1 s2
  have moved : (s2.movePages hub (pagesOf hub) .retired).powerPins = s.powerPins :=
    (State.powerPins_of_fixtures (State.movePages_fixtures s2 hub (pagesOf hub) .retired)).trans rfl
  refine (State.powerPins_foldl (fun t h => ?_) _ _).trans moved
  exact State.powerPins_of_fixtures (State.put_fixtures ..)

end Sys2Proof.Machine

namespace Sys2Proof.Machine

theorem State.draw_fixtures (s : State) : s.draw.2.fixtures = s.fixtures := rfl

/-- PANEL_RESET_RELEASE: the pins are set, and a bring-up that stops early shows the step that failed (R512-R514). -/
theorem exec_panelResetRelease {s : State} {b : Bringup} (waits : s.fld F.hubBoot_step 180 = 2) (clean : s.fld F.hubBoot_failStep 180 = 0)
    (vaon : s.plant.vaon = true) :
    ∃ u : State, exec (.panelResetRelease b) s = .next u ∧ u.powerPins = (false, true, true) ∧
      ([180, 181].filter b.romBad.contains = [180, 181] → u.fld F.hubBoot_failStep 180 = 2) ∧
      ([180, 181].filter b.romBad.contains ≠ [180, 181] → b.fuseSilent = true → u.fld F.hubBoot_failStep 180 = 3) := by
  show ∃ u, execPanelResetRelease b s = _ ∧ _
  rw [execPanelResetRelease, need_of_true (by simp [waits, clean, vaon])]
  extract_lets s1 bad s2 s3 s4 s5 s6 bare s7 tray
  have released : s3.powerPins = (false, true, true) :=
    (State.powerPins_of_fixtures ((State.put_fixtures ..).trans (State.put_fixtures ..))).trans rfl
  by_cases roms : bad b.romBad = [180, 181]
  · rw [if_pos roms]
    exact ⟨_, rfl, (State.failStep_powerPins ..).trans released, fun _ => State.failStep_shows _ (by decide), fun other => absurd roms other⟩
  rw [if_neg roms]
  have held : s4.powerPins = (false, true, true) := by
    refine (State.powerPins_of_fixtures (State.tookStep_fixtures ..)).trans ((State.powerPins_foldl (fun t h => ?_) _ s3).trans released)
    exact State.holdHub_powerPins ..
  by_cases silent : b.fuseSilent = true
  · rw [if_pos silent]
    exact ⟨_, rfl, (State.failStep_powerPins ..).trans held, fun all => absurd all roms, fun _ _ => State.failStep_shows _ (by decide)⟩
  rw [if_neg silent]
  have fused : s6.powerPins = (false, true, true) := by
    have noted : s5.fixtures = s4.fixtures := State.fixtures_foldl (fun t _ => State.errorWith_fixtures ..) _ s4
    have tested : s6.fixtures = s5.fixtures :=
      (State.tookStep_fixtures ..).trans ((State.checkSpares_fixtures ..).trans (State.checkGrades_fixtures ..))
    exact (State.powerPins_of_fixtures (tested.trans noted)).trans held
  have failed : ∃ u : State, Host.Outcome.next (s6.failStep 4) = (.next u : Out) ∧ u.powerPins = (false, true, true) ∧
      (bad b.romBad = [180, 181] → u.fld F.hubBoot_failStep 180 = 2) ∧
      (bad b.romBad ≠ [180, 181] → b.fuseSilent = true → u.fld F.hubBoot_failStep 180 = 3) :=
    ⟨_, rfl, (State.failStep_powerPins ..).trans fused, fun all => absurd all roms, fun _ yes => absurd yes silent⟩
  split
  · exact failed
  rename_i slot found
  split
  · exact failed
  have bundled : s7.powerPins = (false, true, true) := (State.powerPins_foldl (fun t h => State.holdHub_powerPins ..) _ s6).trans fused
  extract_lets s8 kept full boots s9 s10
  have imaged : s8.powerPins = s7.powerPins := (State.powerPins_of_fixtures (State.put_fixtures ..)).trans rfl
  have counted : s10.fixtures = s8.fixtures :=
    (State.put_fixtures ..).trans ((State.put_fixtures ..).trans ((State.put_fixtures ..).trans (State.put_fixtures ..)))
  split
  rename_i d s11 drawn
  have random : s11.fixtures = s10.fixtures := (congrArg (fun p : Nat × State => p.2.fixtures) drawn).symm.trans s10.draw_fixtures
  extract_lets inc s12 s13 s14 s15 s16
  have named : s13.fixtures = s11.fixtures := by
    show (match kept.panelId with | some i => s12.put F.hubPanel_panelId 180 0 0 i | none => s12).fixtures = _
    cases kept.panelId with
    | some i => exact (State.put_fixtures ..).trans (State.setWord_fixtures ..)
    | none => exact State.setWord_fixtures ..
  have based : s14.fixtures = s13.fixtures := State.fixtures_foldl (fun t n => State.put_fixtures ..) _ s13
  have resumed : s15.fixtures = s14.fixtures := State.resumeLog_fixtures s14
  have replayed : s16.powerPins = s15.powerPins := State.powerPins_foldl (fun t e => State.powerPins_of_plant (State.reapply_plant t e)) _ s15
  have ended : ((s16.tookStep b 4).bringUp b full boots).powerPins = s16.powerPins :=
    (State.powerPins_of_plant (State.bringUp_plant ..)).trans (State.powerPins_of_fixtures (State.tookStep_fixtures ..))
  have prepared : s15.powerPins = s8.powerPins :=
    State.powerPins_of_fixtures (resumed.trans (based.trans (named.trans (random.trans counted))))
  refine ⟨_, rfl, ?_, fun all => absurd all roms, fun _ yes => absurd yes silent⟩
  rw [ended, replayed, prepared, imaged, bundled]

end Sys2Proof.Machine

namespace Sys2Proof.Machine

/-- The two hubs are both among those listed exactly where neither is left out (R513). -/
theorem bothHubs_iff (l : List Nat) : [180, 181].filter l.contains = [180, 181] ↔ ∀ h, h = 180 ∨ h = 181 → l.contains h = true := by
  simp [List.filter_eq_self]

/-- Reset and PWR_EN released reset the panel; the supply that comes back finds the log's SRAM empty where it had gone (R512, R524, R547). -/
theorem resetAndSupplyPins (s : State) :
    (s.plant.vaon = true → exec .panelResetAssert s = .next (s.flushAndReset true)) ∧
    (s.plant.pwrEn = true → exec .pwrEnDeassert s = .next ((s.flushAndReset true).modPlant fun p => { p with pwrEn := false })) ∧
    (s.plant.vaon = true → exec .vaonPresent s = .next (s.modPlant fun p => { p with refLost := false, vaon := true })) ∧
    (s.plant.vaon = false → ∃ u : State, exec .vaonPresent s = .next u ∧ u.plant.vaon = true ∧ u.plant.refLost = false ∧ u.mem = s.mem ∧ u.regs = s.regs ∧
      u.log.stopped = true ∧ u.log.flash = s.log.flash ∧ u.log.ring = []) := by
  refine ⟨fun vaon => ?_, fun enabled => ?_, fun vaon => ?_, fun gone => ?_⟩
  · show execPanelResetAssert s = _
    exact need_of_true vaon
  · show execPwrEnDeassert s = _
    exact need_of_true enabled
  · show execVaonPresent s = _
    rw [execVaonPresent, if_pos vaon]
  · show ∃ u, execVaonPresent s = _ ∧ _
    rw [execVaonPresent, if_neg (by simp [gone])]
    exact ⟨_, rfl, rfl, rfl, rfl, rfl, rfl, rfl, rfl⟩

/-- RAIL_FRAME: the frame's low bits hold the current predicted and the step expected (R553). -/
theorem exec_railFrame {s : State} {step next : Nat} (small : step < 4) (low : next < 4096) (ready : s.ready = true) (due : s.plant.railAt + 10 * us ≤ s.now) :
    ∃ (u : State) (frame : Nat), exec (.railFrame step next) s = .next u ∧ u.outbox = s.outbox ++ [.railFrame s.master frame] ∧ frame % 4096 = next ∧
      frame / 4096 % 4 = step ∧ u.plant.railAt = s.now ∧ u.plant.railSeq = (s.plant.railSeq + 1) % 256 ∧ u.mem = s.mem ∧ u.regs = s.regs := by
  show ∃ u frame, execRailFrame step next s = _ ∧ _
  rw [execRailFrame, need_of_true (by simp [small, low]), need_of_true ready, need_of_true (decide_eq_true due)]
  extract_lets bits
  generalize b2n (s.pstate == 4) = stopped, b2n s.log.stopped = full, s.plant.railSeq % 256 = seq at bits
  refine ⟨_, _, rfl, rfl, ?_, ?_, rfl, rfl, rfl, rfl⟩ <;> omega

/-- Settles O53: the release of reset by its stages, the other pins and the rail frame by their own steps. -/
theorem pins : Obligations.Pins := by
  unfold Obligations.Pins
  refine ⟨fun s b waits clean vaon => ?_, resetAndSupplyPins, fun s step next small low ready due => exec_railFrame small low ready due⟩
  obtain ⟨u, ran, pins, atRoms, atFuses⟩ := exec_panelResetRelease (b := b) waits clean vaon
  refine ⟨u, ran, congrArg (·.1) pins, congrArg (·.2.1) pins, congrArg (·.2.2) pins, fun all => atRoms ((bothHubs_iff _).mpr all), ?_⟩
  rintro ⟨h, hub, good⟩ silent
  refine atFuses (fun all => ?_) silent
  exact Bool.false_ne_true (good.symm.trans ((bothHubs_iff _).mp all h hub))

end Sys2Proof.Machine
